-- ==== Sys2Proof/Word.lean ====
section
/-!
DEFINITION. The word types of the Elvino channel: registers are 32 bits wide and little-endian (R7).
-/
namespace Sys2Proof

/-- One register, or one 32-bit word on a host path (R7). -/
abbrev Word := BitVec 32
/-- One byte. -/
abbrev Byte := BitVec 8
/-- A data word of a loop engine (R79). -/
abbrev Half := BitVec 16
/-- An accumulator of a loop engine (R109). -/
abbrev Acc := BitVec 40
/-- A data pointer of a loop engine (R109). -/
abbrev Ptr := BitVec 15

/-- The two channels of a package (R12). -/
inductive Chan where
  | A
  | B
deriving DecidableEq, Repr

end Sys2Proof
end

