-- ==== Sys2Proof/Syntax.lean ====
section
/-!
DEFINITION. The commands of the Elvino: one constructor of `Instr` per row of spec/opcode_table.json, with the operands
the row's rule gives it. `c` is the channel a command acts on; units carry their number of R7's naming table.
-/
namespace Sys2Proof

/-- The two accumulators of a loop engine (R109). -/
inductive AccSel where
  | ac0
  | ac1
deriving DecidableEq, Repr

/-- The modify modes of a pointer operand (R112). -/
inductive PMode where
  | plain
  | inc
  | linear
  | circular
deriving DecidableEq, Repr

/-- A pointer operand: the pointer and its modify mode (R112). -/
structure PtrOp where
  p : Fin 4
  m : PMode
deriving DecidableEq, Repr

/-- The profile parameters a host write may change during motion (R63). -/
inductive RampParam where
  | vmax
  | acc
  | dec
  | jerk
deriving DecidableEq, Repr

/-- The two coils of a stepper chopper unit (R159). -/
inductive Coil where
  | A
  | B
deriving DecidableEq, Repr

/-- A sigma-delta data input: the current of one phase of a PWM unit, or the DC-link voltage of a supply group
(R143). -/
inductive SdInput where
  | phase (u : Fin 16) (ph : Fin 3)
  | vdc (g : Fin 4)
deriving DecidableEq, Repr

/-- The registers of a divided-pulse output whose write restarts its interval (R185). -/
inductive DpoParam where
  | enable
  | num
  | den
deriving DecidableEq, Repr

/-- The two host paths of the package (R2). -/
inductive Path where
  | pcie
  | spi
deriving DecidableEq, Repr

/-- The rails whose loss is taken as power-on (R460). -/
inductive Rail where
  | vddsr
  | vddh
  | vddio
deriving DecidableEq, Repr

/-- The instructions of the TAP (R473). -/
inductive TapOp where
  | bypass
  | idcode
  | samplePreload
  | extest
  | extestPulse
  | extestTrain
  | clamp
deriving DecidableEq, Repr

/-- A PTP Sync as the plant port received it (R334): receive time on the domain's raw count, two-step flag, origin
time and correction in ns. -/
structure SyncMsg where
  rx : Nat
  seq : BitVec 16
  twoStep : Bool
  origin : Nat
  corr : Int
deriving DecidableEq, Repr

structure FollowUpMsg where
  seq : BitVec 16
  origin : Nat
  corr : Int
deriving DecidableEq, Repr

structure DelayRespMsg where
  seq : BitVec 16
  t4 : Nat
  corr : Int
deriving DecidableEq, Repr

structure AnnounceMsg where
  gm : BitVec 64
  rank : Nat
deriving DecidableEq, Repr

/-- The commands: one constructor per row of the operation table. -/
inductive Instr where
  /-- GO_READY (R30): CHN_CMD GO_READY brings the channel from SAFE_IDLE towards READY if every condition holds, energising groups and releasing brakes. -/
  | goReady (c : Chan) (key : BitVec 16) (coin : Bool)
  /-- GO_RUN (R29): CHN_CMD GO_RUN moves the channel from READY to RUN. -/
  | goRun (c : Chan) (key : BitVec 16) (coin : Bool)
  /-- STOP (R29): CHN_CMD STOP moves a running channel to STOPPING with target READY, holding every arm. -/
  | stop (c : Chan) (key : BitVec 16) (coin : Bool)
  /-- TO_SAFE_IDLE (R29): CHN_CMD TO_SAFE_IDLE moves the channel from READY to SAFE_IDLE. -/
  | toSafeIdle (c : Chan) (key : BitVec 16) (coin : Bool)
  /-- MAINTAIN (R29): CHN_CMD MAINTAIN moves the channel from SAFE_IDLE to MAINTENANCE. -/
  | maintain (c : Chan) (key : BitVec 16) (coin : Bool)
  /-- RESTART (R32): CHN_CMD RESTART cold-starts the channel from COMMISSION or MAINTENANCE using the image in flash. -/
  | restart (c : Chan) (key : BitVec 16) (coin : Bool)
  /-- LOCKOUT_ACK (R278): CHN_CMD LOCKOUT_ACK with a qualified reset and no active fault ends LOCKOUT and consumes the reset qualification. -/
  | lockoutAck (c : Chan) (key : BitVec 16) (coin : Bool)
  /-- BRAKE_RELEASE_DONE (R162): Once every BRK_CFGi.RELT has elapsed after release during GO_READY, BUSY clears and the channel becomes READY. -/
  | brakeReleaseDone (c : Chan)
  /-- BRAKE_ENGAGE_DONE (R162): After BRK_CFGi.ENGT at standstill in a category 1 stop, torque is removed and the stop completes. -/
  | brakeEngageDone (c : Chan) (k : Fin 8)
  /-- BASIC_CYCLE_START (R22): At 0 ns of every basic cycle the lattice advances b, latches positions and advances the virtual masters. -/
  | basicCycleStart (c : Chan)
  /-- PROFILE_EVALUATION (R42): Once per servo cycle the profile units evaluate virtual masters, gears and arms and update the command registers. -/
  | profileEvaluation (c : Chan)
  /-- ARM_GO (R45): PRF_ACTL.GO starts consuming the arm's ring or restarts its PTP and VEL joints. -/
  | armGo (c : Chan) (k : Fin 8)
  /-- HOLD (R61): PRF_ACTL.HOLD stops the arm along its stop ramp keeping its segments. -/
  | hold (c : Chan) (k : Fin 8)
  /-- RESUME (R63): PRF_ACTL.RESUME ends a HOLD and raises the override or restarts the joints. -/
  | resume (c : Chan) (k : Fin 8)
  /-- ABORT (R61): PRF_ACTL.ABORT makes a discarding stop of the arm. -/
  | abort (c : Chan) (k : Fin 8)
  /-- PLAY (R58): PRF_ACTL.PLAY runs a stored table from its first segment. -/
  | play (c : Chan) (k : Fin 8) (t : Fin 32)
  /-- JOINT_GO (R46): PRF_JCTL.GO starts a PTP move, takes a VEL target or engages a gear. -/
  | jointGo (c : Chan) (j : Fin 64)
  /-- JOINT_STOP (R67): PRF_JCTL.STOP decelerates the joint to standstill and disengages a gear. -/
  | jointStop (c : Chan) (j : Fin 64)
  /-- ARM (R66): PRF_JCTL.ARM arms a gear ratio change from the armed registers. -/
  | arm (c : Chan) (j : Fin 64)
  /-- DISARM (R66): PRF_JCTL.DISARM cancels an armed ratio change that has not applied. -/
  | disarm (c : Chan) (j : Fin 64)
  /-- SEGMENT_APPEND (R54): A write of PRF_SAPP validates the newly appended segments and accepts or rejects the count. -/
  | segmentAppend (c : Chan) (k : Fin 8) (cnt : Word)
  /-- RAMP_PARAMETER_WRITE (R50): A write of PRF_JVMAX, JACC, JDEC or JJERK during motion applies at once or waits for the next ramp. -/
  | rampParameterWrite (c : Chan) (j : Fin 64) (which : RampParam) (v : Word)
  /-- COMPARE_ARM (R70): A write of CMP_POS_HI arms the compare unit, setting BEHIND or firing at once under PASSED. -/
  | compareArm (c : Chan) (n : Fin 16) (hi : Word)
  /-- TABLE_RELEASE (R86): At an entry's OFS instant the scheduler releases the release-table entries of that row into their queues. -/
  | tableRelease (c : Chan)
  /-- RELEASE_RESUME (R90): A stalled entry pointer resumes releasing, late, once its queue has space. -/
  | releaseResume (c : Chan)
  /-- TASK_DISPATCH (R88): A waiting requester is granted the oldest eligible task of its highest allowed queue and the window is mapped. -/
  | taskDispatch (c : Chan) (n : Fin 8)
  /-- TASK_DEADLINE (R91): A task still queued or running at its deadline is aborted and commits nothing. -/
  | taskDeadline (c : Chan)
  /-- TASK_CYCLE_LIMIT (R125): A task reaching CLIM × 8 cycles without DONE is aborted. -/
  | taskCycleLimit (c : Chan) (n : Fin 8)
  /-- ENGINE_RESTART (R95): LPE_CTL.RESTART returns a halted engine to ASK. -/
  | engineRestart (c : Chan) (n : Fin 8)
  /-- CLRMAX (R91): LPE_CTL.CLRMAX clears LPE_CYC.MAX. -/
  | clrmax (c : Chan) (n : Fin 8)
  /-- ENGINE_ENABLE_WRITE (R95): A write of LPE_CFG.EN = 0 lets the running task finish and halts the engine at its next ASK. -/
  | engineEnableWrite (c : Chan) (n : Fin 8) (v : Word)
  /-- ILLEGAL_INSTRUCTION (R126): An undefined or malformed instruction halts the engine with FLT = 0x1. -/
  | illegalInstruction (c : Chan) (n : Fin 8) (w : Word)
  /-- NOP (R118): No operation. -/
  | leNop (c : Chan) (n : Fin 8)
  /-- BR (R118): Conditional branch to a target. -/
  | leBr (c : Chan) (n : Fin 8) (cond : BitVec 4) (t : BitVec 16)
  /-- CALL (R118): Conditional call pushing the return address. -/
  | leCall (c : Chan) (n : Fin 8) (cond : BitVec 4) (t : BitVec 16)
  /-- RET (R118): Conditional return popping the return stack. -/
  | leRet (c : Chan) (n : Fin 8) (cond : BitVec 4)
  /-- REP (R123): Block repeat with an immediate count. -/
  | leRep (c : Chan) (n : Fin 8) (lc : Fin 3) (count : BitVec 12) (len : BitVec 10)
  /-- REPR (R123): Block repeat with a count from a data register. -/
  | leRepr (c : Chan) (n : Fin 8) (lc : Fin 3) (x : Fin 8) (len : BitVec 10)
  /-- ASK (R125): The dispatch loop waits for a task grant. -/
  | leAsk (c : Chan) (n : Fin 8)
  /-- DONE (R125): Commits the task and returns the engine to ASK. -/
  | leDone (c : Chan) (n : Fin 8)
  /-- LDI (R118): Loads an immediate into a data register. -/
  | leLdi (c : Chan) (n : Fin 8) (z : Fin 8) (imm : Half)
  /-- LDP (R118): Loads an immediate into a pointer or modifier. -/
  | leLdp (c : Chan) (n : Fin 8) (t : Fin 8) (imm : Half)
  /-- LD_DIRECT (R118): Loads a data register from a direct data address. -/
  | leLdDirect (c : Chan) (n : Fin 8) (z : Fin 8) (a : Ptr)
  /-- ST_DIRECT (R118): Stores a data register at a direct data address. -/
  | leStDirect (c : Chan) (n : Fin 8) (x : Fin 8) (a : Ptr)
  /-- LD_POINTER (R118): Loads a data register through a pointer with modification. -/
  | leLdPointer (c : Chan) (n : Fin 8) (z : Fin 8) (p : PtrOp)
  /-- ST_POINTER (R118): Stores a data register through a pointer with modification. -/
  | leStPointer (c : Chan) (n : Fin 8) (x : Fin 8) (p : PtrOp)
  /-- LD2 (R118): Loads two data registers through two pointers. -/
  | leLd2 (c : Chan) (n : Fin 8) (z : Fin 8) (y : Fin 8) (p : PtrOp) (q : PtrOp)
  /-- MOV (R119): Moves between registers named by 5-bit numbers. -/
  | leMov (c : Chan) (n : Fin 8) (dst : BitVec 5) (src : BitVec 5)
  /-- LDA (R118): Loads an accumulator from two words. -/
  | leLda (c : Chan) (n : Fin 8) (a : AccSel) (p : PtrOp)
  /-- STA (R118): Stores an accumulator's low 32 bits into two words. -/
  | leSta (c : Chan) (n : Fin 8) (sat : Bool) (a : AccSel) (p : PtrOp)
  /-- RND (R114): Rounds and shifts an accumulator into a data register. -/
  | leRnd (c : Chan) (n : Fin 8) (sat : Bool) (z : Fin 8) (a : AccSel) (sh : BitVec 5)
  /-- MPY (R118): Multiplies two data registers into an accumulator. -/
  | leMpy (c : Chan) (n : Fin 8) (sat : Bool) (a : AccSel) (x : Fin 8) (y : Fin 8)
  /-- MAC (R118): Multiply-accumulates two data registers. -/
  | leMac (c : Chan) (n : Fin 8) (sat : Bool) (a : AccSel) (x : Fin 8) (y : Fin 8)
  /-- MSU (R118): Multiply-subtracts two data registers. -/
  | leMsu (c : Chan) (n : Fin 8) (sat : Bool) (a : AccSel) (x : Fin 8) (y : Fin 8)
  /-- MPYM (R118): Multiplies two memory words into an accumulator. -/
  | leMpym (c : Chan) (n : Fin 8) (sat : Bool) (a : AccSel) (p : PtrOp) (q : PtrOp)
  /-- MACM (R118): Multiply-accumulates two memory words. -/
  | leMacm (c : Chan) (n : Fin 8) (sat : Bool) (a : AccSel) (p : PtrOp) (q : PtrOp)
  /-- MACX (R118): Multiply-accumulates a data register and a memory word. -/
  | leMacx (c : Chan) (n : Fin 8) (sat : Bool) (a : AccSel) (x : Fin 8) (p : PtrOp)
  /-- LDAC (R118): Loads a shifted data register into an accumulator. -/
  | leLdac (c : Chan) (n : Fin 8) (sat : Bool) (a : AccSel) (x : Fin 8) (sh : BitVec 5)
  /-- ADDA (R118): Adds a shifted data register to an accumulator. -/
  | leAdda (c : Chan) (n : Fin 8) (sat : Bool) (a : AccSel) (x : Fin 8) (sh : BitVec 5)
  /-- SUBA (R118): Subtracts a shifted data register from an accumulator. -/
  | leSuba (c : Chan) (n : Fin 8) (sat : Bool) (a : AccSel) (x : Fin 8) (sh : BitVec 5)
  /-- ACC_CLR (R118): ACC operation CLR clears an accumulator. -/
  | leAccClr (c : Chan) (n : Fin 8) (sat : Bool) (a : AccSel)
  /-- ACC_MOV (R118): ACC operation MOV copies the other accumulator. -/
  | leAccMov (c : Chan) (n : Fin 8) (sat : Bool) (a : AccSel)
  /-- ACC_ADD (R118): ACC operation ADD adds the other accumulator. -/
  | leAccAdd (c : Chan) (n : Fin 8) (sat : Bool) (a : AccSel)
  /-- ACC_SUB (R118): ACC operation SUB subtracts the other accumulator. -/
  | leAccSub (c : Chan) (n : Fin 8) (sat : Bool) (a : AccSel)
  /-- ACC_NEG (R118): ACC operation NEG negates an accumulator. -/
  | leAccNeg (c : Chan) (n : Fin 8) (sat : Bool) (a : AccSel)
  /-- ACC_ABS (R118): ACC operation ABS takes an accumulator's magnitude. -/
  | leAccAbs (c : Chan) (n : Fin 8) (sat : Bool) (a : AccSel)
  /-- ASH (R118): Shifts an accumulator left or arithmetically right. -/
  | leAsh (c : Chan) (n : Fin 8) (sat : Bool) (a : AccSel) (sh : BitVec 6)
  /-- ADD (R118): Adds two data registers. -/
  | leAdd (c : Chan) (n : Fin 8) (sat : Bool) (z : Fin 8) (x : Fin 8) (y : Fin 8)
  /-- SUB (R118): Subtracts two data registers. -/
  | leSub (c : Chan) (n : Fin 8) (sat : Bool) (z : Fin 8) (x : Fin 8) (y : Fin 8)
  /-- ADDI (R118): Adds a signed immediate to a data register. -/
  | leAddi (c : Chan) (n : Fin 8) (sat : Bool) (z : Fin 8) (x : Fin 8) (imm : BitVec 12)
  /-- AND (R118): Bitwise AND of two data registers. -/
  | leAnd (c : Chan) (n : Fin 8) (z : Fin 8) (x : Fin 8) (y : Fin 8)
  /-- OR (R118): Bitwise OR of two data registers. -/
  | leOr (c : Chan) (n : Fin 8) (z : Fin 8) (x : Fin 8) (y : Fin 8)
  /-- SHL (R118): Shifts a data register left. -/
  | leShl (c : Chan) (n : Fin 8) (sat : Bool) (z : Fin 8) (x : Fin 8) (sh : BitVec 4)
  /-- ASR (R118): Arithmetic right shift of a data register. -/
  | leAsr (c : Chan) (n : Fin 8) (z : Fin 8) (x : Fin 8) (sh : BitVec 4)
  /-- NEG (R118): Negates a data register. -/
  | leNeg (c : Chan) (n : Fin 8) (sat : Bool) (z : Fin 8) (x : Fin 8)
  /-- ABS (R118): Takes a data register's magnitude. -/
  | leAbs (c : Chan) (n : Fin 8) (sat : Bool) (z : Fin 8) (x : Fin 8)
  /-- MIN (R118): Signed minimum of two data registers. -/
  | leMin (c : Chan) (n : Fin 8) (z : Fin 8) (x : Fin 8) (y : Fin 8)
  /-- MAX (R118): Signed maximum of two data registers. -/
  | leMax (c : Chan) (n : Fin 8) (z : Fin 8) (x : Fin 8) (y : Fin 8)
  /-- CLMP (R118): Clamps a data register symmetrically. -/
  | leClmp (c : Chan) (n : Fin 8) (z : Fin 8) (x : Fin 8) (y : Fin 8)
  /-- CMP (R118): Compares two data registers and sets flags. -/
  | leCmp (c : Chan) (n : Fin 8) (x : Fin 8) (y : Fin 8)
  /-- BTST (R118): Tests one bit of a data register. -/
  | leBtst (c : Chan) (n : Fin 8) (x : Fin 8) (bit : BitVec 4)
  /-- MULD (R114): Multiplies, rounds and shifts into a data register. -/
  | leMuld (c : Chan) (n : Fin 8) (sat : Bool) (z : Fin 8) (x : Fin 8) (y : Fin 8) (sh : BitVec 5)
  /-- DIV (R122): Divides an accumulator by a data register. -/
  | leDiv (c : Chan) (n : Fin 8) (sat : Bool) (z : Fin 8) (a : AccSel) (y : Fin 8)
  /-- SQRT (R122): Square root of an accumulator. -/
  | leSqrt (c : Chan) (n : Fin 8) (sat : Bool) (z : Fin 8) (a : AccSel)
  /-- TRIG (R120): Computes cosine and sine of an angle. -/
  | leTrig (c : Chan) (n : Fin 8) (z : Fin 8) (x : Fin 8)
  /-- MINX (R121): Block minimum with index. -/
  | leMinx (c : Chan) (n : Fin 8) (z : Fin 8) (x : Fin 8) (p : PtrOp)
  /-- MAXX (R121): Block maximum with index. -/
  | leMaxx (c : Chan) (n : Fin 8) (z : Fin 8) (x : Fin 8) (p : PtrOp)
  /-- CMOV (R118): Conditional register move. -/
  | leCmov (c : Chan) (n : Fin 8) (cond : BitVec 4) (z : Fin 8) (x : Fin 8)
  /-- PWM_RELOAD (R136): At a reload boundary the shadow set is copied into the active set. -/
  | pwmReload (c : Chan) (u : Fin 16)
  /-- PWM_EDGE (R133): A commanded on-edge or off-edge of a phase is reached and the gates switch with dead time. -/
  | pwmEdge (c : Chan) (u : Fin 16) (ph : Fin 3) (on : Bool)
  /-- LOADALL (R138): PWM_LOADALL marks the selected open-mode units pending for transfer at their next reload. -/
  | loadall (c : Chan) (units : BitVec 16)
  /-- TRIP (R142): A filtered trip input turns the unit's gates off, latches TRIP and raises a fault. -/
  | trip (c : Chan) (u : Fin 16)
  /-- TRIP_INPUT_RELEASE (R142): The filtered trip input returns inactive after FLT ticks. -/
  | tripInputRelease (c : Chan) (u : Fin 16)
  /-- TRIPCLR (R143): PWM_TRIPCLR clears the trip if the input is inactive, else sets CLRREF. -/
  | tripclr (c : Chan) (u : Fin 16)
  /-- PWM_ENABLE_WRITE (R141): A write of PWM_CTL.EN turns the unit on or off, raising F2 when a loop-mode joint has torque on. -/
  | pwmEnableWrite (c : Chan) (u : Fin 16) (v : Word)
  /-- SIGMA_DELTA_SAMPLE_READY (R144): The sinc3 filter outputs a calibrated current or DC-link sample after the valley. -/
  | sigmaDeltaSampleReady (c : Chan) (src : SdInput) (x : BitVec 16)
  /-- SIGMA_DELTA_INPUT_INVALID (R145): A data input without a transition for 64 modulator clocks becomes invalid. -/
  | sigmaDeltaInputInvalid (c : Chan) (src : SdInput)
  /-- OWN_SLOT_START (R306): At its own exclusive slot start the node builds and sends its frame, or counts the slot empty. -/
  | ownSlotStart (c : Chan) (sidx : Fin 256) (busy : Bool)
  /-- OWN_FRAME_DEFERRED_SEND (R306): An own frame waiting for a busy output is sent if it can begin within 64 ns, else dropped. -/
  | ownFrameDeferredSend (c : Chan) (ok : Bool)
  /-- BRICK_TRIP_CLEAR (R147): A write of BRK_ETCLR sets TRIPCLR in one edge record of each named joint. -/
  | brickTripClear (c : Chan) (mask : BitVec 64)
  /-- MICROSTEP_EMIT (R158): The indexer emits a microstep towards STP_CMD and counts it in STP_EMIT. -/
  | microstepEmit (c : Chan) (n : Fin 8)
  /-- COIL_THRESHOLD_REACHED (R157): The comparator reports the coil threshold and the off phase starts. -/
  | coilThresholdReached (c : Chan) (n : Fin 8) (coil : Coil)
  /-- COIL_OFF_END (R157): The off time ends and drive starts again. -/
  | coilOffEnd (c : Chan) (n : Fin 8) (coil : Coil)
  /-- COIL_NO_TRIP (R157): A coil driven 64 µs without reaching its threshold goes off with NOTRIP and F1. -/
  | coilNoTrip (c : Chan) (n : Fin 8) (coil : Coil)
  /-- HOLD_DELAY_EXPIRY (R156): After HDLY basic cycles without a microstep the REF duty changes to HOLD. -/
  | holdDelayExpiry (c : Chan) (n : Fin 8)
  /-- ENCODER_EDGE (R173): An accepted A or B edge changes the quadrature count. -/
  | encoderEdge (c : Chan) (p : Fin 24) (a : Bool) (b : Bool)
  /-- INDEX (R174): A rising index edge sets the reference or is checked against it. -/
  | index (c : Chan) (p : Fin 24)
  /-- IDXARM (R174): ENC_CTL.IDXARM makes the next index the reference. -/
  | idxarm (c : Chan) (p : Fin 24)
  /-- CLRERR (R180): ENC_CTL.CLRERR clears ENC_ERRCNT. -/
  | clrerr (c : Chan) (p : Fin 24)
  /-- SERIAL_LATCH (R176): At the latch instant the serial clock falls and a frame begins. -/
  | serialLatch (c : Chan) (p : Fin 24) (lineHigh : Bool)
  /-- SERIAL_SAMPLE_READY (R179): A decoded serial sample is ready and updates the count. -/
  | serialSampleReady (c : Chan) (p : Fin 24) (word : BitVec 64) (islandOk : Bool)
  /-- START_TIMEOUT (R176): No start bit within WTMO clock periods fails the frame. -/
  | startTimeout (c : Chan) (p : Fin 24)
  /-- MONOFLOP_TIMEOUT (R180): The data line not high within MONO after the last bit fails the sample. -/
  | monoflopTimeout (c : Chan) (p : Fin 24)
  /-- DPO_EDGE_EMIT (R188): A pending quadrature edge is emitted after MINSP spacing. -/
  | dpoEdgeEmit (c : Chan) (m : Fin 4)
  /-- DPO_RATIO_WRITE (R188): Enabling the output or writing its ratio restarts the interval with rem = 0. -/
  | dpoRatioWrite (c : Chan) (m : Fin 4) (which : DpoParam) (v : Word)
  /-- SAFETY_POSITION_EVALUATION (R186): At 0 ns of each servo cycle the island forms each safety position and compares it with the control position. -/
  | safetyPositionEvaluation (c : Chan)
  /-- HPROD_WRITE (R207): A write of SLV_HPROD submits descriptors or is refused. -/
  | hprodWrite (c : Chan) (v : Word)
  /-- HABORT (R214): SLV_CTL.HABORT ends the running host problem and reports every queued and untaken problem NOT_RUN. -/
  | habort (c : Chan)
  /-- DESCRIPTOR_TAKE (R207): The solver takes the descriptor at SLV_HCONS, validates it and marks its problems pending. -/
  | descriptorTake (c : Chan)
  /-- PROBLEM_RELEASE (R207): Host problems are released into Q3 as space allows; HCONS advances after the last. -/
  | problemRelease (c : Chan)
  /-- SOLVER_DISPATCH (R209): The solver starts a problem after the deadline, cost and input checks. -/
  | solverDispatch (c : Chan)
  /-- SOLVER_DEADLINE (R209): A host problem's deadline passed at a step ends it as DEADLINE or DEADLINE_ITERATE. -/
  | solverDeadline (c : Chan)
  /-- PROBLEM_COMPLETE (R209): A host problem ends, writes its staged result and final status. -/
  | problemComplete (c : Chan)
  /-- MODEL_TASK_COMPLETE (R203): A model task commits M, g and poses for its arm. -/
  | modelTaskComplete (c : Chan)
  /-- HALF_RATE_REST_END (R213): The Q3 pause after a host problem under HALF ends. -/
  | halfRateRestEnd (c : Chan)
  /-- SEPARATION_EVALUATION (R234): At 0 ns of each servo cycle the X path latches inputs and evaluates parisons and margins. -/
  | separationEvaluation (c : Chan)
  /-- EVALUATION_COMMIT (R234): The X path commits SSM, faults, snapshot and capsule record. -/
  | evaluationCommit (c : Chan)
  /-- X_PATH_OVERRUN (R236): An evaluation not committed by 48,000 ns raises F3 0x0907. -/
  | xPathOverrun (c : Chan)
  /-- Y_PATH_CHECK (R238): The Y path finishes its witness, recomputation and decision checks of an evaluation. -/
  | yPathCheck (c : Chan) (flags : BitVec 4)
  /-- TOKEN_REQUEST (R246): ZTK_ACMD REQUEST sends a REQUEST record for an arm and zone. -/
  | tokenRequest (c : Chan) (k : Fin 8) (z : Fin 64)
  /-- KEEP (R246): ZTK_ACMD KEEP holds the arm's tokens against requests. -/
  | keep (c : Chan) (k : Fin 8) (z : Fin 64)
  /-- UNKEEP (R246): ZTK_ACMD UNKEEP ends KEEP. -/
  | unkeep (c : Chan) (k : Fin 8) (z : Fin 64)
  /-- CANCEL (R245): ZTK_ACMD CANCEL withdraws a request before GRANT. -/
  | cancel (c : Chan) (k : Fin 8) (z : Fin 64)
  /-- TOKEN_RETRY (R245): Each matrix cycle an unanswered REQUEST or ACCEPT is repeated. -/
  | tokenRetry (c : Chan)
  /-- TRANSIT_TIMEOUT (R245): A transit older than TMO matrix cycles shows FROZEN and raises F1. -/
  | transitTimeout (c : Chan) (z : Fin 64)
  /-- HOLDER_LOST (R247): A holder silent for LOSTT matrix cycles makes its zone LOST. -/
  | holderLost (c : Chan) (z : Fin 64)
  /-- LEDGER_SEND (R247): Once per matrix cycle a LEDGER record is sent for each held zone. -/
  | ledgerSend (c : Chan)
  /-- PROVISIONAL_END (R247): After two matrix cycles the provisional ledger is confirmed. -/
  | provisionalEnd (c : Chan)
  /-- TOKEN_RECOVERY (R250): A ZTK_RECOV write checks the conditions and starts sending RECOVER or records the refusal. -/
  | tokenRecovery (c : Chan) (v : Word)
  /-- RECOVER_REPEAT (R250): RECOVER is sent again in the next successive basic cycles, three times in all. -/
  | recoverRepeat (c : Chan)
  /-- SAFETY_TICK (R256): Both safety paths evaluate blocks, matrix, groups and outputs from the inputs of the tick. -/
  | safetyTick (c : Chan) (xyDiff : Bool) (clkBad : Bool)
  /-- SI_LEVEL_ACCEPTED (R260): A safety input's new level is accepted after FLT × 10 µs of consistent samples. -/
  | siLevelAccepted (c : Chan) (n : Fin 20) (lvl : Bool)
  /-- TEST_PULSE (R261): A test-pulse output begins its low pulse in its period. -/
  | testPulse (c : Chan) (t : Fin 4)
  /-- TEST_PULSE_SAMPLE (R261): In the last 10 µs of a pulse the tested inputs are sampled and a 1 raises F3 0x0A02. -/
  | testPulseSample (c : Chan) (t : Fin 4) (highs : BitVec 20)
  /-- DISCREPANCY_TIMEOUT (R264): Channels disagreeing for T0 raise F3 0x0A01. -/
  | discrepancyTimeout (c : Chan) (f : Fin 16)
  /-- CONTACT_DISCREPANCY (R265): A hand in neither state for T1 raises F3 0x0A01. -/
  | contactDiscrepancy (c : Chan) (f : Fin 16) (hand : Fin 2)
  /-- RESET_WINDOW_EXPIRY (R266): RSTQ clears after RSTWIN seconds unused. -/
  | resetWindowExpiry (c : Chan)
  /-- SS1_TIMEOUT (R270): SS1T after the demand de-energises the group. -/
  | ss1Timeout (c : Chan) (g : Fin 4)
  /-- OUTPUT_READBACK (R275): Each half-period the STO and safe-output lines are read back against their commanded level. -/
  | outputReadback (c : Chan) (levels : BitVec 12)
  /-- PLANT_DATAGRAM (R285): A UDP datagram of safety containers arrives on the plant port. -/
  | plantDatagram (c : Chan) (bytes : List Byte)
  /-- CONNECTION_WATCHDOG_EXPIRY (R282): A consumer connection without acceptance for SCX_WD is lost and its payload forced to 0. -/
  | connectionWatchdogExpiry (c : Chan) (n : Fin 128)
  /-- PORT_BLOCK_LOCK (R314): A Cell Bus port reaches PCS block lock. -/
  | portBlockLock (c : Chan) (port : Fin 2)
  /-- PORT_LOCK_LOSS (R318): A port loses block lock while integrated and raises F1 0x0B03. -/
  | portLockLoss (c : Chan) (port : Fin 2)
  /-- EXCLUSIVE_FRAME (R302): An exclusive frame is checked, forwarded and its records taken. -/
  | exclusiveFrame (c : Chan) (port : Fin 2) (macOk : Bool) (bytes : List Byte) (sfd : Nat)
  /-- ARBITRATING_FRAME (R311): An arbitrating frame is checked, forwarded and its records taken. -/
  | arbitratingFrame (c : Chan) (port : Fin 2) (macOk : Bool) (bytes : List Byte) (sfd : Nat)
  /-- STARTUP_FRAME (R314): A startup frame is taken for time acquisition or rivalry. -/
  | startupFrame (c : Chan) (port : Fin 2) (macOk : Bool) (bytes : List Byte) (sfd : Nat)
  /-- DELAY_REQUEST (R313): A hop-local delay request is answered at once with a delay response. -/
  | delayRequest (c : Chan) (port : Fin 2) (macOk : Bool) (bytes : List Byte) (sfd : Nat)
  /-- DELAY_RESPONSE (R313): A delay response gives t2 and t3 for the link delay. -/
  | delayResponse (c : Chan) (port : Fin 2) (macOk : Bool) (bytes : List Byte) (sfd : Nat)
  /-- DELAY_MEASUREMENT_SEND (R313): At 15,360 ns of rows with b = 15 the node sends a delay request on each port. -/
  | delayMeasurementSend (c : Chan)
  /-- MINISLOT_START (R311): At an owned minislot start the node starts an arbitrating frame. -/
  | minislotStart (c : Chan) (m : Fin 34) (busy : Bool)
  /-- ARBITRATING_DEFERRED_SEND (R311): A waiting arbitrating frame starts when the output frees before 15,040 ns. -/
  | arbitratingDeferredSend (c : Chan)
  /-- ACCEPTANCE_WINDOW_CLOSE (R307): At the close of a slot's window a slot without a frame is counted empty and its records absent. -/
  | acceptanceWindowClose (c : Chan) (sidx : Fin 256)
  /-- AUDIT_SNAPSHOT (R312): At 15,840 ns of b = 15 the pair counts are snapshot for the next STATUS. -/
  | auditSnapshot (c : Chan)
  /-- OFFSET_STEP (R315): At 15,520 ns the node steps its cell time by its measured offset. -/
  | offsetStep (c : Chan)
  /-- REINT (R310): CBUS_CTL.REINT mutes and reintegrates the channel. -/
  | reint (c : Chan)
  /-- CLRCNT (R307): CBUS_CTL.CLRCNT clears CBUS_NSTATn and per-slot empty counts. -/
  | clrcnt (c : Chan)
  /-- RING_OPEN_CHECK (R298): At each matrix cycle end own-frame returns on both ports decide RINGOPEN. -/
  | ringOpenCheck (c : Chan)
  /-- LISTEN_END (R314): Two silent matrix cycles of listening end and a cold-start node prepares its startup frame. -/
  | listenEnd (c : Chan)
  /-- STARTUP_SEND (R314): A cold-start node sends its startup frame r × 2 µs after listening. -/
  | startupSend (c : Chan)
  /-- STARTUP_RIVAL_WAIT (R314): 12 µs after its startup frame the node becomes leader or abandons. -/
  | startupRivalWait (c : Chan)
  /-- COLD_START_RETRY (R314): After 256 µs + r × 16 µs an abandoned cold-start node retries. -/
  | coldStartRetry (c : Chan)
  /-- REFERENCE_SILENT (R316): No reference SYNC in two basic cycles makes the lowest-rank cold-start node reference. -/
  | referenceSilent (c : Chan)
  /-- NO_REFERENCE (R316): No cold-start node for 16 basic cycles mutes every node and raises F2 0x0B05. -/
  | noReference (c : Chan)
  /-- HOSTRELAY_SEND (R311): CBUS_HRCTL.SEND sends the TX buffer as a HOSTRELAY record when a credit and minislot allow. -/
  | hostrelaySend (c : Chan) (v : Word)
  /-- RXFULL_CLEAR (R311): Clearing CBUS_HRSTS.RXFULL consumes the record and returns its credit. -/
  | rxfullClear (c : Chan)
  /-- SYNC (R324): A PTP Sync message is time-stamped for a plant domain. -/
  | sync (c : Chan) (n : Fin 2) (m : SyncMsg)
  /-- FOLLOW_UP (R324): A PTP Follow_Up supplies the origin time of a two-step Sync. -/
  | followUp (c : Chan) (n : Fin 2) (m : FollowUpMsg)
  /-- ANNOUNCE (R323): A PTP Announce feeds best master selection. -/
  | announce (c : Chan) (n : Fin 2) (m : AnnounceMsg)
  /-- DELAY_REQ (R323): The plant instance sends a Delay_Req. -/
  | delayReq (c : Chan) (n : Fin 2)
  /-- DELAY_RESP (R324): A Delay_Resp gives meanPathDelay and offsetFromMaster and the servo corrects the domain. -/
  | delayResp (c : Chan) (n : Fin 2) (m : DelayRespMsg)
  /-- ANNOUNCE_RECEIPT_TIMEOUT (R324): No Sync for announceReceiptTimeout clears LOCK and raises F1 0x0C01. -/
  | announceReceiptTimeout (c : Chan) (n : Fin 2)
  /-- PNINC_WRITE (R321): A write of TIM_PnINC sets the increment or is discarded. -/
  | pnincWrite (c : Chan) (n : Fin 2) (v : Word)
  /-- PNSTEP_WRITE (R321): A write of TIM_PnSTEP steps the plant domain. -/
  | pnstepWrite (c : Chan) (n : Fin 2) (v : Word)
  /-- PSEL_WRITE (R322): A write of TIM_PSEL changes the selected plant domain. -/
  | pselWrite (c : Chan) (v : Word)
  /-- SNAP (R326): TIM_CTL.SNAP latches all four domains. -/
  | snap (c : Chan)
  /-- EVTGT_HI_WRITE (R328): A write of TIM_EVTGTn_HI arms a one-shot or periodic unit. -/
  | evtgtHiWrite (c : Chan) (n : Fin 8) (v : Word)
  /-- EVPER_WRITE (R328): A write of TIM_EVPERn sets the period or is discarded. -/
  | evperWrite (c : Chan) (n : Fin 8) (v : Word)
  /-- EVDLY_WRITE (R330): A write of TIM_EVDLYn sets the trigger delay or is discarded with RANGE. -/
  | evdlyWrite (c : Chan) (n : Fin 8) (v : Word)
  /-- TIME_EVENT_FIRE (R329): An armed time-event unit reaches its target and fires. -/
  | timeEventFire (c : Chan) (n : Fin 8)
  /-- TEV_PULSE_END (R329): After (PW + 1) µs the time-event pin returns high. -/
  | tevPulseEnd (c : Chan) (n : Fin 8)
  /-- CHECKPOINT_SNAPSHOT (R341): At 1,600 ns of b = 0 the acting unit takes a checkpoint snapshot. -/
  | checkpointSnapshot (c : Chan)
  /-- PARTNER_SILENT (R345): Two basic cycles without the acting unit's SYNC make the standby declare it silent. -/
  | partnerSilent (c : Chan)
  /-- YIELD (R348): RED_CMD YIELD hands the cell channel to the partner at cycle Y. -/
  | yield (c : Chan) (key : BitVec 16)
  /-- DRILL (R351): RED_CMD DRILL runs a yield and return and records its result. -/
  | drill (c : Chan) (key : BitVec 16)
  /-- YIELD_INSTANT (R348): At cycle Y the yielding unit sends claim 0 and takes an L1 reset. -/
  | yieldInstant (c : Chan)
  /-- RETURN_CLAIM (R349): A returning primary with two staged checkpoints sends with its claim from row 1. -/
  | returnClaim (c : Chan)
  /-- DRILL_OVERDUE (R351): RED_DAGE passing RED_DMAX records F0 0x0D08. -/
  | drillOverdue (c : Chan)
  /-- FUNCTION_LEVEL_RESET (R356): A PCI Express FLR resets the function's configuration space only. -/
  | functionLevelReset (c : Chan)
  /-- D3HOT_ENTRY (R356): Entry into D3hot makes BAR requests Unsupported Request. -/
  | d3hotEntry (c : Chan)
  /-- LINK_DOWN (R356): Host link loss leaves both channels unchanged. -/
  | linkDown
  /-- HOT_RESET (R356): A hot reset resets the endpoint only. -/
  | hotReset
  /-- PERST (R406): PERST_N resets the endpoint and is taken at its fuse-table level. -/
  | perst
  /-- REGISTER_WRITE (R8): A host write to a register without its own row applies per its access types. -/
  | registerWrite (c : Chan) (path : Path) (ofs : BitVec 20) (v : Word) (be : BitVec 4)
  /-- BAR2_WRITE (R363): A host write to a BAR2 window is applied or discarded with HOST_ERR.ROW. -/
  | bar2Write (c : Chan) (path : Path) (ofs : BitVec 26) (bytes : List Byte)
  /-- LOW_WORD_READ (R10): A read of a 64-bit low word loads and arms the high-word latch. -/
  | lowWordRead (c : Chan) (path : Path) (ofs : BitVec 20)
  /-- HIGH_WORD_READ (R10): A read of a high word returns the latched value and disarms, or the live word. -/
  | highWordRead (c : Chan) (path : Path) (ofs : BitVec 20)
  /-- SPI_READ (R359): SPI READ returns words from the address onwards. -/
  | spiRead (addr : BitVec 24) (n : Nat)
  /-- SPI_QREAD (R359): SPI QREAD returns words on four lines. -/
  | spiQread (addr : BitVec 24) (n : Nat)
  /-- SPI_WRITE (R360): SPI WRITE writes words from the address onwards. -/
  | spiWrite (addr : BitVec 24) (words : List Word)
  /-- SPI_QWRITE (R360): SPI QWRITE writes words on four lines. -/
  | spiQwrite (addr : BitVec 24) (words : List Word)
  /-- SPI_STATUS (R361): SPI STATUS returns the status byte. -/
  | spiStatus
  /-- SPI_CS_RISE (R360): SPI_CS_N rising ends the transaction, discarding a partial word. -/
  | spiCsRise (partialWord : Bool)
  /-- HOST_RESET_COMMAND (R406): HOST_RST with REQ and key takes reset source 3. -/
  | hostResetCommand (c : Chan) (key : BitVec 16)
  /-- EVPEND_CLEAR (R367): Writing 1 to a HOST_EVPEND bit re-arms the event for MSI-X. -/
  | evpendClear (c : Chan) (v : BitVec 64)
  /-- HELD_RECORD_WRITE (R371): A held record is written once free space allows. -/
  | heldRecordWrite (c : Chan)
  /-- TRACE_DATA_READ (R373): A read of TRC_DATA_LO removes the word at RP and latches its high half. -/
  | traceDataRead (c : Chan) (path : Path)
  /-- FLUSH (R372): TRC_FLUSH commits the staging word or waits for a record's end. -/
  | flush (c : Chan) (inRecord : Bool)
  /-- FLUSH_COMPLETE (R372): A waiting flush commits the staging word once the record ends. -/
  | flushComplete (c : Chan)
  /-- DUMP (R370): TRC_DUMP offers a dump record of a register block. -/
  | dump (c : Chan) (blk : BitVec 8)
  /-- MATRIX_CYCLE_STATISTICS (R370): Once per matrix cycle scheduler and Cell Bus snapshot records are offered. -/
  | matrixCycleStatistics (c : Chan)
  /-- CFG_WRITE (R391): CFG_CMD WRITE checks the staged image and starts writing the other slot. -/
  | cfgWrite (c : Chan) (key : BitVec 16)
  /-- CFG_WRITE_DONE (R391): The slot write ends with its read-back SHA check and RES. -/
  | cfgWriteDone (c : Chan) (ok : Bool)
  /-- CFG_INVALIDATE (R393): CFG_CMD INVALIDATE erases the chosen slot's start if the other is valid. -/
  | cfgInvalidate (c : Chan) (key : BitVec 16)
  /-- BIND_WRITE (R396): A write of CFG_BIND arms the re-binding or, with RSTQ, writes the re-bound copy. -/
  | bindWrite (c : Chan) (v : Word)
  /-- BIND_ARM_EXPIRY (R396): BARM clears 10 s after the first CFG_BIND write. -/
  | bindArmExpiry (c : Chan)
  /-- POWER_ON (R409): The power-on monitor releases the device 10 ms after the last rail is in range. -/
  | powerOn
  /-- RAIL_LOSS (R460): VDDSR, VDDH or VDDIO below its threshold for 2 µs is taken as power-on at L3. -/
  | railLoss (rail : Rail)
  /-- RESET_PIN (R406): The channel reset pin low for 1 µs is taken at its fuse-table level. -/
  | resetPin (c : Chan)
  /-- SUPERVISOR_WATCHDOG (R406): The supervisor watchdog unserviced for 10 ms is a reset source. -/
  | supervisorWatchdog (c : Chan)
  /-- ISLAND_WATCHDOG (R406): The Y core unserviced for 1 ms is a reset source. -/
  | islandWatchdog (c : Chan)
  /-- PLL_LOSS_OF_LOCK (R402): The PLL leaving lock is a reset source. -/
  | pllLossOfLock (c : Chan)
  /-- REFERENCE_LOSS (R402): A reference out of tolerance or without edges is a reset source. -/
  | referenceLoss (c : Chan)
  /-- CLOCK_RECOVERY (R402): The reference in tolerance for 1 ms and the PLL locked end the clock reset. -/
  | clockRecovery (c : Chan)
  /-- UNCORRECTABLE_SRAM_ERROR (R406): An uncorrectable SRAM or solver memory error is a reset source. -/
  | uncorrectableSramError (c : Chan)
  /-- RESET_REQUEST (R406): CHN_RSTREQ with key takes reset source 9. -/
  | resetRequest (c : Chan) (key : BitVec 16)
  /-- OVER_TEMPERATURE (R437): A sensor at 135 °C or above takes reset source 10 and sets LEHR_OTRIP. -/
  | overTemperature (c : Chan)
  /-- BROWNOUT (R439): VDD below 0.760 V for 2 µs takes reset source 11. -/
  | brownout (c : Chan)
  /-- VDD_DROOP (R439): VDD below 0.776 V for 1 µs withdraws surge and raises F1 0x0E05. -/
  | vddDroop (c : Chan)
  /-- DOMAIN_STABLE (R403): A clock domain stable for 64 cycles releases pending block releases. -/
  | domainStable (c : Chan) (dom : Fin 7)
  /-- TRIM_LOAD_DONE (R413): The double read of the trim array ends and TRIMDONE is set or the load repeats. -/
  | trimLoadDone (c : Chan) (agree : Bool) (crcOk : Bool) (tabOk : Bool)
  /-- COLD_START (R420): After a reset other than L1 the channel runs the cold-start steps. -/
  | coldStart (c : Chan) (bistOk : Bool) (selfTestOk : Bool)
  /-- WARM_START (R420): After an L1 reset the channel runs the warm-start steps from retained state. -/
  | warmStart (c : Chan) (digestsOk : Bool) (selfTestOk : Bool)
  /-- POSITION_ACQUISITION_TIMEOUT (R423): After 100 ms the position step ends with remaining joints invalid. -/
  | positionAcquisitionTimeout (c : Chan)
  /-- START_COMPLETE (R29): The start ends and BOOT passes to the state R29 gives. -/
  | startComplete (c : Chan)
  /-- BLOCK_RESET_ASSERT (R410): CHN_BRST.ASSERT asks a block to go idle and then holds it in reset. -/
  | blockResetAssert (c : Chan) (blk : BitVec 8)
  /-- BLOCK_IDLE (R410): The block reports idle and is put in reset. -/
  | blockIdle (c : Chan)
  /-- BLOCK_IDLE_TIMEOUT (R410): CHN_BRSTTO expires, the block is reset anyway and TMO set. -/
  | blockIdleTimeout (c : Chan)
  /-- BLOCK_RESET_RELEASE (R412): CHN_BRST.RELEASE releases the block once reset and stability are complete. -/
  | blockResetRelease (c : Chan) (blk : BitVec 8)
  /-- FUSE_PROGRAM (R408): RST_FCMD program starts burning the fuse table or is refused. -/
  | fuseProgram (c : Chan) (key : BitVec 16)
  /-- FUSE_PROGRAM_DONE (R408): The fuse burn ends with its read-back. -/
  | fuseProgramDone (c : Chan) (ok : Bool)
  /-- F1_END (R428): An F1 ends at the end of the first matrix cycle without its cause. -/
  | f1End (c : Chan)
  /-- F2_TIMEOUT (R429): An arm not stopped within F2TMO has torque removed and F2TO set. -/
  | f2Timeout (c : Chan) (k : Fin 8)
  /-- FLT_ACK (R431): FLT_ACK clears the named F2 faults when their conditions hold. -/
  | fltAck (c : Chan) (v : Word)
  /-- FLT_QPOP (R433): FLT_QPOP removes the oldest fault record. -/
  | fltQpop (c : Chan) (merged : Bool)
  /-- FLASH_RING_WRITE (R434): A new F2 or F3 record is written to the flash ring within 64 ms. -/
  | flashRingWrite (c : Chan)
  /-- FLASH_RING_REWRITE (R434): One second after its last write an entry with pending merges is rewritten. -/
  | flashRingRewrite (c : Chan)
  /-- SENSOR_CONVERSION (R436): A junction sensor conversion updates Tj and the governor acts. -/
  | sensorConversion (c : Chan) (n : Fin 4) (t : BitVec 12)
  /-- SENSOR_TIMEOUT (R436): A sensor without conversion for 1 ms becomes invalid. -/
  | sensorTimeout (c : Chan) (n : Fin 4)
  /-- SURGE_PERIOD_LIMIT (R438): After 8 s of surge the period ends at the next task end. -/
  | surgePeriodLimit (c : Chan)
  /-- SURGE_REST_END (R438): The rest after a surge period runs out. -/
  | surgeRestEnd (c : Chan)
  /-- UPDATE_START (R446): UPD_CMD START invalidates the installed firmware and begins a transfer. -/
  | updateStart (c : Chan) (key : BitVec 16)
  /-- UPDATE_RESUME (R449): UPD_CMD RESUME restores a transfer from the progress record. -/
  | updateResume (c : Chan) (key : BitVec 16)
  /-- BLOCK (R447): UPD_CMD BLOCK checks a block and starts its programming. -/
  | block (c : Chan) (key : BitVec 16)
  /-- BLOCK_PROGRAM_DONE (R447): A block is programmed and read back and UPD_NEXT advances. -/
  | blockProgramDone (c : Chan) (ok : Bool)
  /-- FINISH (R448): UPD_CMD FINISH verifies, burns the floor, programs the header and restarts. -/
  | finish (c : Chan) (key : BitVec 16)
  /-- UPDATE_ABORT (R450): UPD_CMD ABORT ends the update and erases the progress record. -/
  | updateAbort (c : Chan) (key : BitVec 16)
  /-- CMP_PULSE_END (R72): After (PW + 1) × 128 ns the compare pin A_CMPn_N returns high. -/
  | cmpPulseEnd (c : Chan) (n : Fin 16)
  /-- TEST_PULSE_END (R261): After WID × 10 µs the test-pulse output ends its low pulse and is driven high again. -/
  | testPulseEnd (c : Chan) (t : Fin 4)
  /-- MIXED_DECAY_FAST_END (R157): In mixed decay, after FFRAC ÷ 16 of the off time the coil changes from fast to slow decay. -/
  | mixedDecayFastEnd (c : Chan) (n : Fin 8) (coil : Coil)
  /-- DROOP_END (R439): VDD returns to 0.776 V or above and the droop condition ends, clearing LEHR_STS.DROOP. -/
  | droopEnd (c : Chan)
  /-- RESET_PIN_RELEASE (R476): A channel reset pin is released high, which ends a pin-driving TAP instruction and the reset hold. -/
  | resetPinRelease (c : Chan)
  /-- TAP_INSTRUCTION (R473): An instruction updated into the IEEE 1149.1 TAP is executed, or BYPASS is executed when both reset pins are not held low. -/
  | tapInstruction (op : TapOp)
  /-- LINK_UP (R355): The PCI Express link trains and comes up, setting HOST_LINK.DLUP. -/
  | linkUp (speed : BitVec 4) (width : BitVec 5)
  /-- D0_ENTRY (R356): The function returns from D3hot to D0, and its BAR requests are answered again. -/
  | d0Entry (c : Chan)
  /-- MEMORY_SPACE_ENABLE_WRITE (R356): A configuration write of Memory Space Enable or Bus Master Enable changes whether BAR requests receive Unsupported Request. -/
  | memorySpaceEnableWrite (c : Chan) (mse : Bool) (bme : Bool)
  /-- CFG_INVALIDATE_DONE (R393): The 64 KB erase started by INVALIDATE ends and CFG_STS.BUSY clears. -/
  | cfgInvalidateDone (c : Chan)
  /-- UPDATE_START_DONE (R446): The erase of the progress record and of the installed header sector ends, and UPD_STS.BUSY clears. -/
  | updateStartDone (c : Chan)
  /-- UPDATE_FINISH_DONE (R448): The FINISH sequence of digest, signature, fuse burn and header programming ends, either with RES = 0x1 and the L2 reset or with an error RES. -/
  | updateFinishDone (c : Chan) (sigOk : Bool) (burnOk : Bool) (progOk : Bool)
deriving DecidableEq, Repr

end Sys2Proof
end

