-- ==== Sys2Proof/Decode.lean ====
section
/-!
DEFINITION. The operation table of the spec gives its rows no bits: a command is not a word, and no word spells one.
-/
namespace Sys2Proof

/-- The command that the bits of the table spell: none, since no row of the table has bits. -/
def decodeTableWord (_nbits _w : Nat) : Option Instr := none

end Sys2Proof
end

