-- ==== Sys2Proof/Machine/RegMap.lean ====
section
/-!
DEFINITION. The register map of one channel, row by row as the identity lines and field tables of spec/ give it (R7, R8,
R34). `Reg.<NAME>` is a whole register, `Reg.<NAME>_<FIELD>` one field of it; the arguments are the unit indices of the
identity line, in its order. `rowsOf` lists the rows of one 4 KB block with the masks of their access types.
-/
namespace Sys2Proof.Machine

/-- A field of a register: BAR0 offset, reset value of the whole register, lowest bit, width. -/
structure RF where
  ofs : Nat
  rst : Nat
  lo : Nat
  w : Nat
deriving DecidableEq, Repr

/-- A 64-bit quantity in two registers, low word first (R10). -/
structure RP where
  low : RF
  high : RF
deriving DecidableEq, Repr

/-- A register family of the map: base offset, up to two strides with their counts, reset value, and the masks of its
RW, RWL, W1C and WO bits (R8). Bits in no mask are RO or reserved. -/
structure Row where
  base : Nat
  s1 : Nat
  n1 : Nat
  s2 : Nat
  n2 : Nat
  rst : Nat
  rw : Nat
  rwl : Nat
  w1c : Nat
  wo : Nat
deriving DecidableEq, Repr

/-- Whether a register of the family stands at BAR0 offset `o`. -/
def Row.hits (r : Row) (o : Nat) : Bool :=
  r.base ≤ o && (o - r.base) / r.s1 < r.n1 && (o - r.base) % r.s1 / r.s2 < r.n2
    && (o - r.base) % r.s1 % r.s2 == 0

namespace Reg

/-- CHN_ID (R33, 01_cell_model.md): channel identity and stepping. -/
def CHN_ID : RF := ⟨0x0, 0xa1, 0, 32⟩
def CHN_ID_BCODE : RF := ⟨0x0, 0xa1, 16, 16⟩
def CHN_ID_VAR : RF := ⟨0x0, 0xa1, 9, 1⟩
def CHN_ID_CHAN : RF := ⟨0x0, 0xa1, 8, 1⟩
def CHN_ID_STEP : RF := ⟨0x0, 0xa1, 0, 8⟩
/-- CHN_STATE (R33, 01_cell_model.md): channel state and last transition. -/
def CHN_STATE : RF := ⟨0x4, 0x1, 0, 32⟩
def CHN_STATE_REJC : RF := ⟨0x4, 0x1, 24, 8⟩
def CHN_STATE_CAUSE : RF := ⟨0x4, 0x1, 16, 8⟩
def CHN_STATE_REJ : RF := ⟨0x4, 0x1, 13, 1⟩
def CHN_STATE_BUSY : RF := ⟨0x4, 0x1, 12, 1⟩
def CHN_STATE_PREV : RF := ⟨0x4, 0x1, 8, 4⟩
def CHN_STATE_TARGET : RF := ⟨0x4, 0x1, 4, 4⟩
def CHN_STATE_CODE : RF := ⟨0x4, 0x1, 0, 4⟩
/-- CHN_CMD (R33, 01_cell_model.md): state transition request. -/
def CHN_CMD : RF := ⟨0x8, 0x0, 0, 32⟩
def CHN_CMD_KEY : RF := ⟨0x8, 0x0, 16, 16⟩
def CHN_CMD_CMD : RF := ⟨0x8, 0x0, 0, 4⟩
/-- PRF_ACFG (R78, 02_trajectory.md): arm mode and size. -/
def PRF_ACFG (k : Nat) : RF := ⟨0xc000 + 512 * k, 0x0, 0, 32⟩
def PRF_ACFG_NJ (k : Nat) : RF := ⟨0xc000 + 512 * k, 0x0, 8, 4⟩
def PRF_ACFG_SEG (k : Nat) : RF := ⟨0xc000 + 512 * k, 0x0, 0, 1⟩
/-- PRF_ACTL (R78, 02_trajectory.md): arm commands. -/
def PRF_ACTL (k : Nat) : RF := ⟨0xc018 + 512 * k, 0x0, 0, 32⟩
def PRF_ACTL_TBL (k : Nat) : RF := ⟨0xc018 + 512 * k, 0x0, 8, 5⟩
def PRF_ACTL_PLAY (k : Nat) : RF := ⟨0xc018 + 512 * k, 0x0, 4, 1⟩
def PRF_ACTL_ABORT (k : Nat) : RF := ⟨0xc018 + 512 * k, 0x0, 3, 1⟩
def PRF_ACTL_RESUME (k : Nat) : RF := ⟨0xc018 + 512 * k, 0x0, 2, 1⟩
def PRF_ACTL_HOLD (k : Nat) : RF := ⟨0xc018 + 512 * k, 0x0, 1, 1⟩
def PRF_ACTL_GO (k : Nat) : RF := ⟨0xc018 + 512 * k, 0x0, 0, 1⟩
/-- PRF_ASTS (R78, 02_trajectory.md): arm status. -/
def PRF_ASTS (k : Nat) : RF := ⟨0xc01c + 512 * k, 0x0, 0, 32⟩
def PRF_ASTS_SEGC (k : Nat) : RF := ⟨0xc01c + 512 * k, 0x0, 16, 4⟩
def PRF_ASTS_DONE (k : Nat) : RF := ⟨0xc01c + 512 * k, 0x0, 13, 1⟩
def PRF_ASTS_GOREJ (k : Nat) : RF := ⟨0xc01c + 512 * k, 0x0, 12, 1⟩
def PRF_ASTS_CLAMP (k : Nat) : RF := ⟨0xc01c + 512 * k, 0x0, 11, 1⟩
def PRF_ASTS_APPREJ (k : Nat) : RF := ⟨0xc01c + 512 * k, 0x0, 10, 1⟩
def PRF_ASTS_SEGERR (k : Nat) : RF := ⟨0xc01c + 512 * k, 0x0, 9, 1⟩
def PRF_ASTS_STARVE (k : Nat) : RF := ⟨0xc01c + 512 * k, 0x0, 8, 1⟩
def PRF_ASTS_SEGMODE (k : Nat) : RF := ⟨0xc01c + 512 * k, 0x0, 3, 1⟩
def PRF_ASTS_ASTATE (k : Nat) : RF := ⟨0xc01c + 512 * k, 0x0, 0, 3⟩
/-- PRF_OVR (R78, 02_trajectory.md): host and effective override. -/
def PRF_OVR (k : Nat) : RF := ⟨0xc020 + 512 * k, 0x1000, 0, 32⟩
def PRF_OVR_EFF (k : Nat) : RF := ⟨0xc020 + 512 * k, 0x1000, 16, 13⟩
def PRF_OVR_HOST (k : Nat) : RF := ⟨0xc020 + 512 * k, 0x1000, 0, 13⟩
/-- PRF_OVRSSM (R78, 02_trajectory.md): separation override and target. -/
def PRF_OVRSSM (k : Nat) : RF := ⟨0xc024 + 512 * k, 0x0, 0, 32⟩
def PRF_OVRSSM_TGT (k : Nat) : RF := ⟨0xc024 + 512 * k, 0x0, 16, 13⟩
def PRF_OVRSSM_SSM (k : Nat) : RF := ⟨0xc024 + 512 * k, 0x0, 0, 13⟩
/-- PRF_RBASE (R78, 02_trajectory.md): First pool entry of the ring; bits 31:16 reserved. -/
def PRF_RBASE (k : Nat) : RF := ⟨0xc004 + 512 * k, 0x0, 0, 32⟩
def PRF_RBASE_BASE (k : Nat) : RF := ⟨0xc004 + 512 * k, 0x0, 0, 16⟩
/-- PRF_RSIZE (R78, 02_trajectory.md): Ring size in segments; 0 = no ring; bits 31:16 reserved. -/
def PRF_RSIZE (k : Nat) : RF := ⟨0xc008 + 512 * k, 0x0, 0, 32⟩
def PRF_RSIZE_SIZE (k : Nat) : RF := ⟨0xc008 + 512 * k, 0x0, 0, 16⟩
/-- PRF_OVRDEC (R78, 02_trajectory.md): Falling rate limit of s, 2⁻²⁴ per basic cycle. -/
def PRF_OVRDEC (k : Nat) : RF := ⟨0xc00c + 512 * k, 0x400, 0, 32⟩
/-- PRF_OVRACC (R78, 02_trajectory.md): Rising rate limit of s, 2⁻²⁴ per basic cycle. -/
def PRF_OVRACC (k : Nat) : RF := ⟨0xc010 + 512 * k, 0x400, 0, 32⟩
/-- PRF_OVRJRK (R78, 02_trajectory.md): Rate-change limit of s, 2⁻³² per basic cycle². -/
def PRF_OVRJRK (k : Nat) : RF := ⟨0xc014 + 512 * k, 0x100, 0, 32⟩
/-- PRF_SAPP (R78, 02_trajectory.md): Ring append count (R54). -/
def PRF_SAPP (k : Nat) : RF := ⟨0xc028 + 512 * k, 0x0, 0, 32⟩
/-- PRF_RCON (R78, 02_trajectory.md): Ring segments executed or discarded. -/
def PRF_RCON (k : Nat) : RF := ⟨0xc02c + 512 * k, 0x0, 0, 32⟩
/-- PRF_SPLAY (R78, 02_trajectory.md): Segments entered by PLAY. -/
def PRF_SPLAY (k : Nat) : RF := ⟨0xc030 + 512 * k, 0x0, 0, 32⟩
/-- PRF_SEXE (R78, 02_trajectory.md): Segments executed. -/
def PRF_SEXE (k : Nat) : RF := ⟨0xc034 + 512 * k, 0x0, 0, 32⟩
/-- PRF_SDIS (R78, 02_trajectory.md): Segments discarded by a stop. -/
def PRF_SDIS (k : Nat) : RF := ⟨0xc038 + 512 * k, 0x0, 0, 32⟩
/-- PRF_STAG (R78, 02_trajectory.md): TAG of the current segment. -/
def PRF_STAG (k : Nat) : RF := ⟨0xc03c + 512 * k, 0x0, 0, 32⟩
/-- PRF_SPHASE (R78, 02_trajectory.md): Phase in the current segment, 2⁻¹² basic cycle. -/
def PRF_SPHASE (k : Nat) : RF := ⟨0xc040 + 512 * k, 0x0, 0, 32⟩
/-- PRF_TSTOP (R78, 02_trajectory.md): Stop time from the present state, ns (R62). -/
def PRF_TSTOP (k : Nat) : RF := ⟨0xc044 + 512 * k, 0x0, 0, 32⟩
/-- PRF_TBLBt (R78, 02_trajectory.md): First pool entry of table t; bits 31:16 reserved. -/
def PRF_TBLB (k : Nat) : RF := ⟨0xd400 + 8 * k, 0x0, 0, 32⟩
def PRF_TBLB_BASE (k : Nat) : RF := ⟨0xd400 + 8 * k, 0x0, 0, 16⟩
/-- PRF_TBLLt (R78, 02_trajectory.md): Segments in table t; 0 = table unused. -/
def PRF_TBLL (k : Nat) : RF := ⟨0xd404 + 8 * k, 0x0, 0, 32⟩
def PRF_TBLL_LEN (k : Nat) : RF := ⟨0xd404 + 8 * k, 0x0, 0, 16⟩
def PRF_TBLL_ARM (k : Nat) : RF := ⟨0xd404 + 8 * k, 0x0, 16, 3⟩
/-- PRF_VMRATEm (R78, 02_trajectory.md): Advance per basic cycle, velocity format. -/
def PRF_VMRATE (k : Nat) : RF := ⟨0xd500 + 16 * k, 0x0, 0, 32⟩
/-- PRF_VMPOSm_LO (R78, 02_trajectory.md): Latched position, low word. -/
def PRF_VMPOS_LO (k : Nat) : RF := ⟨0xd504 + 16 * k, 0x0, 0, 32⟩
/-- PRF_VMPOSm_HI (R78, 02_trajectory.md): Latched position, high word. -/
def PRF_VMPOS_HI (k : Nat) : RF := ⟨0xd508 + 16 * k, 0x0, 0, 32⟩
/-- PRF_JCFG (R78, 02_trajectory.md): joint mode and master. -/
def PRF_JCFG (k : Nat) : RF := ⟨0xe000 + 128 * k, 0x0, 0, 32⟩
def PRF_JCFG_MIDX (k : Nat) : RF := ⟨0xe000 + 128 * k, 0x0, 8, 6⟩
def PRF_JCFG_MSRC (k : Nat) : RF := ⟨0xe000 + 128 * k, 0x0, 4, 3⟩
def PRF_JCFG_MODE (k : Nat) : RF := ⟨0xe000 + 128 * k, 0x0, 0, 2⟩
/-- PRF_JCTL (R78, 02_trajectory.md): joint commands. -/
def PRF_JCTL (k : Nat) : RF := ⟨0xe004 + 128 * k, 0x0, 0, 32⟩
def PRF_JCTL_DISARM (k : Nat) : RF := ⟨0xe004 + 128 * k, 0x0, 3, 1⟩
def PRF_JCTL_ARM (k : Nat) : RF := ⟨0xe004 + 128 * k, 0x0, 2, 1⟩
def PRF_JCTL_STOP (k : Nat) : RF := ⟨0xe004 + 128 * k, 0x0, 1, 1⟩
def PRF_JCTL_GO (k : Nat) : RF := ⟨0xe004 + 128 * k, 0x0, 0, 1⟩
/-- PRF_STS (R78, 02_trajectory.md): joint status. -/
def PRF_STS (k : Nat) : RF := ⟨0xe024 + 128 * k, 0x0, 0, 32⟩
def PRF_STS_MSTINV (k : Nat) : RF := ⟨0xe024 + 128 * k, 0x0, 16, 1⟩
def PRF_STS_VIOLA (k : Nat) : RF := ⟨0xe024 + 128 * k, 0x0, 15, 1⟩
def PRF_STS_VIOLV (k : Nat) : RF := ⟨0xe024 + 128 * k, 0x0, 14, 1⟩
def PRF_STS_VIOLP (k : Nat) : RF := ⟨0xe024 + 128 * k, 0x0, 13, 1⟩
def PRF_STS_REJ (k : Nat) : RF := ⟨0xe024 + 128 * k, 0x0, 12, 1⟩
def PRF_STS_TGTR (k : Nat) : RF := ⟨0xe024 + 128 * k, 0x0, 11, 1⟩
def PRF_STS_CLACC (k : Nat) : RF := ⟨0xe024 + 128 * k, 0x0, 10, 1⟩
def PRF_STS_CLVEL (k : Nat) : RF := ⟨0xe024 + 128 * k, 0x0, 9, 1⟩
def PRF_STS_CLPOS (k : Nat) : RF := ⟨0xe024 + 128 * k, 0x0, 8, 1⟩
def PRF_STS_DEFER (k : Nat) : RF := ⟨0xe024 + 128 * k, 0x0, 7, 1⟩
def PRF_STS_ARMED (k : Nat) : RF := ⟨0xe024 + 128 * k, 0x0, 6, 1⟩
def PRF_STS_ARMPAST (k : Nat) : RF := ⟨0xe024 + 128 * k, 0x0, 5, 1⟩
def PRF_STS_REV (k : Nat) : RF := ⟨0xe024 + 128 * k, 0x0, 4, 1⟩
def PRF_STS_PHASE (k : Nat) : RF := ⟨0xe024 + 128 * k, 0x0, 0, 3⟩
/-- PRF_JTGT_LO (R78, 02_trajectory.md): PTP target position. -/
def PRF_JTGT_LO (k : Nat) : RF := ⟨0xe008 + 128 * k, 0x0, 0, 32⟩
/-- PRF_JTGT_HI (R78, 02_trajectory.md): PTP target position. -/
def PRF_JTGT_HI (k : Nat) : RF := ⟨0xe00c + 128 * k, 0x0, 0, 32⟩
/-- PRF_JVTGT (R78, 02_trajectory.md): VEL target velocity. -/
def PRF_JVTGT (k : Nat) : RF := ⟨0xe010 + 128 * k, 0x0, 0, 32⟩
/-- PRF_JVMAX (R78, 02_trajectory.md): PTP speed, unsigned, velocity units. -/
def PRF_JVMAX (k : Nat) : RF := ⟨0xe014 + 128 * k, 0x0, 0, 32⟩
/-- PRF_JACC (R78, 02_trajectory.md): Acceleration, unsigned, acceleration units. -/
def PRF_JACC (k : Nat) : RF := ⟨0xe018 + 128 * k, 0x0, 0, 32⟩
/-- PRF_JDEC (R78, 02_trajectory.md): Deceleration, unsigned, acceleration units. -/
def PRF_JDEC (k : Nat) : RF := ⟨0xe01c + 128 * k, 0x0, 0, 32⟩
/-- PRF_JJERK (R78, 02_trajectory.md): Jerk, 2⁻³² count per basic cycle³; 0 = unlimited. -/
def PRF_JJERK (k : Nat) : RF := ⟨0xe020 + 128 * k, 0x0, 0, 32⟩
/-- PRF_JCPOS_LO (R78, 02_trajectory.md): Command position. -/
def PRF_JCPOS_LO (k : Nat) : RF := ⟨0xe028 + 128 * k, 0x0, 0, 32⟩
/-- PRF_JCPOS_HI (R78, 02_trajectory.md): Command position. -/
def PRF_JCPOS_HI (k : Nat) : RF := ⟨0xe02c + 128 * k, 0x0, 0, 32⟩
/-- PRF_JCVEL (R78, 02_trajectory.md): Command velocity. -/
def PRF_JCVEL (k : Nat) : RF := ⟨0xe030 + 128 * k, 0x0, 0, 32⟩
/-- PRF_JCACC (R78, 02_trajectory.md): Command acceleration. -/
def PRF_JCACC (k : Nat) : RF := ⟨0xe034 + 128 * k, 0x0, 0, 32⟩
/-- PRF_JLIMLO_LO (R78, 02_trajectory.md): Lower soft limit. -/
def PRF_JLIMLO_LO (k : Nat) : RF := ⟨0xe038 + 128 * k, 0x0, 0, 32⟩
/-- PRF_JLIMLO_HI (R78, 02_trajectory.md): Lower soft limit. -/
def PRF_JLIMLO_HI (k : Nat) : RF := ⟨0xe03c + 128 * k, 0x80000000, 0, 32⟩
/-- PRF_JLIMHI_LO (R78, 02_trajectory.md): Upper soft limit. -/
def PRF_JLIMHI_LO (k : Nat) : RF := ⟨0xe040 + 128 * k, 0xffffffff, 0, 32⟩
/-- PRF_JLIMHI_HI (R78, 02_trajectory.md): Upper soft limit. -/
def PRF_JLIMHI_HI (k : Nat) : RF := ⟨0xe044 + 128 * k, 0x7fffffff, 0, 32⟩
/-- PRF_JVLIM (R78, 02_trajectory.md): Velocity limit, unsigned. -/
def PRF_JVLIM (k : Nat) : RF := ⟨0xe048 + 128 * k, 0x0, 0, 32⟩
/-- PRF_JALIM (R78, 02_trajectory.md): Acceleration limit, unsigned. -/
def PRF_JALIM (k : Nat) : RF := ⟨0xe04c + 128 * k, 0x0, 0, 32⟩
/-- PRF_JPTOL (R78, 02_trajectory.md): Position tolerance, 2⁻¹⁶ count. -/
def PRF_JPTOL (k : Nat) : RF := ⟨0xe050 + 128 * k, 0x0, 0, 32⟩
/-- PRF_JTOLF (R78, 02_trajectory.md): Velocity tolerance, 1/64 of limit. -/
def PRF_JTOLF (k : Nat) : RF := ⟨0xe054 + 128 * k, 0x8, 0, 32⟩
def PRF_JTOLF_VTOL (k : Nat) : RF := ⟨0xe054 + 128 * k, 0x8, 0, 8⟩
def PRF_JTOLF_ATOL (k : Nat) : RF := ⟨0xe054 + 128 * k, 0x8, 8, 8⟩
/-- PRF_JGNUM (R78, 02_trajectory.md): Ratio numerator, signed; updated by the channel at a change. -/
def PRF_JGNUM (k : Nat) : RF := ⟨0xe058 + 128 * k, 0x1, 0, 32⟩
/-- PRF_JGDEN (R78, 02_trajectory.md): Ratio denominator, unsigned; updated at a change. -/
def PRF_JGDEN (k : Nat) : RF := ⟨0xe05c + 128 * k, 0x1, 0, 32⟩
/-- PRF_JGANUM (R78, 02_trajectory.md): Armed numerator. -/
def PRF_JGANUM (k : Nat) : RF := ⟨0xe060 + 128 * k, 0x0, 0, 32⟩
/-- PRF_JGADEN (R78, 02_trajectory.md): Armed denominator. -/
def PRF_JGADEN (k : Nat) : RF := ⟨0xe064 + 128 * k, 0x0, 0, 32⟩
/-- PRF_JGAPOS_LO (R78, 02_trajectory.md): Arming master position. -/
def PRF_JGAPOS_LO (k : Nat) : RF := ⟨0xe068 + 128 * k, 0x0, 0, 32⟩
/-- PRF_JGAPOS_HI (R78, 02_trajectory.md): Arming master position. -/
def PRF_JGAPOS_HI (k : Nat) : RF := ⟨0xe06c + 128 * k, 0x0, 0, 32⟩
/-- PRF_JGREM (R78, 02_trajectory.md): Gear remainder. -/
def PRF_JGREM (k : Nat) : RF := ⟨0xe070 + 128 * k, 0x0, 0, 32⟩
/-- CMP_CFG (R78, 02_trajectory.md): compare source and outputs. -/
def CMP_CFG (k : Nat) : RF := ⟨0xd000 + 64 * k, 0x0, 0, 32⟩
def CMP_CFG_PW (k : Nat) : RF := ⟨0xd000 + 64 * k, 0x0, 25, 7⟩
def CMP_CFG_TEV (k : Nat) : RF := ⟨0xd000 + 64 * k, 0x0, 22, 3⟩
def CMP_CFG_TEVT (k : Nat) : RF := ⟨0xd000 + 64 * k, 0x0, 21, 1⟩
def CMP_CFG_EVT (k : Nat) : RF := ⟨0xd000 + 64 * k, 0x0, 20, 1⟩
def CMP_CFG_PIN (k : Nat) : RF := ⟨0xd000 + 64 * k, 0x0, 19, 1⟩
def CMP_CFG_PASSED (k : Nat) : RF := ⟨0xd000 + 64 * k, 0x0, 18, 1⟩
def CMP_CFG_DIR (k : Nat) : RF := ⟨0xd000 + 64 * k, 0x0, 16, 2⟩
def CMP_CFG_IDX (k : Nat) : RF := ⟨0xd000 + 64 * k, 0x0, 8, 6⟩
def CMP_CFG_SRC (k : Nat) : RF := ⟨0xd000 + 64 * k, 0x0, 0, 3⟩
/-- CMP_STS (R78, 02_trajectory.md): compare status. -/
def CMP_STS (k : Nat) : RF := ⟨0xd00c + 64 * k, 0x0, 0, 32⟩
def CMP_STS_PASTFIRE (k : Nat) : RF := ⟨0xd00c + 64 * k, 0x0, 3, 1⟩
def CMP_STS_BEHIND (k : Nat) : RF := ⟨0xd00c + 64 * k, 0x0, 2, 1⟩
def CMP_STS_FIRED (k : Nat) : RF := ⟨0xd00c + 64 * k, 0x0, 1, 1⟩
def CMP_STS_ARMED (k : Nat) : RF := ⟨0xd00c + 64 * k, 0x0, 0, 1⟩
/-- CMP_POS_LO (R78, 02_trajectory.md): Compare position, low word. -/
def CMP_POS_LO (k : Nat) : RF := ⟨0xd004 + 64 * k, 0x0, 0, 32⟩
/-- CMP_POS_HI (R78, 02_trajectory.md): Compare position, high word; the write arms the unit. -/
def CMP_POS_HI (k : Nat) : RF := ⟨0xd008 + 64 * k, 0x0, 0, 32⟩
/-- CMP_TS_LO (R78, 02_trajectory.md): Cell time of the last firing, ns. -/
def CMP_TS_LO (k : Nat) : RF := ⟨0xd010 + 64 * k, 0x0, 0, 32⟩
/-- CMP_TS_HI (R78, 02_trajectory.md): Cell time of the last firing, ns. -/
def CMP_TS_HI (k : Nat) : RF := ⟨0xd014 + 64 * k, 0x0, 0, 32⟩
/-- CMP_CNT (R78, 02_trajectory.md): Firings since the start. -/
def CMP_CNT (k : Nat) : RF := ⟨0xd018 + 64 * k, 0x0, 0, 32⟩
/-- SCH_STS (R108, 03_loop_cascade.md): scheduler state. -/
def SCH_STS : RF := ⟨0x5004, 0x0, 0, 32⟩
def SCH_STS_PTRB : RF := ⟨0x5004, 0x0, 4, 4⟩
def SCH_STS_LATE : RF := ⟨0x5004, 0x0, 1, 1⟩
def SCH_STS_STALL : RF := ⟨0x5004, 0x0, 0, 1⟩
/-- SCH_QDEPTHq (R108, 03_loop_cascade.md): queue depth. -/
def SCH_QDEPTH (k : Nat) : RF := ⟨0x5020 + 4 * k, 0x0, 0, 32⟩
def SCH_QDEPTH_MAX (k : Nat) : RF := ⟨0x5020 + 4 * k, 0x0, 16, 8⟩
def SCH_QDEPTH_DEPTH (k : Nat) : RF := ⟨0x5020 + 4 * k, 0x0, 0, 8⟩
/-- SCH_EVTe (R108, 03_loop_cascade.md): event release. -/
def SCH_EVT (k : Nat) : RF := ⟨0x50c0 + 8 * k, 0x400, 0, 32⟩
def SCH_EVT_EN (k : Nat) : RF := ⟨0x50c0 + 8 * k, 0x400, 31, 1⟩
def SCH_EVT_ENTRY (k : Nat) : RF := ⟨0x50c0 + 8 * k, 0x400, 18, 13⟩
def SCH_EVT_JOINT (k : Nat) : RF := ⟨0x50c0 + 8 * k, 0x400, 12, 6⟩
def SCH_EVT_Q (k : Nat) : RF := ⟨0x50c0 + 8 * k, 0x400, 8, 3⟩
def SCH_EVT_SRC (k : Nat) : RF := ⟨0x50c0 + 8 * k, 0x400, 0, 8⟩
/-- SCH_EVTTe (R108, 03_loop_cascade.md): event task limits. -/
def SCH_EVTT (k : Nat) : RF := ⟨0x50c4 + 8 * k, 0x10000, 0, 32⟩
def SCH_EVTT_CLIM (k : Nat) : RF := ⟨0x50c4 + 8 * k, 0x10000, 16, 8⟩
def SCH_EVTT_DL (k : Nat) : RF := ⟨0x50c4 + 8 * k, 0x10000, 0, 16⟩
/-- SCH_RTLEN (R108, 03_loop_cascade.md): Entries in the release table, 0 to 2,048; bits 31:12 reserved. -/
def SCH_RTLEN : RF := ⟨0x5000, 0x0, 0, 32⟩
def SCH_RTLEN_LEN : RF := ⟨0x5000, 0x0, 0, 12⟩
/-- SCH_LATE (R108, 03_loop_cascade.md): Releases made late. -/
def SCH_LATE : RF := ⟨0x5008, 0x0, 0, 32⟩
/-- SCH_REL (R108, 03_loop_cascade.md): Tasks released. -/
def SCH_REL : RF := ⟨0x500c, 0x0, 0, 32⟩
/-- SCH_CMPL (R108, 03_loop_cascade.md): Tasks completed. -/
def SCH_CMPL : RF := ⟨0x5010, 0x0, 0, 32⟩
/-- SCH_ABRT (R108, 03_loop_cascade.md): Tasks aborted. -/
def SCH_ABRT : RF := ⟨0x5014, 0x0, 0, 32⟩
/-- SCH_PEND (R108, 03_loop_cascade.md): REL − CMPL − ABRT. -/
def SCH_PEND : RF := ⟨0x5018, 0x0, 0, 32⟩
/-- SCH_EVTOVR (R108, 03_loop_cascade.md): Events not released (R87). -/
def SCH_EVTOVR : RF := ⟨0x501c, 0x0, 0, 32⟩
/-- SCH_WAITMAXq (R108, 03_loop_cascade.md): Longest wait in Qq, from release to the start of the grant (R88), last matrix cycle, ns. -/
def SCH_WAITMAX (k : Nat) : RF := ⟨0x5040 + 4 * k, 0x0, 0, 32⟩
/-- SCH_WAITAVGq (R108, 03_loop_cascade.md): Mean wait in Qq (R88), last matrix cycle, ns: the sum of the waits divided by their number. -/
def SCH_WAITAVG (k : Nat) : RF := ⟨0x5060 + 4 * k, 0x0, 0, 32⟩
/-- SCH_LOADn (R108, 03_loop_cascade.md): Busy cycles of requester n in the last matrix cycle; n = 0 to 7 for LE0 to LE7, n = 8 for . -/
def SCH_LOAD (k : Nat) : RF := ⟨0x5080 + 4 * k, 0x0, 0, 32⟩
/-- LPE_CFG (R108, 03_loop_cascade.md): engine enable and class mask. -/
def LPE_CFG (k : Nat) : RF := ⟨0x6000 + 512 * k, 0x131, 0, 32⟩
def LPE_CFG_CMASK (k : Nat) : RF := ⟨0x6000 + 512 * k, 0x131, 4, 5⟩
def LPE_CFG_EN (k : Nat) : RF := ⟨0x6000 + 512 * k, 0x131, 0, 1⟩
/-- LPE_CTL (R108, 03_loop_cascade.md): engine commands. -/
def LPE_CTL (k : Nat) : RF := ⟨0x6004 + 512 * k, 0x0, 0, 32⟩
def LPE_CTL_CLRMAX (k : Nat) : RF := ⟨0x6004 + 512 * k, 0x0, 1, 1⟩
def LPE_CTL_RESTART (k : Nat) : RF := ⟨0x6004 + 512 * k, 0x0, 0, 1⟩
/-- LPE_STS (R108, 03_loop_cascade.md): engine status. -/
def LPE_STS (k : Nat) : RF := ⟨0x6008 + 512 * k, 0x1, 0, 32⟩
def LPE_STS_FLTS (k : Nat) : RF := ⟨0x6008 + 512 * k, 0x1, 24, 1⟩
def LPE_STS_FLT (k : Nat) : RF := ⟨0x6008 + 512 * k, 0x1, 16, 4⟩
def LPE_STS_JOINT (k : Nat) : RF := ⟨0x6008 + 512 * k, 0x1, 8, 6⟩
def LPE_STS_KIND (k : Nat) : RF := ⟨0x6008 + 512 * k, 0x1, 4, 3⟩
def LPE_STS_STATE (k : Nat) : RF := ⟨0x6008 + 512 * k, 0x1, 0, 2⟩
/-- LPE_PC (R108, 03_loop_cascade.md): Program address being executed. In the dispatch loop and while halted by EN: the ROM addre. -/
def LPE_PC (k : Nat) : RF := ⟨0x600c + 512 * k, 0x0, 0, 32⟩
def LPE_PC_PC (k : Nat) : RF := ⟨0x600c + 512 * k, 0x0, 0, 16⟩
/-- LPE_CYC (R108, 03_loop_cascade.md): Engine cycles of the last task dispatched to the engine, completed or aborted, with overhe. -/
def LPE_CYC (k : Nat) : RF := ⟨0x6010 + 512 * k, 0x0, 0, 32⟩
def LPE_CYC_LAST (k : Nat) : RF := ⟨0x6010 + 512 * k, 0x0, 0, 16⟩
def LPE_CYC_MAX (k : Nat) : RF := ⟨0x6010 + 512 * k, 0x0, 16, 16⟩
/-- LPE_TASKS (R108, 03_loop_cascade.md): Tasks completed by this engine. -/
def LPE_TASKS (k : Nat) : RF := ⟨0x6014 + 512 * k, 0x0, 0, 32⟩
/-- LPE_SATj (R108, 03_loop_cascade.md): sticky saturation flags of joint j. -/
def LPE_SAT (k : Nat) : RF := ⟨0x7000 + 4 * k, 0x0, 0, 32⟩
def LPE_SAT_OVF (k : Nat) : RF := ⟨0x7000 + 4 * k, 0x0, 8, 1⟩
def LPE_SAT_DUTY (k : Nat) : RF := ⟨0x7000 + 4 * k, 0x0, 7, 1⟩
def LPE_SAT_VCIRC (k : Nat) : RF := ⟨0x7000 + 4 * k, 0x0, 6, 1⟩
def LPE_SAT_QPI (k : Nat) : RF := ⟨0x7000 + 4 * k, 0x0, 5, 1⟩
def LPE_SAT_DPI (k : Nat) : RF := ⟨0x7000 + 4 * k, 0x0, 4, 1⟩
def LPE_SAT_FILT (k : Nat) : RF := ⟨0x7000 + 4 * k, 0x0, 3, 1⟩
def LPE_SAT_IQLIM (k : Nat) : RF := ⟨0x7000 + 4 * k, 0x0, 2, 1⟩
def LPE_SAT_VINT (k : Nat) : RF := ⟨0x7000 + 4 * k, 0x0, 1, 1⟩
def LPE_SAT_VREF (k : Nat) : RF := ⟨0x7000 + 4 * k, 0x0, 0, 1⟩
/-- JNT_BIND (R108, 03_loop_cascade.md): binding and arm membership. -/
def JNT_BIND (k : Nat) : RF := ⟨0x8000 + 256 * k, 0x0, 0, 32⟩
def JNT_BIND_ARM (k : Nat) : RF := ⟨0x8000 + 256 * k, 0x0, 28, 3⟩
def JNT_BIND_SLOT (k : Nat) : RF := ⟨0x8000 + 256 * k, 0x0, 24, 3⟩
def JNT_BIND_NODE (k : Nat) : RF := ⟨0x8000 + 256 * k, 0x0, 16, 6⟩
def JNT_BIND_ORD (k : Nat) : RF := ⟨0x8000 + 256 * k, 0x0, 12, 4⟩
def JNT_BIND_UNIT (k : Nat) : RF := ⟨0x8000 + 256 * k, 0x0, 8, 4⟩
def JNT_BIND_KIND (k : Nat) : RF := ⟨0x8000 + 256 * k, 0x0, 0, 3⟩
/-- JNT_FB (R108, 03_loop_cascade.md): feedback source. -/
def JNT_FB (k : Nat) : RF := ⟨0x8004 + 256 * k, 0x0, 0, 32⟩
def JNT_FB_PORT (k : Nat) : RF := ⟨0x8004 + 256 * k, 0x0, 8, 5⟩
def JNT_FB_SRC (k : Nat) : RF := ⟨0x8004 + 256 * k, 0x0, 0, 2⟩
/-- JNT_CFG (R108, 03_loop_cascade.md): cascade options. -/
def JNT_CFG (k : Nat) : RF := ⟨0x8008 + 256 * k, 0x60, 0, 32⟩
def JNT_CFG_SPM (k : Nat) : RF := ⟨0x8008 + 256 * k, 0x60, 9, 2⟩
def JNT_CFG_N1EN (k : Nat) : RF := ⟨0x8008 + 256 * k, 0x60, 8, 1⟩
def JNT_CFG_N0EN (k : Nat) : RF := ⟨0x8008 + 256 * k, 0x60, 7, 1⟩
def JNT_CFG_BEMF (k : Nat) : RF := ⟨0x8008 + 256 * k, 0x60, 6, 1⟩
def JNT_CFG_DECPL (k : Nat) : RF := ⟨0x8008 + 256 * k, 0x60, 5, 1⟩
def JNT_CFG_AFF (k : Nat) : RF := ⟨0x8008 + 256 * k, 0x60, 2, 2⟩
def JNT_CFG_CRATE (k : Nat) : RF := ⟨0x8008 + 256 * k, 0x60, 1, 1⟩
def JNT_CFG_LEVEL (k : Nat) : RF := ⟨0x8008 + 256 * k, 0x60, 0, 1⟩
/-- JNT_CPR (R108, 03_loop_cascade.md): Counts per motor revolution. -/
def JNT_CPR (k : Nat) : RF := ⟨0x800c + 256 * k, 0x1, 0, 32⟩
/-- JNT_POLE (R108, 03_loop_cascade.md): Pole pairs, 1 to 63; bits 15:6 reserved. -/
def JNT_POLE (k : Nat) : RF := ⟨0x8010 + 256 * k, 0x1, 0, 32⟩
def JNT_POLE_PP (k : Nat) : RF := ⟨0x8010 + 256 * k, 0x1, 0, 6⟩
def JNT_POLE_OFS (k : Nat) : RF := ⟨0x8010 + 256 * k, 0x1, 16, 16⟩
/-- JNT_SCALE (R108, 03_loop_cascade.md): Current full scale, 10 mA. -/
def JNT_SCALE (k : Nat) : RF := ⟨0x8014 + 256 * k, 0x0, 0, 32⟩
def JNT_SCALE_IFS (k : Nat) : RF := ⟨0x8014 + 256 * k, 0x0, 0, 16⟩
def JNT_SCALE_VFS (k : Nat) : RF := ⟨0x8014 + 256 * k, 0x0, 16, 16⟩
/-- JNT_KP (R108, 03_loop_cascade.md): Position gain, 2⁻²⁴ per basic cycle. -/
def JNT_KP (k : Nat) : RF := ⟨0x8018 + 256 * k, 0x0, 0, 32⟩
/-- JNT_KVFF (R108, 03_loop_cascade.md): Velocity feed-forward, Q14; bits 31:16 reserved. -/
def JNT_KVFF (k : Nat) : RF := ⟨0x801c + 256 * k, 0x4000, 0, 32⟩
def JNT_KVFF_KVFF (k : Nat) : RF := ⟨0x801c + 256 * k, 0x4000, 0, 16⟩
/-- JNT_KAFF (R108, 03_loop_cascade.md): Constant-inertia feed-forward (R101). -/
def JNT_KAFF (k : Nat) : RF := ⟨0x8020 + 256 * k, 0x0, 0, 32⟩
/-- JNT_KVP (R108, 03_loop_cascade.md): Velocity proportional gain. -/
def JNT_KVP (k : Nat) : RF := ⟨0x8024 + 256 * k, 0x0, 0, 32⟩
/-- JNT_KVI (R108, 03_loop_cascade.md): Velocity integral gain per servo cycle. -/
def JNT_KVI (k : Nat) : RF := ⟨0x8028 + 256 * k, 0x0, 0, 32⟩
/-- JNT_VLPF (R108, 03_loop_cascade.md): Low-pass coefficient, Q15; 0 = bypassed; bits 31:16 reserved. -/
def JNT_VLPF (k : Nat) : RF := ⟨0x802c + 256 * k, 0x0, 0, 32⟩
def JNT_VLPF_ALPHA (k : Nat) : RF := ⟨0x802c + 256 * k, 0x0, 0, 16⟩
/-- JNT_N0A (R108, 03_loop_cascade.md): Notch coefficients, Q14 signed. -/
def JNT_N0A (k : Nat) : RF := ⟨0x8030 + 256 * k, 0x4000, 0, 32⟩
def JNT_N0A_B0 (k : Nat) : RF := ⟨0x8030 + 256 * k, 0x4000, 0, 16⟩
def JNT_N0A_B1 (k : Nat) : RF := ⟨0x8030 + 256 * k, 0x4000, 16, 16⟩
/-- JNT_N1A (R108, 03_loop_cascade.md): Notch coefficients, Q14 signed. -/
def JNT_N1A (k : Nat) : RF := ⟨0x803c + 256 * k, 0x4000, 0, 32⟩
def JNT_N1A_B0 (k : Nat) : RF := ⟨0x803c + 256 * k, 0x4000, 0, 16⟩
def JNT_N1A_B1 (k : Nat) : RF := ⟨0x803c + 256 * k, 0x4000, 16, 16⟩
/-- JNT_N0B (R108, 03_loop_cascade.md): Notch coefficients, Q14 signed. -/
def JNT_N0B (k : Nat) : RF := ⟨0x8034 + 256 * k, 0x0, 0, 32⟩
def JNT_N0B_B2 (k : Nat) : RF := ⟨0x8034 + 256 * k, 0x0, 0, 16⟩
def JNT_N0B_A1 (k : Nat) : RF := ⟨0x8034 + 256 * k, 0x0, 16, 16⟩
/-- JNT_N1B (R108, 03_loop_cascade.md): Notch coefficients, Q14 signed. -/
def JNT_N1B (k : Nat) : RF := ⟨0x8040 + 256 * k, 0x0, 0, 32⟩
def JNT_N1B_B2 (k : Nat) : RF := ⟨0x8040 + 256 * k, 0x0, 0, 16⟩
def JNT_N1B_A1 (k : Nat) : RF := ⟨0x8040 + 256 * k, 0x0, 16, 16⟩
/-- JNT_N0C (R108, 03_loop_cascade.md): Notch coefficient, Q14 signed; bits 31:16 reserved. -/
def JNT_N0C (k : Nat) : RF := ⟨0x8038 + 256 * k, 0x0, 0, 32⟩
def JNT_N0C_A2 (k : Nat) : RF := ⟨0x8038 + 256 * k, 0x0, 0, 16⟩
/-- JNT_N1C (R108, 03_loop_cascade.md): Notch coefficient, Q14 signed; bits 31:16 reserved. -/
def JNT_N1C (k : Nat) : RF := ⟨0x8044 + 256 * k, 0x0, 0, 32⟩
def JNT_N1C_A2 (k : Nat) : RF := ⟨0x8044 + 256 * k, 0x0, 0, 16⟩
/-- JNT_KIP (R108, 03_loop_cascade.md): d and q proportional gains, Q12. -/
def JNT_KIP (k : Nat) : RF := ⟨0x8048 + 256 * k, 0x0, 0, 32⟩
def JNT_KIP_KDP (k : Nat) : RF := ⟨0x8048 + 256 * k, 0x0, 0, 16⟩
def JNT_KIP_KQP (k : Nat) : RF := ⟨0x8048 + 256 * k, 0x0, 16, 16⟩
/-- JNT_KII (R108, 03_loop_cascade.md): d and q integral gains, 2⁻²⁰. -/
def JNT_KII (k : Nat) : RF := ⟨0x804c + 256 * k, 0x0, 0, 32⟩
def JNT_KII_KDI (k : Nat) : RF := ⟨0x804c + 256 * k, 0x0, 0, 16⟩
def JNT_KII_KQI (k : Nat) : RF := ⟨0x804c + 256 * k, 0x0, 16, 16⟩
/-- JNT_LDQ (R108, 03_loop_cascade.md): 2π × L × IFS × 256 ÷ (16 µs × VFS). -/
def JNT_LDQ (k : Nat) : RF := ⟨0x8050 + 256 * k, 0x0, 0, 32⟩
def JNT_LDQ_LD (k : Nat) : RF := ⟨0x8050 + 256 * k, 0x0, 0, 16⟩
def JNT_LDQ_LQ (k : Nat) : RF := ⟨0x8050 + 256 * k, 0x0, 16, 16⟩
/-- JNT_PSI (R108, 03_loop_cascade.md): ψ × π × 256 ÷ (16 µs × VFS); bits 31:16 reserved. -/
def JNT_PSI (k : Nat) : RF := ⟨0x8054 + 256 * k, 0x0, 0, 32⟩
def JNT_PSI_PSI (k : Nat) : RF := ⟨0x8054 + 256 * k, 0x0, 0, 16⟩
/-- JNT_ILIM (R108, 03_loop_cascade.md): Set-point limit, Q15; fixed d-axis set-point, Q15 signed. -/
def JNT_ILIM (k : Nat) : RF := ⟨0x8058 + 256 * k, 0x0, 0, 32⟩
def JNT_ILIM_IMAX (k : Nat) : RF := ⟨0x8058 + 256 * k, 0x0, 0, 16⟩
def JNT_ILIM_IDREF (k : Nat) : RF := ⟨0x8058 + 256 * k, 0x0, 16, 16⟩
/-- JNT_VLIM (R108, 03_loop_cascade.md): Circle radius as a fraction of VDC ÷ √3; DC-link floor, Q15. -/
def JNT_VLIM (k : Nat) : RF := ⟨0x805c + 256 * k, 0x7fff, 0, 32⟩
def JNT_VLIM_VMAXF (k : Nat) : RF := ⟨0x805c + 256 * k, 0x7fff, 0, 16⟩
def JNT_VLIM_VDCMIN (k : Nat) : RF := ⟨0x805c + 256 * k, 0x7fff, 16, 16⟩
/-- JNT_UENT (R108, 03_loop_cascade.md): Program addresses of the user current and servo tasks. -/
def JNT_UENT (k : Nat) : RF := ⟨0x8060 + 256 * k, 0x0, 0, 32⟩
def JNT_UENT_CUR (k : Nat) : RF := ⟨0x8060 + 256 * k, 0x0, 0, 13⟩
def JNT_UENT_SRV (k : Nat) : RF := ⟨0x8060 + 256 * k, 0x0, 16, 13⟩
/-- JNT_KTI (R108, 03_loop_cascade.md): Q15 current per N·m, binary32. -/
def JNT_KTI (k : Nat) : RF := ⟨0x8064 + 256 * k, 0x0, 0, 32⟩
/-- JNT_CRAD (R108, 03_loop_cascade.md): Counts per joint radian, binary32. -/
def JNT_CRAD (k : Nat) : RF := ⟨0x8068 + 256 * k, 0x3f800000, 0, 32⟩
/-- JNT_UBG (R108, 03_loop_cascade.md): Program address of background tasks; bits 31:13 reserved. -/
def JNT_UBG (k : Nat) : RF := ⟨0x806c + 256 * k, 0x0, 0, 32⟩
def JNT_UBG_BG (k : Nat) : RF := ⟨0x806c + 256 * k, 0x0, 0, 13⟩
/-- JNT_MISS (R108, 03_loop_cascade.md): Missed current and servo tasks; saturate at 0xFFFF. -/
def JNT_MISS (k : Nat) : RF := ⟨0x8084 + 256 * k, 0x0, 0, 32⟩
def JNT_MISS_CUR (k : Nat) : RF := ⟨0x8084 + 256 * k, 0x0, 0, 16⟩
def JNT_MISS_SRV (k : Nat) : RF := ⟨0x8084 + 256 * k, 0x0, 16, 16⟩
/-- JNT_REF (R108, 03_loop_cascade.md): Set-points in force. -/
def JNT_REF (k : Nat) : RF := ⟨0x8088 + 256 * k, 0x0, 0, 32⟩
def JNT_REF_IDREF (k : Nat) : RF := ⟨0x8088 + 256 * k, 0x0, 0, 16⟩
def JNT_REF_IQREF (k : Nat) : RF := ⟨0x8088 + 256 * k, 0x0, 16, 16⟩
/-- JNT_IDQ (R108, 03_loop_cascade.md): Measured at the last current task. -/
def JNT_IDQ (k : Nat) : RF := ⟨0x808c + 256 * k, 0x0, 0, 32⟩
def JNT_IDQ_ID (k : Nat) : RF := ⟨0x808c + 256 * k, 0x0, 0, 16⟩
def JNT_IDQ_IQ (k : Nat) : RF := ⟨0x808c + 256 * k, 0x0, 16, 16⟩
/-- JNT_VDQ (R108, 03_loop_cascade.md): Voltages after the circle. -/
def JNT_VDQ (k : Nat) : RF := ⟨0x8090 + 256 * k, 0x0, 0, 32⟩
def JNT_VDQ_VD (k : Nat) : RF := ⟨0x8090 + 256 * k, 0x0, 0, 16⟩
def JNT_VDQ_VQ (k : Nat) : RF := ⟨0x8090 + 256 * k, 0x0, 16, 16⟩
/-- JNT_ELEC (R108, 03_loop_cascade.md): Last DC-link sample and electrical angle. -/
def JNT_ELEC (k : Nat) : RF := ⟨0x8094 + 256 * k, 0x0, 0, 32⟩
def JNT_ELEC_VDC (k : Nat) : RF := ⟨0x8094 + 256 * k, 0x0, 0, 16⟩
def JNT_ELEC_THE (k : Nat) : RF := ⟨0x8094 + 256 * k, 0x0, 16, 16⟩
/-- JNT_TFF (R108, 03_loop_cascade.md): Dynamics feed-forward current; bits 31:16 reserved. -/
def JNT_TFF (k : Nat) : RF := ⟨0x8098 + 256 * k, 0x0, 0, 32⟩
def JNT_TFF_TFF (k : Nat) : RF := ⟨0x8098 + 256 * k, 0x0, 0, 16⟩
/-- JNT_ABS (R108, 03_loop_cascade.md): Current tasks with absent samples. -/
def JNT_ABS (k : Nat) : RF := ⟨0x809c + 256 * k, 0x0, 0, 32⟩
/-- JNT_STS (R108, 03_loop_cascade.md): joint loop status. -/
def JNT_STS (k : Nat) : RF := ⟨0x8080 + 256 * k, 0x1, 0, 32⟩
def JNT_STS_SCONS (k : Nat) : RF := ⟨0x8080 + 256 * k, 0x1, 10, 2⟩
def JNT_STS_CCONS (k : Nat) : RF := ⟨0x8080 + 256 * k, 0x1, 8, 2⟩
def JNT_STS_SABS (k : Nat) : RF := ⟨0x8080 + 256 * k, 0x1, 7, 1⟩
def JNT_STS_SMISS (k : Nat) : RF := ⟨0x8080 + 256 * k, 0x1, 6, 1⟩
def JNT_STS_CMISS (k : Nat) : RF := ⟨0x8080 + 256 * k, 0x1, 5, 1⟩
def JNT_STS_LIMI (k : Nat) : RF := ⟨0x8080 + 256 * k, 0x1, 4, 1⟩
def JNT_STS_LIMV (k : Nat) : RF := ⟨0x8080 + 256 * k, 0x1, 3, 1⟩
def JNT_STS_VDCLO (k : Nat) : RF := ⟨0x8080 + 256 * k, 0x1, 2, 1⟩
def JNT_STS_GOFF (k : Nat) : RF := ⟨0x8080 + 256 * k, 0x1, 1, 1⟩
def JNT_STS_TOFF (k : Nat) : RF := ⟨0x8080 + 256 * k, 0x1, 0, 1⟩
/-- PWM_CFG (R168, 05_power_outputs.md): unit mode. -/
def PWM_CFG (k : Nat) : RF := ⟨0x10000 + 256 * k, 0x0, 0, 32⟩
def PWM_CFG_SDEN (k : Nat) : RF := ⟨0x10000 + 256 * k, 0x0, 8, 1⟩
def PWM_CFG_SDOSR (k : Nat) : RF := ⟨0x10000 + 256 * k, 0x0, 7, 1⟩
def PWM_CFG_TRPEN (k : Nat) : RF := ⟨0x10000 + 256 * k, 0x0, 6, 1⟩
def PWM_CFG_N (k : Nat) : RF := ⟨0x10000 + 256 * k, 0x0, 4, 2⟩
def PWM_CFG_PER (k : Nat) : RF := ⟨0x10000 + 256 * k, 0x0, 2, 2⟩
def PWM_CFG_EXP (k : Nat) : RF := ⟨0x10000 + 256 * k, 0x0, 1, 1⟩
def PWM_CFG_MODE (k : Nat) : RF := ⟨0x10000 + 256 * k, 0x0, 0, 1⟩
/-- PWM_TRIPSTS (R168, 05_power_outputs.md): trip status. -/
def PWM_TRIPSTS (k : Nat) : RF := ⟨0x10030 + 256 * k, 0x0, 0, 32⟩
def PWM_TRIPSTS_CNT (k : Nat) : RF := ⟨0x10030 + 256 * k, 0x0, 16, 16⟩
def PWM_TRIPSTS_DTCAN (k : Nat) : RF := ⟨0x10030 + 256 * k, 0x0, 3, 1⟩
def PWM_TRIPSTS_TRIPIN (k : Nat) : RF := ⟨0x10030 + 256 * k, 0x0, 2, 1⟩
def PWM_TRIPSTS_CLRREF (k : Nat) : RF := ⟨0x10030 + 256 * k, 0x0, 1, 1⟩
def PWM_TRIPSTS_TRIP (k : Nat) : RF := ⟨0x10030 + 256 * k, 0x0, 0, 1⟩
/-- PWM_STS (R168, 05_power_outputs.md): live state. -/
def PWM_STS (k : Nat) : RF := ⟨0x10038 + 256 * k, 0x0, 0, 32⟩
def PWM_STS_ON (k : Nat) : RF := ⟨0x10038 + 256 * k, 0x0, 10, 1⟩
def PWM_STS_PERA (k : Nat) : RF := ⟨0x10038 + 256 * k, 0x0, 8, 2⟩
def PWM_STS_PEND (k : Nat) : RF := ⟨0x10038 + 256 * k, 0x0, 7, 1⟩
def PWM_STS_SDVAL (k : Nat) : RF := ⟨0x10038 + 256 * k, 0x0, 6, 1⟩
def PWM_STS_GATES (k : Nat) : RF := ⟨0x10038 + 256 * k, 0x0, 0, 6⟩
/-- PWM_PHOFS (R168, 05_power_outputs.md): Phase offset, ticks, below P; bits 31:14 reserved. -/
def PWM_PHOFS (k : Nat) : RF := ⟨0x10004 + 256 * k, 0x0, 0, 32⟩
def PWM_PHOFS_OFS (k : Nat) : RF := ⟨0x10004 + 256 * k, 0x0, 0, 14⟩
/-- PWM_DT (R168, 05_power_outputs.md): Dead time, ticks, 0 to 1,000; bits 31:10 reserved. -/
def PWM_DT (k : Nat) : RF := ⟨0x10008 + 256 * k, 0x7d, 0, 32⟩
def PWM_DT_DT (k : Nat) : RF := ⟨0x10008 + 256 * k, 0x7d, 0, 10⟩
/-- PWM_TRIPF (R168, 05_power_outputs.md): Trip filter, ticks, 1 to 250; bits 31:8 reserved. -/
def PWM_TRIPF (k : Nat) : RF := ⟨0x1000c + 256 * k, 0x19, 0, 32⟩
def PWM_TRIPF_FLT (k : Nat) : RF := ⟨0x1000c + 256 * k, 0x19, 0, 8⟩
/-- PWM_CTL (R168, 05_power_outputs.md): Unit enabled; bits 31:1 reserved. -/
def PWM_CTL (k : Nat) : RF := ⟨0x10010 + 256 * k, 0x0, 0, 32⟩
def PWM_CTL_EN (k : Nat) : RF := ⟨0x10010 + 256 * k, 0x0, 0, 1⟩
/-- PWM_DUTYA (R168, 05_power_outputs.md): Shadow duty, 0 to 0x8000; a write above 0x8000 is stored as 0x8000; bits 31:16 reserved. -/
def PWM_DUTYA (k : Nat) : RF := ⟨0x10014 + 256 * k, 0x0, 0, 32⟩
def PWM_DUTYA_DUTY (k : Nat) : RF := ⟨0x10014 + 256 * k, 0x0, 0, 16⟩
/-- PWM_DUTYB (R168, 05_power_outputs.md): Shadow duty, 0 to 0x8000; a write above 0x8000 is stored as 0x8000; bits 31:16 reserved. -/
def PWM_DUTYB (k : Nat) : RF := ⟨0x10018 + 256 * k, 0x0, 0, 32⟩
def PWM_DUTYB_DUTY (k : Nat) : RF := ⟨0x10018 + 256 * k, 0x0, 0, 16⟩
/-- PWM_DUTYC (R168, 05_power_outputs.md): Shadow duty, 0 to 0x8000; a write above 0x8000 is stored as 0x8000; bits 31:16 reserved. -/
def PWM_DUTYC (k : Nat) : RF := ⟨0x1001c + 256 * k, 0x0, 0, 32⟩
def PWM_DUTYC_DUTY (k : Nat) : RF := ⟨0x1001c + 256 * k, 0x0, 0, 16⟩
/-- PWM_PERSH (R168, 05_power_outputs.md): Shadow period, open mode, coded as PWM_CFG.PER; a write of 0x3 is discarded and the previo. -/
def PWM_PERSH (k : Nat) : RF := ⟨0x10020 + 256 * k, 0x0, 0, 32⟩
def PWM_PERSH_PER (k : Nat) : RF := ⟨0x10020 + 256 * k, 0x0, 0, 2⟩
/-- PWM_EOFSA (R168, 05_power_outputs.md): Edge offsets, signed ticks. -/
def PWM_EOFSA (k : Nat) : RF := ⟨0x10024 + 256 * k, 0x0, 0, 32⟩
def PWM_EOFSA_ON (k : Nat) : RF := ⟨0x10024 + 256 * k, 0x0, 0, 16⟩
def PWM_EOFSA_OFF (k : Nat) : RF := ⟨0x10024 + 256 * k, 0x0, 16, 16⟩
/-- PWM_EOFSB (R168, 05_power_outputs.md): Edge offsets, signed ticks. -/
def PWM_EOFSB (k : Nat) : RF := ⟨0x10028 + 256 * k, 0x0, 0, 32⟩
def PWM_EOFSB_ON (k : Nat) : RF := ⟨0x10028 + 256 * k, 0x0, 0, 16⟩
def PWM_EOFSB_OFF (k : Nat) : RF := ⟨0x10028 + 256 * k, 0x0, 16, 16⟩
/-- PWM_EOFSC (R168, 05_power_outputs.md): Edge offsets, signed ticks. -/
def PWM_EOFSC (k : Nat) : RF := ⟨0x1002c + 256 * k, 0x0, 0, 32⟩
def PWM_EOFSC_ON (k : Nat) : RF := ⟨0x1002c + 256 * k, 0x0, 0, 16⟩
def PWM_EOFSC_OFF (k : Nat) : RF := ⟨0x1002c + 256 * k, 0x0, 16, 16⟩
/-- PWM_TRIPCLR (R168, 05_power_outputs.md): Clear the trip (R143). -/
def PWM_TRIPCLR (k : Nat) : RF := ⟨0x10034 + 256 * k, 0x0, 0, 32⟩
def PWM_TRIPCLR_CLR (k : Nat) : RF := ⟨0x10034 + 256 * k, 0x0, 0, 1⟩
/-- PWM_SDCALA (R168, 05_power_outputs.md): Calibration (R145); OFS signed, GAIN unsigned Q13. -/
def PWM_SDCALA (k : Nat) : RF := ⟨0x10040 + 256 * k, 0x40000000, 0, 32⟩
def PWM_SDCALA_OFS (k : Nat) : RF := ⟨0x10040 + 256 * k, 0x40000000, 0, 16⟩
def PWM_SDCALA_GAIN (k : Nat) : RF := ⟨0x10040 + 256 * k, 0x40000000, 16, 16⟩
/-- PWM_SDCALB (R168, 05_power_outputs.md): Calibration (R145); OFS signed, GAIN unsigned Q13. -/
def PWM_SDCALB (k : Nat) : RF := ⟨0x10044 + 256 * k, 0x40000000, 0, 32⟩
def PWM_SDCALB_OFS (k : Nat) : RF := ⟨0x10044 + 256 * k, 0x40000000, 0, 16⟩
def PWM_SDCALB_GAIN (k : Nat) : RF := ⟨0x10044 + 256 * k, 0x40000000, 16, 16⟩
/-- PWM_SDCALC (R168, 05_power_outputs.md): Calibration (R145); OFS signed, GAIN unsigned Q13. -/
def PWM_SDCALC (k : Nat) : RF := ⟨0x10048 + 256 * k, 0x40000000, 0, 32⟩
def PWM_SDCALC_OFS (k : Nat) : RF := ⟨0x10048 + 256 * k, 0x40000000, 0, 16⟩
def PWM_SDCALC_GAIN (k : Nat) : RF := ⟨0x10048 + 256 * k, 0x40000000, 16, 16⟩
/-- PWM_ISMP0 (R168, 05_power_outputs.md): Last valley samples, Q15. -/
def PWM_ISMP0 (k : Nat) : RF := ⟨0x10050 + 256 * k, 0x0, 0, 32⟩
def PWM_ISMP0_IA (k : Nat) : RF := ⟨0x10050 + 256 * k, 0x0, 0, 16⟩
def PWM_ISMP0_IB (k : Nat) : RF := ⟨0x10050 + 256 * k, 0x0, 16, 16⟩
/-- PWM_ISMP1 (R168, 05_power_outputs.md): Last valley sample, Q15; bits 31:16 reserved. -/
def PWM_ISMP1 (k : Nat) : RF := ⟨0x10054 + 256 * k, 0x0, 0, 32⟩
def PWM_ISMP1_IC (k : Nat) : RF := ⟨0x10054 + 256 * k, 0x0, 0, 16⟩
/-- PWM_LOADALL (R168, 05_power_outputs.md): Units to transfer (R138); bits 31:16 reserved. -/
def PWM_LOADALL : RF := ⟨0x10080, 0x0, 0, 32⟩
def PWM_LOADALL_UNITS : RF := ⟨0x10080, 0x0, 0, 16⟩
/-- PWM_LDSTS (R168, 05_power_outputs.md): Units with a pending transfer; bits 31:16 reserved. -/
def PWM_LDSTS : RF := ⟨0x10084, 0x0, 0, 32⟩
def PWM_LDSTS_PEND : RF := ⟨0x10084, 0x0, 0, 16⟩
/-- PWM_VDCCALg (R168, 05_power_outputs.md): DC-link calibration, group g (R145); OFS signed, GAIN unsigned Q13. -/
def PWM_VDCCAL (k : Nat) : RF := ⟨0x10090 + 4 * k, 0x40000000, 0, 32⟩
def PWM_VDCCAL_OFS (k : Nat) : RF := ⟨0x10090 + 4 * k, 0x40000000, 0, 16⟩
def PWM_VDCCAL_GAIN (k : Nat) : RF := ⟨0x10090 + 4 * k, 0x40000000, 16, 16⟩
/-- PWM_VDCg (R168, 05_power_outputs.md): Last DC-link sample, Q15. -/
def PWM_VDC (k : Nat) : RF := ⟨0x100a0 + 4 * k, 0x0, 0, 32⟩
def PWM_VDC_VDC (k : Nat) : RF := ⟨0x100a0 + 4 * k, 0x0, 0, 16⟩
def PWM_VDC_VAL (k : Nat) : RF := ⟨0x100a0 + 4 * k, 0x0, 16, 1⟩
/-- STP_CFG (R168, 05_power_outputs.md): chopper setting. -/
def STP_CFG (k : Nat) : RF := ⟨0x11000 + 256 * k, 0xc9d24, 0, 32⟩
def STP_CFG_EN (k : Nat) : RF := ⟨0x11000 + 256 * k, 0xc9d24, 25, 1⟩
def STP_CFG_GRP (k : Nat) : RF := ⟨0x11000 + 256 * k, 0xc9d24, 23, 2⟩
def STP_CFG_BLANK (k : Nat) : RF := ⟨0x11000 + 256 * k, 0xc9d24, 18, 5⟩
def STP_CFG_TOFF (k : Nat) : RF := ⟨0x11000 + 256 * k, 0xc9d24, 10, 8⟩
def STP_CFG_FFRAC (k : Nat) : RF := ⟨0x11000 + 256 * k, 0xc9d24, 6, 4⟩
def STP_CFG_DECAY (k : Nat) : RF := ⟨0x11000 + 256 * k, 0xc9d24, 4, 2⟩
def STP_CFG_MRES (k : Nat) : RF := ⟨0x11000 + 256 * k, 0xc9d24, 0, 4⟩
/-- STP_STS (R168, 05_power_outputs.md): chopper status. -/
def STP_STS (k : Nat) : RF := ⟨0x11024 + 256 * k, 0x0, 0, 32⟩
def STP_STS_POVF (k : Nat) : RF := ⟨0x11024 + 256 * k, 0x0, 18, 1⟩
def STP_STS_NOTRIPB (k : Nat) : RF := ⟨0x11024 + 256 * k, 0x0, 17, 1⟩
def STP_STS_NOTRIPA (k : Nat) : RF := ⟨0x11024 + 256 * k, 0x0, 16, 1⟩
def STP_STS_HOLD (k : Nat) : RF := ⟨0x11024 + 256 * k, 0x0, 14, 1⟩
def STP_STS_CSB (k : Nat) : RF := ⟨0x11024 + 256 * k, 0x0, 12, 2⟩
def STP_STS_CSA (k : Nat) : RF := ⟨0x11024 + 256 * k, 0x0, 10, 2⟩
def STP_STS_IDX (k : Nat) : RF := ⟨0x11024 + 256 * k, 0x0, 0, 10⟩
/-- STP_REF (R168, 05_power_outputs.md): REF duties, 1/256. -/
def STP_REF (k : Nat) : RF := ⟨0x11004 + 256 * k, 0xfa04080, 0, 32⟩
def STP_REF_RUN (k : Nat) : RF := ⟨0x11004 + 256 * k, 0xfa04080, 0, 8⟩
def STP_REF_HOLD (k : Nat) : RF := ⟨0x11004 + 256 * k, 0xfa04080, 8, 8⟩
def STP_REF_HDLY (k : Nat) : RF := ⟨0x11004 + 256 * k, 0xfa04080, 16, 16⟩
/-- STP_MAXR (R168, 05_power_outputs.md): Microsteps per basic cycle, 1 to 2,000; bits 31:16 reserved. -/
def STP_MAXR (k : Nat) : RF := ⟨0x11008 + 256 * k, 0x100, 0, 32⟩
def STP_MAXR_MAXR (k : Nat) : RF := ⟨0x11008 + 256 * k, 0x100, 0, 16⟩
/-- STP_PLIM (R168, 05_power_outputs.md): Pending limit; bits 31:16 reserved. -/
def STP_PLIM (k : Nat) : RF := ⟨0x1100c + 256 * k, 0x40, 0, 32⟩
def STP_PLIM_PLIM (k : Nat) : RF := ⟨0x1100c + 256 * k, 0x40, 0, 16⟩
/-- STP_CMD_LO (R168, 05_power_outputs.md): Commanded microsteps, signed. -/
def STP_CMD_LO (k : Nat) : RF := ⟨0x11010 + 256 * k, 0x0, 0, 32⟩
/-- STP_CMD_HI (R168, 05_power_outputs.md): Commanded microsteps, signed. -/
def STP_CMD_HI (k : Nat) : RF := ⟨0x11014 + 256 * k, 0x0, 0, 32⟩
/-- STP_EMIT_LO (R168, 05_power_outputs.md): Emitted microsteps, signed. -/
def STP_EMIT_LO (k : Nat) : RF := ⟨0x11018 + 256 * k, 0x0, 0, 32⟩
/-- STP_EMIT_HI (R168, 05_power_outputs.md): Emitted microsteps, signed. -/
def STP_EMIT_HI (k : Nat) : RF := ⟨0x1101c + 256 * k, 0x0, 0, 32⟩
/-- STP_PEND (R168, 05_power_outputs.md): CMD − EMIT, signed. -/
def STP_PEND (k : Nat) : RF := ⟨0x11020 + 256 * k, 0x0, 0, 32⟩
/-- BRK_CFGi (R168, 05_power_outputs.md): brake output i. -/
def BRK_CFG (k : Nat) : RF := ⟨0x11800 + 4 * k, 0x32320000, 0, 32⟩
def BRK_CFG_ENGT (k : Nat) : RF := ⟨0x11800 + 4 * k, 0x32320000, 24, 8⟩
def BRK_CFG_RELT (k : Nat) : RF := ⟨0x11800 + 4 * k, 0x32320000, 16, 8⟩
def BRK_CFG_EN (k : Nat) : RF := ⟨0x11800 + 4 * k, 0x32320000, 8, 1⟩
def BRK_CFG_GRP (k : Nat) : RF := ⟨0x11800 + 4 * k, 0x32320000, 6, 2⟩
def BRK_CFG_JOINT (k : Nat) : RF := ⟨0x11800 + 4 * k, 0x32320000, 0, 6⟩
/-- BRK_ESTSj (R168, 05_power_outputs.md): brick status of joint j. -/
def BRK_ESTS (k : Nat) : RF := ⟨0x11900 + 4 * k, 0x0, 0, 32⟩
def BRK_ESTS_EMM (k : Nat) : RF := ⟨0x11900 + 4 * k, 0x0, 24, 8⟩
def BRK_ESTS_ESID (k : Nat) : RF := ⟨0x11900 + 4 * k, 0x0, 8, 16⟩
def BRK_ESTS_ST (k : Nat) : RF := ⟨0x11900 + 4 * k, 0x0, 0, 8⟩
/-- BRK_STS (R168, 05_power_outputs.md): Local outputs released; bits 31:16 reserved. -/
def BRK_STS : RF := ⟨0x11840, 0x0, 0, 32⟩
def BRK_STS_REL : RF := ⟨0x11840, 0x0, 0, 16⟩
/-- BRK_RREL_LO (R168, 05_power_outputs.md): Joints sent BRKREL = 1, bit j. -/
def BRK_RREL_LO : RF := ⟨0x11848, 0x0, 0, 32⟩
/-- BRK_RREL_HI (R168, 05_power_outputs.md): Joints sent BRKREL = 1, bit j. -/
def BRK_RREL_HI : RF := ⟨0x1184c, 0x0, 0, 32⟩
/-- BRK_ETCLR_LO (R168, 05_power_outputs.md): Send TRIPCLR to joint j once. -/
def BRK_ETCLR_LO : RF := ⟨0x11850, 0x0, 0, 32⟩
/-- BRK_ETCLR_HI (R168, 05_power_outputs.md): Send TRIPCLR to joint j once. -/
def BRK_ETCLR_HI : RF := ⟨0x11854, 0x0, 0, 32⟩
/-- ENC_CFG (R191, 06_feedback.md): port mode. -/
def ENC_CFG (k : Nat) : RF := ⟨0x12000 + 128 * k, 0x10, 0, 32⟩
def ENC_CFG_DHYS (k : Nat) : RF := ⟨0x12000 + 128 * k, 0x10, 16, 8⟩
def ENC_CFG_RPH (k : Nat) : RF := ⟨0x12000 + 128 * k, 0x10, 11, 1⟩
def ENC_CFG_REFM (k : Nat) : RF := ⟨0x12000 + 128 * k, 0x10, 10, 1⟩
def ENC_CFG_INV (k : Nat) : RF := ⟨0x12000 + 128 * k, 0x10, 9, 1⟩
def ENC_CFG_FLT (k : Nat) : RF := ⟨0x12000 + 128 * k, 0x10, 4, 3⟩
def ENC_CFG_MODE (k : Nat) : RF := ⟨0x12000 + 128 * k, 0x10, 0, 2⟩
/-- ENC_SCFG (R191, 06_feedback.md): serial timing. -/
def ENC_SCFG (k : Nat) : RF := ⟨0x12004 + 128 * k, 0x18, 0, 32⟩
def ENC_SCFG_IVL (k : Nat) : RF := ⟨0x12004 + 128 * k, 0x18, 30, 2⟩
def ENC_SCFG_STB (k : Nat) : RF := ⟨0x12004 + 128 * k, 0x18, 29, 1⟩
def ENC_SCFG_DLY (k : Nat) : RF := ⟨0x12004 + 128 * k, 0x18, 12, 8⟩
def ENC_SCFG_DIV (k : Nat) : RF := ⟨0x12004 + 128 * k, 0x18, 0, 12⟩
/-- ENC_SLAY (R191, 06_feedback.md): serial word layout. -/
def ENC_SLAY (k : Nat) : RF := ⟨0x12008 + 128 * k, 0x190019, 0, 32⟩
def ENC_SLAY_ERRPOL (k : Nat) : RF := ⟨0x12008 + 128 * k, 0x190019, 31, 1⟩
def ENC_SLAY_ERREN (k : Nat) : RF := ⟨0x12008 + 128 * k, 0x190019, 30, 1⟩
def ENC_SLAY_ERRB (k : Nat) : RF := ⟨0x12008 + 128 * k, 0x190019, 24, 6⟩
def ENC_SLAY_GRAY (k : Nat) : RF := ⟨0x12008 + 128 * k, 0x190019, 22, 1⟩
def ENC_SLAY_POSL (k : Nat) : RF := ⟨0x12008 + 128 * k, 0x190019, 16, 6⟩
def ENC_SLAY_POSB (k : Nat) : RF := ⟨0x12008 + 128 * k, 0x190019, 8, 6⟩
def ENC_SLAY_WLEN (k : Nat) : RF := ⟨0x12008 + 128 * k, 0x190019, 0, 6⟩
/-- ENC_STMO (R191, 06_feedback.md): timeouts and CRC width. -/
def ENC_STMO (k : Nat) : RF := ⟨0x12010 + 128 * k, 0x14, 0, 32⟩
def ENC_STMO_CINV (k : Nat) : RF := ⟨0x12010 + 128 * k, 0x14, 21, 1⟩
def ENC_STMO_CRCW (k : Nat) : RF := ⟨0x12010 + 128 * k, 0x14, 16, 5⟩
def ENC_STMO_WTMO (k : Nat) : RF := ⟨0x12010 + 128 * k, 0x14, 8, 8⟩
def ENC_STMO_MONO (k : Nat) : RF := ⟨0x12010 + 128 * k, 0x14, 0, 8⟩
/-- ENC_STS (R191, 06_feedback.md): port status. -/
def ENC_STS (k : Nat) : RF := ⟨0x12030 + 128 * k, 0x0, 0, 32⟩
def ENC_STS_FCAUSE (k : Nat) : RF := ⟨0x12030 + 128 * k, 0x0, 16, 4⟩
def ENC_STS_SCONS (k : Nat) : RF := ⟨0x12030 + 128 * k, 0x0, 12, 2⟩
def ENC_STS_ICONS (k : Nat) : RF := ⟨0x12030 + 128 * k, 0x0, 10, 2⟩
def ENC_STS_RPHC (k : Nat) : RF := ⟨0x12030 + 128 * k, 0x0, 9, 1⟩
def ENC_STS_SFAIL (k : Nat) : RF := ⟨0x12030 + 128 * k, 0x0, 8, 1⟩
def ENC_STS_EXTR (k : Nat) : RF := ⟨0x12030 + 128 * k, 0x0, 7, 1⟩
def ENC_STS_QERR (k : Nat) : RF := ⟨0x12030 + 128 * k, 0x0, 6, 1⟩
def ENC_STS_IDXERR (k : Nat) : RF := ⟨0x12030 + 128 * k, 0x0, 5, 1⟩
def ENC_STS_DIR (k : Nat) : RF := ⟨0x12030 + 128 * k, 0x0, 4, 1⟩
def ENC_STS_DIRNOW (k : Nat) : RF := ⟨0x12030 + 128 * k, 0x0, 2, 1⟩
def ENC_STS_REF (k : Nat) : RF := ⟨0x12030 + 128 * k, 0x0, 1, 1⟩
def ENC_STS_VALID (k : Nat) : RF := ⟨0x12030 + 128 * k, 0x0, 0, 1⟩
/-- ENC_SCRC (R191, 06_feedback.md): CRC polynomial and initial value. -/
def ENC_SCRC (k : Nat) : RF := ⟨0x1200c + 128 * k, 0x0, 0, 32⟩
def ENC_SCRC_POLY (k : Nat) : RF := ⟨0x1200c + 128 * k, 0x0, 0, 16⟩
def ENC_SCRC_INIT (k : Nat) : RF := ⟨0x1200c + 128 * k, 0x0, 16, 16⟩
/-- ENC_LEAD (R191, 06_feedback.md): Latch lead, ticks; bits 31:20 reserved. -/
def ENC_LEAD (k : Nat) : RF := ⟨0x12014 + 128 * k, 0x0, 0, 32⟩
def ENC_LEAD_LEAD (k : Nat) : RF := ⟨0x12014 + 128 * k, 0x0, 0, 20⟩
/-- ENC_CPR (R191, 06_feedback.md): Counts per index period; 0 = check off. -/
def ENC_CPR (k : Nat) : RF := ⟨0x12018 + 128 * k, 0x0, 0, 32⟩
/-- ENC_IDXTOL (R191, 06_feedback.md): Index tolerance, counts; bits 31:16 reserved. -/
def ENC_IDXTOL (k : Nat) : RF := ⟨0x1201c + 128 * k, 0x1, 0, 32⟩
def ENC_IDXTOL_TOL (k : Nat) : RF := ⟨0x1201c + 128 * k, 0x1, 0, 16⟩
/-- ENC_SJMP (R191, 06_feedback.md): Jump limit, counts; 0 = test off. -/
def ENC_SJMP (k : Nat) : RF := ⟨0x12020 + 128 * k, 0x0, 0, 32⟩
/-- ENC_AOFS_LO (R191, 06_feedback.md): Acquisition or reference offset, signed counts. -/
def ENC_AOFS_LO (k : Nat) : RF := ⟨0x12024 + 128 * k, 0x0, 0, 32⟩
/-- ENC_AOFS_HI (R191, 06_feedback.md): Acquisition or reference offset, signed counts. -/
def ENC_AOFS_HI (k : Nat) : RF := ⟨0x12028 + 128 * k, 0x0, 0, 32⟩
/-- ENC_CTL (R191, 06_feedback.md): Take the next index as reference. -/
def ENC_CTL (k : Nat) : RF := ⟨0x1202c + 128 * k, 0x0, 0, 32⟩
def ENC_CTL_IDXARM (k : Nat) : RF := ⟨0x1202c + 128 * k, 0x0, 0, 1⟩
def ENC_CTL_CLRERR (k : Nat) : RF := ⟨0x1202c + 128 * k, 0x0, 1, 1⟩
/-- ENC_CNT_LO (R191, 06_feedback.md): Live count, signed. -/
def ENC_CNT_LO (k : Nat) : RF := ⟨0x12034 + 128 * k, 0x0, 0, 32⟩
/-- ENC_CNT_HI (R191, 06_feedback.md): Live count, signed. -/
def ENC_CNT_HI (k : Nat) : RF := ⟨0x12038 + 128 * k, 0x0, 0, 32⟩
/-- ENC_LAT_LO (R191, 06_feedback.md): Position presented at the last 0 ns. -/
def ENC_LAT_LO (k : Nat) : RF := ⟨0x1203c + 128 * k, 0x0, 0, 32⟩
/-- ENC_LAT_HI (R191, 06_feedback.md): Position presented at the last 0 ns. -/
def ENC_LAT_HI (k : Nat) : RF := ⟨0x12040 + 128 * k, 0x0, 0, 32⟩
/-- ENC_WORD_LO (R191, 06_feedback.md): Last serial word; register bit i is word bit i of R178, so bit 0 was received first. -/
def ENC_WORD_LO (k : Nat) : RF := ⟨0x12044 + 128 * k, 0x0, 0, 32⟩
/-- ENC_WORD_HI (R191, 06_feedback.md): Last serial word; register bit i is word bit i of R178, so bit 0 was received first. -/
def ENC_WORD_HI (k : Nat) : RF := ⟨0x12048 + 128 * k, 0x0, 0, 32⟩
/-- ENC_IDXTS_LO (R191, 06_feedback.md): Cell time of the last index, ns. -/
def ENC_IDXTS_LO (k : Nat) : RF := ⟨0x1204c + 128 * k, 0x0, 0, 32⟩
/-- ENC_IDXTS_HI (R191, 06_feedback.md): Cell time of the last index, ns. -/
def ENC_IDXTS_HI (k : Nat) : RF := ⟨0x12050 + 128 * k, 0x0, 0, 32⟩
/-- ENC_IDXRES (R191, 06_feedback.md): Residual r of the last index, signed. -/
def ENC_IDXRES (k : Nat) : RF := ⟨0x12054 + 128 * k, 0x0, 0, 32⟩
/-- ENC_RPHSUM_LO (R191, 06_feedback.md): Sum of corrections and reference jump, signed. -/
def ENC_RPHSUM_LO (k : Nat) : RF := ⟨0x12058 + 128 * k, 0x0, 0, 32⟩
/-- ENC_RPHSUM_HI (R191, 06_feedback.md): Sum of corrections and reference jump, signed. -/
def ENC_RPHSUM_HI (k : Nat) : RF := ⟨0x1205c + 128 * k, 0x0, 0, 32⟩
/-- ENC_DIRTS_LO (R191, 06_feedback.md): Cell time of the last reversal, ns. -/
def ENC_DIRTS_LO (k : Nat) : RF := ⟨0x12060 + 128 * k, 0x0, 0, 32⟩
/-- ENC_DIRTS_HI (R191, 06_feedback.md): Cell time of the last reversal, ns. -/
def ENC_DIRTS_HI (k : Nat) : RF := ⟨0x12064 + 128 * k, 0x0, 0, 32⟩
/-- ENC_ERRCNT (R191, 06_feedback.md): Failures by cause; saturate at 0xFF. -/
def ENC_ERRCNT (k : Nat) : RF := ⟨0x12068 + 128 * k, 0x0, 0, 32⟩
def ENC_ERRCNT_CRC (k : Nat) : RF := ⟨0x12068 + 128 * k, 0x0, 0, 8⟩
def ENC_ERRCNT_ERRB (k : Nat) : RF := ⟨0x12068 + 128 * k, 0x0, 8, 8⟩
def ENC_ERRCNT_TMO (k : Nat) : RF := ⟨0x12068 + 128 * k, 0x0, 16, 8⟩
def ENC_ERRCNT_JUMP (k : Nat) : RF := ⟨0x12068 + 128 * k, 0x0, 24, 8⟩
/-- ENC_QERR (R191, 06_feedback.md): Quadrature errors. -/
def ENC_QERR (k : Nat) : RF := ⟨0x1206c + 128 * k, 0x0, 0, 32⟩
/-- ENC_IDXE (R191, 06_feedback.md): Index errors. -/
def ENC_IDXE (k : Nat) : RF := ⟨0x12070 + 128 * k, 0x0, 0, 32⟩
/-- ENC_IDXREF (R191, 06_feedback.md): Reference index count mod CPR. -/
def ENC_IDXREF (k : Nat) : RF := ⟨0x12074 + 128 * k, 0x0, 0, 32⟩
/-- DPO_CFG (R191, 06_feedback.md): source and output. -/
def DPO_CFG (k : Nat) : RF := ⟨0x12c00 + 48 * k, 0xa0000, 0, 32⟩
def DPO_CFG_MINSP (k : Nat) : RF := ⟨0x12c00 + 48 * k, 0xa0000, 16, 8⟩
def DPO_CFG_IDX (k : Nat) : RF := ⟨0x12c00 + 48 * k, 0xa0000, 8, 6⟩
def DPO_CFG_SRC (k : Nat) : RF := ⟨0x12c00 + 48 * k, 0xa0000, 4, 3⟩
def DPO_CFG_INV (k : Nat) : RF := ⟨0x12c00 + 48 * k, 0xa0000, 1, 1⟩
def DPO_CFG_EN (k : Nat) : RF := ⟨0x12c00 + 48 * k, 0xa0000, 0, 1⟩
/-- DPO_NUM (R191, 06_feedback.md): Ratio numerator, unsigned. -/
def DPO_NUM (k : Nat) : RF := ⟨0x12c04 + 48 * k, 0x1, 0, 32⟩
/-- DPO_DEN (R191, 06_feedback.md): Ratio denominator, unsigned. -/
def DPO_DEN (k : Nat) : RF := ⟨0x12c08 + 48 * k, 0x1, 0, 32⟩
/-- DPO_PLIM (R191, 06_feedback.md): Pending limit, edges. -/
def DPO_PLIM (k : Nat) : RF := ⟨0x12c0c + 48 * k, 0x100, 0, 32⟩
/-- DPO_OUT_LO (R191, 06_feedback.md): Output count, signed. -/
def DPO_OUT_LO (k : Nat) : RF := ⟨0x12c10 + 48 * k, 0x0, 0, 32⟩
/-- DPO_OUT_HI (R191, 06_feedback.md): Output count, signed. -/
def DPO_OUT_HI (k : Nat) : RF := ⟨0x12c14 + 48 * k, 0x0, 0, 32⟩
/-- DPO_EMIT_LO (R191, 06_feedback.md): Edges emitted, signed. -/
def DPO_EMIT_LO (k : Nat) : RF := ⟨0x12c18 + 48 * k, 0x0, 0, 32⟩
/-- DPO_EMIT_HI (R191, 06_feedback.md): Edges emitted, signed. -/
def DPO_EMIT_HI (k : Nat) : RF := ⟨0x12c1c + 48 * k, 0x0, 0, 32⟩
/-- DPO_PEND (R191, 06_feedback.md): OUT − EMIT, signed. -/
def DPO_PEND (k : Nat) : RF := ⟨0x12c20 + 48 * k, 0x0, 0, 32⟩
/-- DPO_REM (R191, 06_feedback.md): Remainder rem. -/
def DPO_REM (k : Nat) : RF := ⟨0x12c24 + 48 * k, 0x0, 0, 32⟩
/-- DPO_STS (R191, 06_feedback.md): Pending beyond PLIM; bits 31:1 reserved. -/
def DPO_STS (k : Nat) : RF := ⟨0x12c28 + 48 * k, 0x0, 0, 32⟩
def DPO_STS_PNDOVF (k : Nat) : RF := ⟨0x12c28 + 48 * k, 0x0, 0, 1⟩
/-- JSP_CFGj (R191, 06_feedback.md): safety source of joint j. -/
def JSP_CFG (k : Nat) : RF := ⟨0x12d00 + 12 * k, 0x1010000, 0, 32⟩
def JSP_CFG_STOL (k : Nat) : RF := ⟨0x12d00 + 12 * k, 0x1010000, 20, 12⟩
def JSP_CFG_STCNT (k : Nat) : RF := ⟨0x12d00 + 12 * k, 0x1010000, 16, 3⟩
def JSP_CFG_ENT (k : Nat) : RF := ⟨0x12d00 + 12 * k, 0x1010000, 12, 3⟩
def JSP_CFG_IDX (k : Nat) : RF := ⟨0x12d00 + 12 * k, 0x1010000, 4, 7⟩
def JSP_CFG_INV (k : Nat) : RF := ⟨0x12d00 + 12 * k, 0x1010000, 2, 1⟩
def JSP_CFG_SRC (k : Nat) : RF := ⟨0x12d00 + 12 * k, 0x1010000, 0, 2⟩
/-- JSP_RATIOj (R191, 06_feedback.md): Scaling to control counts; both unsigned, DEN not 0 (R186). -/
def JSP_RATIO (k : Nat) : RF := ⟨0x12d04 + 12 * k, 0x10001, 0, 32⟩
def JSP_RATIO_NUM (k : Nat) : RF := ⟨0x12d04 + 12 * k, 0x10001, 0, 16⟩
def JSP_RATIO_DEN (k : Nat) : RF := ⟨0x12d04 + 12 * k, 0x10001, 16, 16⟩
/-- JSP_OFSj (R191, 06_feedback.md): Offset, signed whole counts. -/
def JSP_OFS (k : Nat) : RF := ⟨0x12d08 + 12 * k, 0x0, 0, 32⟩
/-- JSP_MISM_LO (R191, 06_feedback.md): Bit j: joint j beyond tolerance. -/
def JSP_MISM_LO : RF := ⟨0x12cc0, 0x0, 0, 32⟩
/-- JSP_MISM_HI (R191, 06_feedback.md): Bit j: joint j beyond tolerance. -/
def JSP_MISM_HI : RF := ⟨0x12cc4, 0x0, 0, 32⟩
/-- SLV_CFG (R217, 07_solver.md): solver enables. -/
def SLV_CFG : RF := ⟨0x13000, 0x0, 0, 32⟩
def SLV_CFG_SURGE : RF := ⟨0x13000, 0x0, 1, 1⟩
def SLV_CFG_HEN : RF := ⟨0x13000, 0x0, 0, 1⟩
/-- SLV_STS (R217, 07_solver.md): solver state. -/
def SLV_STS : RF := ⟨0x13004, 0x0, 0, 32⟩
def SLV_STS_OP : RF := ⟨0x13004, 0x0, 8, 8⟩
def SLV_STS_HALF : RF := ⟨0x13004, 0x0, 6, 1⟩
def SLV_STS_SURGEON : RF := ⟨0x13004, 0x0, 5, 1⟩
def SLV_STS_STATE : RF := ⟨0x13004, 0x0, 0, 2⟩
/-- SLV_DERR (R217, 07_solver.md): host ring errors. -/
def SLV_DERR : RF := ⟨0x13028, 0x0, 0, 32⟩
def SLV_DERR_PREJ : RF := ⟨0x13028, 0x0, 9, 1⟩
def SLV_DERR_ERR : RF := ⟨0x13028, 0x0, 8, 1⟩
def SLV_DERR_CODE : RF := ⟨0x13028, 0x0, 0, 8⟩
/-- SLV_CTL (R217, 07_solver.md): Abort host work (R214); bits 31:1 reserved. -/
def SLV_CTL : RF := ⟨0x13008, 0x0, 0, 32⟩
def SLV_CTL_HABORT : RF := ⟨0x13008, 0x0, 0, 1⟩
/-- SLV_HRBASE (R217, 07_solver.md): Host ring base ÷ 64, within the host area; bits 5:0 and 31:21 reserved. -/
def SLV_HRBASE : RF := ⟨0x13010, 0x40000, 0, 32⟩
def SLV_HRBASE_BASE : RF := ⟨0x13010, 0x40000, 6, 15⟩
/-- SLV_HRSIZE (R217, 07_solver.md): Host ring entries, 1 to 4,096; bits 31:13 reserved. -/
def SLV_HRSIZE : RF := ⟨0x13014, 0x100, 0, 32⟩
def SLV_HRSIZE_SIZE : RF := ⟨0x13014, 0x100, 0, 13⟩
/-- SLV_HPROD (R217, 07_solver.md): Descriptors submitted. -/
def SLV_HPROD : RF := ⟨0x13018, 0x0, 0, 32⟩
/-- SLV_HCONS (R217, 07_solver.md): Descriptors taken and released. -/
def SLV_HCONS : RF := ⟨0x1301c, 0x0, 0, 32⟩
/-- SLV_HDONE (R217, 07_solver.md): Descriptors with every status final. -/
def SLV_HDONE : RF := ⟨0x13020, 0x0, 0, 32⟩
/-- SLV_HCMAX (R217, 07_solver.md): Largest host problem cost with overhead, cycles; bits 31:16 reserved. -/
def SLV_HCMAX : RF := ⟨0x13024, 0x4000, 0, 32⟩
def SLV_HCMAX_CMAX : RF := ⟨0x13024, 0x4000, 0, 16⟩
/-- SLV_HSUB (R217, 07_solver.md): Host problems taken. -/
def SLV_HSUB : RF := ⟨0x13030, 0x0, 0, 32⟩
/-- SLV_HCMPL (R217, 07_solver.md): Host problems OK. -/
def SLV_HCMPL : RF := ⟨0x13034, 0x0, 0, 32⟩
/-- SLV_HFAIL (R217, 07_solver.md): Host problems failed. -/
def SLV_HFAIL : RF := ⟨0x13038, 0x0, 0, 32⟩
/-- SLV_HNRUN (R217, 07_solver.md): Host problems not run. -/
def SLV_HNRUN : RF := ⟨0x1303c, 0x0, 0, 32⟩
/-- SLV_ISUB (R217, 07_solver.md): Model tasks released. -/
def SLV_ISUB : RF := ⟨0x13040, 0x0, 0, 32⟩
/-- SLV_ICMPL (R217, 07_solver.md): Model tasks completed. -/
def SLV_ICMPL : RF := ⟨0x13044, 0x0, 0, 32⟩
/-- SLV_IFAIL (R217, 07_solver.md): Model tasks aborted while running. -/
def SLV_IFAIL : RF := ⟨0x13048, 0x0, 0, 32⟩
/-- SLV_INRUN (R217, 07_solver.md): Model tasks removed before running. -/
def SLV_INRUN : RF := ⟨0x1304c, 0x0, 0, 32⟩
/-- SLV_HINPR (R217, 07_solver.md): Host problems in progress (R210). -/
def SLV_HINPR : RF := ⟨0x13050, 0x0, 0, 32⟩
/-- SLV_IINPR (R217, 07_solver.md): Model tasks in progress. -/
def SLV_IINPR : RF := ⟨0x13054, 0x0, 0, 32⟩
/-- SLV_MDLVAL (R217, 07_solver.md): Bit k: arm k has committed model results; bits 31:8 reserved. -/
def SLV_MDLVAL : RF := ⟨0x13058, 0x0, 0, 32⟩
def SLV_MDLVAL_VAL : RF := ⟨0x13058, 0x0, 0, 8⟩
/-- SLV_MDLMISS (R217, 07_solver.md): Model tasks aborted (R205). -/
def SLV_MDLMISS : RF := ⟨0x1305c, 0x0, 0, 32⟩
/-- SLV_MDLMCCk (R217, 07_solver.md): MCC of the release of arm k's latest committed results. -/
def SLV_MDLMCC (k : Nat) : RF := ⟨0x13060 + 4 * k, 0x0, 0, 32⟩
/-- SSM_CFG (R254, 08_separation.md): monitor settings. -/
def SSM_CFG : RF := ⟨0x14000, 0x13886400, 0, 32⟩
def SSM_CFG_VGROW : RF := ⟨0x14000, 0x13886400, 16, 16⟩
def SSM_CFG_VH : RF := ⟨0x14000, 0x13886400, 4, 12⟩
def SSM_CFG_EN : RF := ⟨0x14000, 0x13886400, 0, 1⟩
/-- SSM_STS (R254, 08_separation.md): monitor status. -/
def SSM_STS : RF := ⟨0x14010, 0x0, 0, 32⟩
def SSM_STS_YSUB : RF := ⟨0x14010, 0x0, 12, 4⟩
def SSM_STS_WITERR : RF := ⟨0x14010, 0x0, 11, 1⟩
def SSM_STS_FKERR : RF := ⟨0x14010, 0x0, 10, 1⟩
def SSM_STS_YERR : RF := ⟨0x14010, 0x0, 9, 1⟩
def SSM_STS_OVRUN : RF := ⟨0x14010, 0x0, 8, 1⟩
def SSM_STS_RUN : RF := ⟨0x14010, 0x0, 0, 1⟩
/-- SSM_TR (R254, 08_separation.md): Reaction time T_r, ns. -/
def SSM_TR : RF := ⟨0x14004, 0x27100, 0, 32⟩
/-- SSM_YTOL (R254, 08_separation.md): Recompute and FK tolerances, µm. -/
def SSM_YTOL : RF := ⟨0x14008, 0x13880020, 0, 32⟩
def SSM_YTOL_DTOL : RF := ⟨0x14008, 0x13880020, 0, 16⟩
def SSM_YTOL_FKTOL : RF := ⟨0x14008, 0x13880020, 16, 16⟩
/-- SSM_ABSN (R254, 08_separation.md): Absent records tolerated, 1 to 7; bits 31:3 reserved. -/
def SSM_ABSN : RF := ⟨0x1400c, 0x2, 0, 32⟩
def SSM_ABSN_ABSN : RF := ⟨0x1400c, 0x2, 0, 3⟩
/-- SSM_SEQ (R254, 08_separation.md): Evaluations committed; snapshot sequence. -/
def SSM_SEQ : RF := ⟨0x14014, 0x0, 0, 32⟩
/-- SSM_VVAL (R254, 08_separation.md): Bit v: volume v in use. -/
def SSM_VVAL : RF := ⟨0x14018, 0x0, 0, 32⟩
/-- SSM_VSLOST (R254, 08_separation.md): Bit s: source s lost; bits 31:8 reserved. -/
def SSM_VSLOST : RF := ⟨0x1401c, 0x0, 0, 32⟩
def SSM_VSLOST_LOST : RF := ⟨0x1401c, 0x0, 0, 8⟩
/-- SSM_ETIME (R254, 08_separation.md): Evaluation time, 16 ns units. -/
def SSM_ETIME : RF := ⟨0x14020, 0x0, 0, 32⟩
def SSM_ETIME_LAST : RF := ⟨0x14020, 0x0, 0, 16⟩
def SSM_ETIME_MAX : RF := ⟨0x14020, 0x0, 16, 16⟩
/-- SSM_VSRCs (R254, 08_separation.md): volume source. -/
def SSM_VSRC (k : Nat) : RF := ⟨0x14100 + 16 * k, 0x0, 0, 32⟩
def SSM_VSRC_EN (k : Nat) : RF := ⟨0x14100 + 16 * k, 0x0, 31, 1⟩
def SSM_VSRC_CONN (k : Nat) : RF := ⟨0x14100 + 16 * k, 0x0, 24, 7⟩
def SSM_VSRC_VBASE (k : Nat) : RF := ⟨0x14100 + 16 * k, 0x0, 19, 5⟩
def SSM_VSRC_NV (k : Nat) : RF := ⟨0x14100 + 16 * k, 0x0, 15, 4⟩
def SSM_VSRC_COVEN (k : Nat) : RF := ⟨0x14100 + 16 * k, 0x0, 7, 1⟩
def SSM_VSRC_COVZ (k : Nat) : RF := ⟨0x14100 + 16 * k, 0x0, 0, 6⟩
/-- SSM_VPARs (R254, 08_separation.md): Intrusion distance and position uncertainty, mm. -/
def SSM_VPAR (k : Nat) : RF := ⟨0x14104 + 16 * k, 0x0, 0, 32⟩
def SSM_VPAR_C (k : Nat) : RF := ⟨0x14104 + 16 * k, 0x0, 0, 16⟩
def SSM_VPAR_ZD (k : Nat) : RF := ⟨0x14104 + 16 * k, 0x0, 16, 16⟩
/-- SSM_VLATs (R254, 08_separation.md): Sensor latency, µs; bits 31:20 reserved. -/
def SSM_VLAT (k : Nat) : RF := ⟨0x14108 + 16 * k, 0x0, 0, 32⟩
def SSM_VLAT_TSENS (k : Nat) : RF := ⟨0x14108 + 16 * k, 0x0, 0, 20⟩
/-- SSM_VSTSs (R254, 08_separation.md): Source lost. -/
def SSM_VSTS (k : Nat) : RF := ⟨0x1410c + 16 * k, 0x0, 0, 32⟩
def SSM_VSTS_LOST (k : Nat) : RF := ⟨0x1410c + 16 * k, 0x0, 0, 1⟩
def SSM_VSTS_NVAL (k : Nat) : RF := ⟨0x1410c + 16 * k, 0x0, 8, 8⟩
def SSM_VSTS_ACC (k : Nat) : RF := ⟨0x1410c + 16 * k, 0x0, 16, 16⟩
/-- SSM_ACFGk (R254, 08_separation.md): arm monitoring. -/
def SSM_ACFG (k : Nat) : RF := ⟨0x14400 + 128 * k, 0x0, 0, 32⟩
def SSM_ACFG_PRIO (k : Nat) : RF := ⟨0x14400 + 128 * k, 0x0, 16, 8⟩
def SSM_ACFG_NCAP (k : Nat) : RF := ⟨0x14400 + 128 * k, 0x0, 4, 5⟩
def SSM_ACFG_LEVEL (k : Nat) : RF := ⟨0x14400 + 128 * k, 0x0, 1, 1⟩
def SSM_ACFG_EN (k : Nat) : RF := ⟨0x14400 + 128 * k, 0x0, 0, 1⟩
/-- SSM_ASTSk (R254, 08_separation.md): arm result. -/
def SSM_ASTS (k : Nat) : RF := ⟨0x1440c + 128 * k, 0x0, 0, 32⟩
def SSM_ASTS_MIDX (k : Nat) : RF := ⟨0x1440c + 128 * k, 0x0, 16, 8⟩
def SSM_ASTS_MKIND (k : Nat) : RF := ⟨0x1440c + 128 * k, 0x0, 8, 3⟩
def SSM_ASTS_PVIOL (k : Nat) : RF := ⟨0x1440c + 128 * k, 0x0, 4, 1⟩
def SSM_ASTS_AAVIOL (k : Nat) : RF := ⟨0x1440c + 128 * k, 0x0, 3, 1⟩
def SSM_ASTS_ZVIOL (k : Nat) : RF := ⟨0x1440c + 128 * k, 0x0, 2, 1⟩
def SSM_ASTS_YIELD (k : Nat) : RF := ⟨0x1440c + 128 * k, 0x0, 1, 1⟩
def SSM_ASTS_STOP (k : Nat) : RF := ⟨0x1440c + 128 * k, 0x0, 0, 1⟩
/-- SSM_TCLk (R254, 08_separation.md): Command latency, ns. -/
def SSM_TCL (k : Nat) : RF := ⟨0x14404 + 128 * k, 0x7d00, 0, 32⟩
/-- SSM_APARk (R254, 08_separation.md): Z_r and arm clearance, mm. -/
def SSM_APAR (k : Nat) : RF := ⟨0x14408 + 128 * k, 0x0, 0, 32⟩
def SSM_APAR_ZR (k : Nat) : RF := ⟨0x14408 + 128 * k, 0x0, 0, 16⟩
def SSM_APAR_AACLR (k : Nat) : RF := ⟨0x14408 + 128 * k, 0x0, 16, 16⟩
/-- SSM_AMARGk (R254, 08_separation.md): Arm margin, signed µm. -/
def SSM_AMARG (k : Nat) : RF := ⟨0x14410 + 128 * k, 0x0, 0, 32⟩
/-- SSM_ATSk (R254, 08_separation.md): T_s used, ns. -/
def SSM_ATS (k : Nat) : RF := ⟨0x14414 + 128 * k, 0x0, 0, 32⟩
/-- SSM_ABNDk (R254, 08_separation.md): Largest b(e), µm. -/
def SSM_ABND (k : Nat) : RF := ⟨0x14418 + 128 * k, 0x0, 0, 32⟩
/-- SSM_AFACTk (R254, 08_separation.md): Factor written; bits 31:13 reserved. -/
def SSM_AFACT (k : Nat) : RF := ⟨0x1441c + 128 * k, 0x0, 0, 32⟩
def SSM_AFACT_FACT (k : Nat) : RF := ⟨0x1441c + 128 * k, 0x0, 0, 13⟩
/-- SSM_OVTk_e (R254, 08_separation.md): Override table: margin mm, factor. -/
def SSM_OVT0 (k : Nat) : RF := ⟨0x14420 + 128 * k, 0x1000, 0, 32⟩
def SSM_OVT0_THR (k : Nat) : RF := ⟨0x14420 + 128 * k, 0x1000, 13, 19⟩
def SSM_OVT0_FACT (k : Nat) : RF := ⟨0x14420 + 128 * k, 0x1000, 0, 13⟩
/-- SSM_OVTk_e (R254, 08_separation.md): Override table: margin mm, factor. -/
def SSM_OVTN (k e : Nat) : RF := ⟨0x14424 + 128 * k + 4 * e, 0x0, 0, 32⟩
def SSM_OVTN_THR (k e : Nat) : RF := ⟨0x14424 + 128 * k + 4 * e, 0x0, 13, 19⟩
def SSM_OVTN_FACT (k e : Nat) : RF := ⟨0x14424 + 128 * k + 4 * e, 0x0, 0, 13⟩
/-- SSM_STMk_e (R254, 08_separation.md): Stopping model: basic cycles, override; ascending OVR; unused at basic level. -/
def SSM_STM (k e : Nat) : RF := ⟨0x14440 + 128 * k + 4 * e, 0x0, 0, 32⟩
def SSM_STM_TIME (k e : Nat) : RF := ⟨0x14440 + 128 * k + 4 * e, 0x0, 13, 19⟩
def SSM_STM_OVR (k e : Nat) : RF := ⟨0x14440 + 128 * k + 4 * e, 0x0, 0, 13⟩
/-- SSM_JKQj (R254, 08_separation.md): µrad or µm per count, × 2²⁴, signed. -/
def SSM_JKQ (k : Nat) : RF := ⟨0x14800 + 16 * k, 0x0, 0, 32⟩
/-- SSM_JQ0j (R254, 08_separation.md): Coordinate offset, µrad or µm, signed. -/
def SSM_JQ0 (k : Nat) : RF := ⟨0x14804 + 16 * k, 0x0, 0, 32⟩
/-- SSM_JLIMj (R254, 08_separation.md): α in mrad/s² or mm/s²; ω_max in mrad/s or mm/s. -/
def SSM_JLIM (k : Nat) : RF := ⟨0x14808 + 16 * k, 0x0, 0, 32⟩
def SSM_JLIM_ACC (k : Nat) : RF := ⟨0x14808 + 16 * k, 0x0, 0, 16⟩
def SSM_JLIM_VMAX (k : Nat) : RF := ⟨0x14808 + 16 * k, 0x0, 16, 16⟩
/-- SSM_JQj (R254, 08_separation.md): Safety coordinate q, signed. -/
def SSM_JQ (k : Nat) : RF := ⟨0x1480c + 16 * k, 0x0, 0, 32⟩
/-- ZTK_CFG (R254, 08_separation.md): token settings. -/
def ZTK_CFG : RF := ⟨0x15000, 0x40080000, 0, 32⟩
def ZTK_CFG_TMO : RF := ⟨0x15000, 0x40080000, 24, 8⟩
def ZTK_CFG_LOSTT : RF := ⟨0x15000, 0x40080000, 16, 8⟩
def ZTK_CFG_EN : RF := ⟨0x15000, 0x40080000, 8, 1⟩
def ZTK_CFG_CCH : RF := ⟨0x15000, 0x40080000, 0, 4⟩
/-- ZTK_ACMD (R254, 08_separation.md): arm token command. -/
def ZTK_ACMD : RF := ⟨0x15008, 0x0, 0, 32⟩
def ZTK_ACMD_CMD : RF := ⟨0x15008, 0x0, 12, 4⟩
def ZTK_ACMD_ARM : RF := ⟨0x15008, 0x0, 8, 3⟩
def ZTK_ACMD_ZONE : RF := ⟨0x15008, 0x0, 0, 6⟩
/-- ZTK_RECOV (R254, 08_separation.md): token recovery (R250). -/
def ZTK_RECOV : RF := ⟨0x1500c, 0x0, 0, 32⟩
def ZTK_RECOV_CODE : RF := ⟨0x1500c, 0x0, 16, 16⟩
def ZTK_RECOV_ARM : RF := ⟨0x1500c, 0x0, 8, 3⟩
def ZTK_RECOV_ZONE : RF := ⟨0x1500c, 0x0, 0, 6⟩
/-- ZTK_EPOCH (R254, 08_separation.md): Compatible epochs (R251). -/
def ZTK_EPOCH : RF := ⟨0x15004, 0xffff0000, 0, 32⟩
def ZTK_EPOCH_MINEP : RF := ⟨0x15004, 0xffff0000, 0, 16⟩
def ZTK_EPOCH_MAXEP : RF := ⟨0x15004, 0xffff0000, 16, 16⟩
/-- ZTK_RSTS (R254, 08_separation.md): 0x1 = done, 0x2 = wrong code, 0x3 = reset input not qualified, 0x4 = holder present, 0x5 =. -/
def ZTK_RSTS : RF := ⟨0x15010, 0x0, 0, 32⟩
def ZTK_RSTS_RC : RF := ⟨0x15010, 0x0, 0, 4⟩
/-- ZTK_MOVES (R254, 08_separation.md): Moves originated by this channel. -/
def ZTK_MOVES : RF := ⟨0x15014, 0x0, 0, 32⟩
/-- ZTK_EXCL_LO (R254, 08_separation.md): Bit n: node Nn excluded. -/
def ZTK_EXCL_LO : RF := ⟨0x15018, 0x0, 0, 32⟩
/-- ZTK_EXCL_HI (R254, 08_separation.md): Bit n: node Nn excluded. -/
def ZTK_EXCL_HI : RF := ⟨0x1501c, 0x0, 0, 32⟩
/-- ZTK_INCOMP_LO (R254, 08_separation.md): Bit n: node Nn epoch incompatible. -/
def ZTK_INCOMP_LO : RF := ⟨0x15020, 0x0, 0, 32⟩
/-- ZTK_INCOMP_HI (R254, 08_separation.md): Bit n: node Nn epoch incompatible. -/
def ZTK_INCOMP_HI : RF := ⟨0x15024, 0x0, 0, 32⟩
/-- ZTK_HELDk_LO (R254, 08_separation.md): Bit z: arm k holds zone z. -/
def ZTK_HELD_LO (k : Nat) : RF := ⟨0x15040 + 8 * k, 0x0, 0, 32⟩
/-- ZTK_HELDk_HI (R254, 08_separation.md): Bit z: arm k holds zone z. -/
def ZTK_HELD_HI (k : Nat) : RF := ⟨0x15044 + 8 * k, 0x0, 0, 32⟩
/-- ZTK_ZCFGz (R254, 08_separation.md): zone roles. -/
def ZTK_ZCFG (k : Nat) : RF := ⟨0x15100 + 16 * k, 0xff0000, 0, 32⟩
def ZTK_ZCFG_OCC (k : Nat) : RF := ⟨0x15100 + 16 * k, 0xff0000, 16, 8⟩
def ZTK_ZCFG_HOMEARM (k : Nat) : RF := ⟨0x15100 + 16 * k, 0xff0000, 12, 3⟩
def ZTK_ZCFG_HOMECCH (k : Nat) : RF := ⟨0x15100 + 16 * k, 0xff0000, 8, 4⟩
def ZTK_ZCFG_AUTO (k : Nat) : RF := ⟨0x15100 + 16 * k, 0xff0000, 2, 1⟩
def ZTK_ZCFG_TOKEN (k : Nat) : RF := ⟨0x15100 + 16 * k, 0xff0000, 1, 1⟩
def ZTK_ZCFG_EN (k : Nat) : RF := ⟨0x15100 + 16 * k, 0xff0000, 0, 1⟩
/-- ZTK_ZSTSz (R254, 08_separation.md): ledger entry. -/
def ZTK_ZSTS (k : Nat) : RF := ⟨0x15108 + 16 * k, 0x0, 0, 32⟩
def ZTK_ZSTS_REQPEND (k : Nat) : RF := ⟨0x15108 + 16 * k, 0x0, 24, 1⟩
def ZTK_ZSTS_TARM (k : Nat) : RF := ⟨0x15108 + 16 * k, 0x0, 20, 3⟩
def ZTK_ZSTS_TCCH (k : Nat) : RF := ⟨0x15108 + 16 * k, 0x0, 16, 4⟩
def ZTK_ZSTS_HARM (k : Nat) : RF := ⟨0x15108 + 16 * k, 0x0, 12, 3⟩
def ZTK_ZSTS_HCCH (k : Nat) : RF := ⟨0x15108 + 16 * k, 0x0, 8, 4⟩
def ZTK_ZSTS_EXCL (k : Nat) : RF := ⟨0x15108 + 16 * k, 0x0, 4, 1⟩
def ZTK_ZSTS_OCC (k : Nat) : RF := ⟨0x15108 + 16 * k, 0x0, 3, 1⟩
def ZTK_ZSTS_STATE (k : Nat) : RF := ⟨0x15108 + 16 * k, 0x0, 0, 3⟩
/-- ZTK_ZPARz (R254, 08_separation.md): Intrusion distance and request approach, mm. -/
def ZTK_ZPAR (k : Nat) : RF := ⟨0x15104 + 16 * k, 0x0, 0, 32⟩
def ZTK_ZPAR_C (k : Nat) : RF := ⟨0x15104 + 16 * k, 0x0, 0, 16⟩
def ZTK_ZPAR_APPR (k : Nat) : RF := ⟨0x15104 + 16 * k, 0x0, 16, 16⟩
/-- ZTK_ZMOVEz (R254, 08_separation.md): Move number. -/
def ZTK_ZMOVE (k : Nat) : RF := ⟨0x1510c + 16 * k, 0x0, 0, 32⟩
/-- SAF_CFG (R292, 09_safety.md): island settings. -/
def SAF_CFG : RF := ⟨0x16000, 0xa0000, 0, 32⟩
def SAF_CFG_RSTWIN : RF := ⟨0x16000, 0xa0000, 16, 8⟩
def SAF_CFG_RSTFB : RF := ⟨0x16000, 0xa0000, 8, 4⟩
def SAF_CFG_LEVEL : RF := ⟨0x16000, 0xa0000, 0, 1⟩
/-- SAF_STS (R292, 09_safety.md): island status. -/
def SAF_STS : RF := ⟨0x16004, 0x0, 0, 32⟩
def SAF_STS_TPERR : RF := ⟨0x16004, 0x0, 7, 1⟩
def SAF_STS_DISCERR : RF := ⟨0x16004, 0x0, 6, 1⟩
def SAF_STS_OSTERR : RF := ⟨0x16004, 0x0, 5, 1⟩
def SAF_STS_CLKERR : RF := ⟨0x16004, 0x0, 4, 1⟩
def SAF_STS_XYERR : RF := ⟨0x16004, 0x0, 3, 1⟩
def SAF_STS_RSTQ : RF := ⟨0x16004, 0x0, 0, 1⟩
/-- SAF_SIN (R292, 09_safety.md): Filtered levels, X path; bits 31:20 reserved. -/
def SAF_SIN : RF := ⟨0x16008, 0x0, 0, 32⟩
def SAF_SIN_SIN : RF := ⟨0x16008, 0x0, 0, 20⟩
/-- SAF_SIRAW (R292, 09_safety.md): Last raw samples; bits 31:20 reserved. -/
def SAF_SIRAW : RF := ⟨0x1600c, 0x0, 0, 32⟩
def SAF_SIRAW_RAW : RF := ⟨0x1600c, 0x0, 0, 20⟩
/-- SAF_SIGq (R292, 09_safety.md): Bit s is signal 32q + s (R262). -/
def SAF_SIG (k : Nat) : RF := ⟨0x16010 + 4 * k, 0x0, 0, 32⟩
/-- SAF_TPCFG (R292, 09_safety.md): Test-pulse period, ms, 1 to 100. -/
def SAF_TPCFG : RF := ⟨0x16024, 0xa0a, 0, 32⟩
def SAF_TPCFG_PER : RF := ⟨0x16024, 0xa0a, 0, 8⟩
def SAF_TPCFG_WID : RF := ⟨0x16024, 0xa0a, 8, 8⟩
def SAF_TPCFG_EN : RF := ⟨0x16024, 0xa0a, 16, 4⟩
/-- SAF_SOSTS (R292, 09_safety.md): Pairs energised, permissives; bits 31:16 reserved. -/
def SAF_SOSTS : RF := ⟨0x16028, 0x0, 0, 32⟩
def SAF_SOSTS_ENG : RF := ⟨0x16028, 0x0, 0, 8⟩
def SAF_SOSTS_PERM : RF := ⟨0x16028, 0x0, 8, 8⟩
/-- SAF_RTON_LO (R292, 09_safety.md): Bit j: torque-on bit last sent for joint j. -/
def SAF_RTON_LO : RF := ⟨0x16030, 0x0, 0, 32⟩
/-- SAF_RTON_HI (R292, 09_safety.md): Bit j: torque-on bit last sent for joint j. -/
def SAF_RTON_HI : RF := ⟨0x16034, 0x0, 0, 32⟩
/-- SAF_UDP (R292, 09_safety.md): Plant-port UDP port; bits 31:16 reserved. -/
def SAF_UDP : RF := ⟨0x16040, 0x2a5c, 0, 32⟩
def SAF_UDP_PORT : RF := ⟨0x16040, 0x2a5c, 0, 16⟩
/-- SAF_PDST (R292, 09_safety.md): IPv4 destination of produced plant containers. -/
def SAF_PDST : RF := ⟨0x16044, 0x0, 0, 32⟩
/-- SAF_UNKCID (R292, 09_safety.md): Containers with an unknown CID. -/
def SAF_UNKCID : RF := ⟨0x16048, 0x0, 0, 32⟩
/-- SAF_SIFLTi (R292, 09_safety.md): input i. -/
def SAF_SIFLT (k : Nat) : RF := ⟨0x16100 + 4 * k, 0x64, 0, 32⟩
def SAF_SIFLT_EN (k : Nat) : RF := ⟨0x16100 + 4 * k, 0x64, 15, 1⟩
def SAF_SIFLT_TP (k : Nat) : RF := ⟨0x16100 + 4 * k, 0x64, 12, 3⟩
def SAF_SIFLT_FLT (k : Nat) : RF := ⟨0x16100 + 4 * k, 0x64, 0, 9⟩
/-- SAF_FBCFGf (R292, 09_safety.md): block type. -/
def SAF_FBCFG (k : Nat) : RF := ⟨0x16200 + 16 * k, 0x0, 0, 32⟩
def SAF_FBCFG_RFB (k : Nat) : RF := ⟨0x16200 + 16 * k, 0x0, 8, 4⟩
def SAF_FBCFG_LOCKEN (k : Nat) : RF := ⟨0x16200 + 16 * k, 0x0, 6, 1⟩
def SAF_FBCFG_RST (k : Nat) : RF := ⟨0x16200 + 16 * k, 0x0, 5, 1⟩
def SAF_FBCFG_ANTI (k : Nat) : RF := ⟨0x16200 + 16 * k, 0x0, 4, 1⟩
def SAF_FBCFG_TYPE (k : Nat) : RF := ⟨0x16200 + 16 * k, 0x0, 0, 4⟩
/-- SAF_FBSTSf (R292, 09_safety.md): block status. -/
def SAF_FBSTS (k : Nat) : RF := ⟨0x1620c + 16 * k, 0x0, 0, 32⟩
def SAF_FBSTS_DEM (k : Nat) : RF := ⟨0x1620c + 16 * k, 0x0, 16, 16⟩
def SAF_FBSTS_TPERR (k : Nat) : RF := ⟨0x1620c + 16 * k, 0x0, 5, 1⟩
def SAF_FBSTS_PRESS (k : Nat) : RF := ⟨0x1620c + 16 * k, 0x0, 4, 1⟩
def SAF_FBSTS_LATE (k : Nat) : RF := ⟨0x1620c + 16 * k, 0x0, 3, 1⟩
def SAF_FBSTS_DISC (k : Nat) : RF := ⟨0x1620c + 16 * k, 0x0, 2, 1⟩
def SAF_FBSTS_WAITRST (k : Nat) : RF := ⟨0x1620c + 16 * k, 0x0, 1, 1⟩
def SAF_FBSTS_OUT (k : Nat) : RF := ⟨0x1620c + 16 * k, 0x0, 0, 1⟩
/-- SAF_FBINf (R292, 09_safety.md): Signal codes. -/
def SAF_FBIN (k : Nat) : RF := ⟨0x16204 + 16 * k, 0x1e1e1e1e, 0, 32⟩
def SAF_FBIN_IN0 (k : Nat) : RF := ⟨0x16204 + 16 * k, 0x1e1e1e1e, 0, 7⟩
def SAF_FBIN_IN1 (k : Nat) : RF := ⟨0x16204 + 16 * k, 0x1e1e1e1e, 8, 7⟩
def SAF_FBIN_IN2 (k : Nat) : RF := ⟨0x16204 + 16 * k, 0x1e1e1e1e, 16, 7⟩
def SAF_FBIN_IN3 (k : Nat) : RF := ⟨0x16204 + 16 * k, 0x1e1e1e1e, 24, 7⟩
/-- SAF_FBTIMf (R292, 09_safety.md): Times, ms (R263). -/
def SAF_FBTIM (k : Nat) : RF := ⟨0x16208 + 16 * k, 0x0, 0, 32⟩
def SAF_FBTIM_T0 (k : Nat) : RF := ⟨0x16208 + 16 * k, 0x0, 0, 16⟩
def SAF_FBTIM_T1 (k : Nat) : RF := ⟨0x16208 + 16 * k, 0x0, 16, 16⟩
/-- SAF_STOCFGg (R292, 09_safety.md): group permissive. -/
def SAF_STOCFG (k : Nat) : RF := ⟨0x16400 + 16 * k, 0x1e0000, 0, 32⟩
def SAF_STOCFG_EN (k : Nat) : RF := ⟨0x16400 + 16 * k, 0x1e0000, 31, 1⟩
def SAF_STOCFG_CAT (k : Nat) : RF := ⟨0x16400 + 16 * k, 0x1e0000, 24, 1⟩
def SAF_STOCFG_SIG (k : Nat) : RF := ⟨0x16400 + 16 * k, 0x1e0000, 16, 7⟩
def SAF_STOCFG_FBMASK (k : Nat) : RF := ⟨0x16400 + 16 * k, 0x1e0000, 0, 16⟩
/-- SAF_STOSTSg (R292, 09_safety.md): group status. -/
def SAF_STOSTS (k : Nat) : RF := ⟨0x16408 + 16 * k, 0x0, 0, 32⟩
def SAF_STOSTS_DEM (k : Nat) : RF := ⟨0x16408 + 16 * k, 0x0, 16, 16⟩
def SAF_STOSTS_WAITCLR (k : Nat) : RF := ⟨0x16408 + 16 * k, 0x0, 3, 1⟩
def SAF_STOSTS_SS1 (k : Nat) : RF := ⟨0x16408 + 16 * k, 0x0, 2, 1⟩
def SAF_STOSTS_PERM (k : Nat) : RF := ⟨0x16408 + 16 * k, 0x0, 1, 1⟩
def SAF_STOSTS_ENG (k : Nat) : RF := ⟨0x16408 + 16 * k, 0x0, 0, 1⟩
/-- SAF_STOTg (R292, 09_safety.md): SS1-t time, 10 ms, 1 to 1,000; bits 31:10 reserved. -/
def SAF_STOT (k : Nat) : RF := ⟨0x16404 + 16 * k, 0x32, 0, 32⟩
def SAF_STOT_SS1T (k : Nat) : RF := ⟨0x16404 + 16 * k, 0x32, 0, 10⟩
/-- SAF_SOCFGn (R292, 09_safety.md): As SAF_STOCFGg. -/
def SAF_SOCFG (k : Nat) : RF := ⟨0x16440 + 4 * k, 0x1e0000, 0, 32⟩
def SAF_SOCFG_FBMASK (k : Nat) : RF := ⟨0x16440 + 4 * k, 0x1e0000, 0, 16⟩
def SAF_SOCFG_SIG (k : Nat) : RF := ⟨0x16440 + 4 * k, 0x1e0000, 16, 7⟩
def SAF_SOCFG_EN (k : Nat) : RF := ⟨0x16440 + 4 * k, 0x1e0000, 31, 1⟩
/-- SAF_JGRPq (R292, 09_safety.md): Bits 2i + 1 to 2i: group of joint 16q + i. -/
def SAF_JGRP (k : Nat) : RF := ⟨0x16500 + 4 * k, 0x0, 0, 32⟩
/-- SAF_SMAPb (R292, 09_safety.md): Source of MBb. -/
def SAF_SMAP (k : Nat) : RF := ⟨0x16520 + 4 * k, 0x0, 0, 32⟩
def SAF_SMAP_CONN (k : Nat) : RF := ⟨0x16520 + 4 * k, 0x0, 0, 7⟩
def SAF_SMAP_BYTE (k : Nat) : RF := ⟨0x16520 + 4 * k, 0x0, 8, 6⟩
def SAF_SMAP_BIT (k : Nat) : RF := ⟨0x16520 + 4 * k, 0x0, 16, 3⟩
def SAF_SMAP_EN (k : Nat) : RF := ⟨0x16520 + 4 * k, 0x0, 31, 1⟩
/-- SAF_LTPOS_0 (R292, 09_safety.md): Signals 32w to 32w + 31 required at 1, w = 0 to 3. -/
def SAF_LTPOS_0 (k : Nat) : RF := ⟨0x16800 + 32 * k, 0x0, 0, 32⟩
/-- SAF_LTPOS_1 (R292, 09_safety.md): Signals 32w to 32w + 31 required at 1, w = 0 to 3. -/
def SAF_LTPOS_1 (k : Nat) : RF := ⟨0x16804 + 32 * k, 0x0, 0, 32⟩
/-- SAF_LTPOS_2 (R292, 09_safety.md): Signals 32w to 32w + 31 required at 1, w = 0 to 3. -/
def SAF_LTPOS_2 (k : Nat) : RF := ⟨0x16808 + 32 * k, 0x0, 0, 32⟩
/-- SAF_LTPOS_3 (R292, 09_safety.md): Signals 32w to 32w + 31 required at 1, w = 0 to 3. -/
def SAF_LTPOS_3 (k : Nat) : RF := ⟨0x1680c + 32 * k, 0x0, 0, 32⟩
/-- SAF_LTNEG_0 (R292, 09_safety.md): Signals required at 0. -/
def SAF_LTNEG_0 (k : Nat) : RF := ⟨0x16810 + 32 * k, 0x0, 0, 32⟩
/-- SAF_LTNEG_1 (R292, 09_safety.md): Signals required at 0. -/
def SAF_LTNEG_1 (k : Nat) : RF := ⟨0x16814 + 32 * k, 0x0, 0, 32⟩
/-- SAF_LTNEG_2 (R292, 09_safety.md): Signals required at 0. -/
def SAF_LTNEG_2 (k : Nat) : RF := ⟨0x16818 + 32 * k, 0x0, 0, 32⟩
/-- SAF_LTNEG_3 (R292, 09_safety.md): Signals required at 0. -/
def SAF_LTNEG_3 (k : Nat) : RF := ⟨0x1681c + 32 * k, 0x0, 0, 32⟩
/-- SAF_LORm_LO (R292, 09_safety.md): Bit t: term t ORed into Om. -/
def SAF_LOR_LO (k : Nat) : RF := ⟨0x17000 + 8 * k, 0x0, 0, 32⟩
/-- SAF_LORm_HI (R292, 09_safety.md): Bit t: term t ORed into Om. -/
def SAF_LOR_HI (k : Nat) : RF := ⟨0x17004 + 8 * k, 0x0, 0, 32⟩
/-- SCX_CFG (R292, 09_safety.md): connection setting. -/
def SCX_CFG (k : Nat) : RF := ⟨0x18000 + 64 * k, 0x1, 0, 32⟩
def SCX_CFG_EN (k : Nat) : RF := ⟨0x18000 + 64 * k, 0x1, 31, 1⟩
def SCX_CFG_DIR (k : Nat) : RF := ⟨0x18000 + 64 * k, 0x1, 30, 1⟩
def SCX_CFG_PATH (k : Nat) : RF := ⟨0x18000 + 64 * k, 0x1, 29, 1⟩
def SCX_CFG_TSCHK (k : Nat) : RF := ⟨0x18000 + 64 * k, 0x1, 28, 1⟩
def SCX_CFG_PIDSEL (k : Nat) : RF := ⟨0x18000 + 64 * k, 0x1, 27, 1⟩
def SCX_CFG_KIND (k : Nat) : RF := ⟨0x18000 + 64 * k, 0x1, 24, 3⟩
def SCX_CFG_LEN (k : Nat) : RF := ⟨0x18000 + 64 * k, 0x1, 16, 6⟩
def SCX_CFG_NODE (k : Nat) : RF := ⟨0x18000 + 64 * k, 0x1, 8, 6⟩
def SCX_CFG_PER (k : Nat) : RF := ⟨0x18000 + 64 * k, 0x1, 0, 8⟩
/-- SCX_STS (R292, 09_safety.md): connection status. -/
def SCX_STS (k : Nat) : RF := ⟨0x18018 + 64 * k, 0x0, 0, 32⟩
def SCX_STS_EXP (k : Nat) : RF := ⟨0x18018 + 64 * k, 0x0, 9, 1⟩
def SCX_STS_REF (k : Nat) : RF := ⟨0x18018 + 64 * k, 0x0, 8, 1⟩
def SCX_STS_LASTREF (k : Nat) : RF := ⟨0x18018 + 64 * k, 0x0, 4, 4⟩
def SCX_STS_STATE (k : Nat) : RF := ⟨0x18018 + 64 * k, 0x0, 0, 2⟩
/-- SCX_CID (R292, 09_safety.md): Connection ID; sequence window 1 to 255; bits 31:24 reserved. -/
def SCX_CID (k : Nat) : RF := ⟨0x18004 + 64 * k, 0x40000, 0, 32⟩
def SCX_CID_CID (k : Nat) : RF := ⟨0x18004 + 64 * k, 0x40000, 0, 16⟩
def SCX_CID_SEQWIN (k : Nat) : RF := ⟨0x18004 + 64 * k, 0x40000, 16, 8⟩
/-- SCX_PID_LO (R292, 09_safety.md): Expected or configured producer identity. -/
def SCX_PID_LO (k : Nat) : RF := ⟨0x18008 + 64 * k, 0x0, 0, 32⟩
/-- SCX_PID_HI (R292, 09_safety.md): Expected or configured producer identity. -/
def SCX_PID_HI (k : Nat) : RF := ⟨0x1800c + 64 * k, 0x0, 0, 32⟩
/-- SCX_WD (R292, 09_safety.md): Watchdog, µs, 128 to 1,000,000; bits 31:20 reserved. -/
def SCX_WD (k : Nat) : RF := ⟨0x18010 + 64 * k, 0x4e20, 0, 32⟩
def SCX_WD_WD (k : Nat) : RF := ⟨0x18010 + 64 * k, 0x4e20, 0, 20⟩
/-- SCX_TSTOL (R292, 09_safety.md): Accepted lead of TS, µs; bits 31:20 reserved. -/
def SCX_TSTOL (k : Nat) : RF := ⟨0x18014 + 64 * k, 0x3e8, 0, 32⟩
def SCX_TSTOL_TOL (k : Nat) : RF := ⟨0x18014 + 64 * k, 0x3e8, 0, 20⟩
/-- SCX_SEQ (R292, 09_safety.md): Last SEQ accepted or sent; skipped numbers, modulo 2¹⁶. -/
def SCX_SEQ (k : Nat) : RF := ⟨0x1801c + 64 * k, 0x0, 0, 32⟩
def SCX_SEQ_LAST (k : Nat) : RF := ⟨0x1801c + 64 * k, 0x0, 0, 16⟩
def SCX_SEQ_GAP (k : Nat) : RF := ⟨0x1801c + 64 * k, 0x0, 16, 16⟩
/-- SCX_ACC (R292, 09_safety.md): Containers accepted or sent. -/
def SCX_ACC (k : Nat) : RF := ⟨0x18020 + 64 * k, 0x0, 0, 32⟩
/-- SCX_REFC (R292, 09_safety.md): Refusals by cause; saturate at 0xFF. -/
def SCX_REFC (k : Nat) : RF := ⟨0x18024 + 64 * k, 0x0, 0, 32⟩
def SCX_REFC_CRC (k : Nat) : RF := ⟨0x18024 + 64 * k, 0x0, 0, 8⟩
def SCX_REFC_ID (k : Nat) : RF := ⟨0x18024 + 64 * k, 0x0, 8, 8⟩
def SCX_REFC_SEQ (k : Nat) : RF := ⟨0x18024 + 64 * k, 0x0, 16, 8⟩
def SCX_REFC_TIME (k : Nat) : RF := ⟨0x18024 + 64 * k, 0x0, 24, 8⟩
/-- SCX_EXP (R292, 09_safety.md): Watchdog expiries. -/
def SCX_EXP (k : Nat) : RF := ⟨0x18028 + 64 * k, 0x0, 0, 32⟩
/-- SCX_LACC (R292, 09_safety.md): Cell time of the last acceptance, ns, low word. -/
def SCX_LACC (k : Nat) : RF := ⟨0x1802c + 64 * k, 0x0, 0, 32⟩
/-- SCX_EXPVq (R292, 09_safety.md): Kind 0x2: byte b names the signal of payload bit 4q + b, q = 0 to 3. -/
def SCX_EXPV (k e : Nat) : RF := ⟨0x18030 + 64 * k + 4 * e, 0x1e1e1e1e, 0, 32⟩
/-- CBUS_CFG (R319, 10_cell_bus.md): node identity. -/
def CBUS_CFG : RF := ⟨0x1a000, 0x0, 0, 32⟩
def CBUS_CFG_EN : RF := ⟨0x1a000, 0x0, 8, 1⟩
def CBUS_CFG_NODE : RF := ⟨0x1a000, 0x0, 0, 6⟩
/-- CBUS_STS (R319, 10_cell_bus.md): ring status. -/
def CBUS_STS : RF := ⟨0x1a004, 0x0, 0, 32⟩
def CBUS_STS_REFN : RF := ⟨0x1a004, 0x0, 24, 6⟩
def CBUS_STS_CONS : RF := ⟨0x1a004, 0x0, 16, 4⟩
def CBUS_STS_DUPID : RF := ⟨0x1a004, 0x0, 14, 1⟩
def CBUS_STS_CRERR : RF := ⟨0x1a004, 0x0, 13, 1⟩
def CBUS_STS_MUTEEV : RF := ⟨0x1a004, 0x0, 12, 1⟩
def CBUS_STS_LINK1 : RF := ⟨0x1a004, 0x0, 11, 1⟩
def CBUS_STS_LINK0 : RF := ⟨0x1a004, 0x0, 10, 1⟩
def CBUS_STS_RINGOPEN : RF := ⟨0x1a004, 0x0, 9, 1⟩
def CBUS_STS_LEADER : RF := ⟨0x1a004, 0x0, 8, 1⟩
def CBUS_STS_REF : RF := ⟨0x1a004, 0x0, 4, 1⟩
def CBUS_STS_STATE : RF := ⟨0x1a004, 0x0, 0, 3⟩
/-- CBUS_OFS (R319, 10_cell_bus.md): Offset to the reference, signed, 2⁻⁸ ns. -/
def CBUS_OFS : RF := ⟨0x1a008, 0x0, 0, 32⟩
/-- CBUS_INC (R319, 10_cell_bus.md): Cell-time increment, 2⁻¹⁶ ns per tick; bits 31:20 reserved. -/
def CBUS_INC : RF := ⟨0x1a00c, 0x40000, 0, 32⟩
def CBUS_INC_INC : RF := ⟨0x1a00c, 0x40000, 0, 20⟩
/-- CBUS_PDLY0 (R319, 10_cell_bus.md): Link delay into port 0 and port 1, 2⁻⁸ ns. -/
def CBUS_PDLY0 : RF := ⟨0x1a010, 0x0, 0, 32⟩
/-- CBUS_PDLY1 (R319, 10_cell_bus.md): Link delay into port 0 and port 1, 2⁻⁸ ns. -/
def CBUS_PDLY1 : RF := ⟨0x1a014, 0x0, 0, 32⟩
/-- CBUS_RDLY (R319, 10_cell_bus.md): Ring budget from the node list, ns. -/
def CBUS_RDLY : RF := ⟨0x1a018, 0x0, 0, 32⟩
def CBUS_RDLY_RDLY : RF := ⟨0x1a018, 0x0, 0, 16⟩
def CBUS_RDLY_MEAS : RF := ⟨0x1a018, 0x0, 16, 16⟩
/-- CBUS_CTL (R319, 10_cell_bus.md): Clear CBUS_NSTATn and per-slot empty counts. -/
def CBUS_CTL : RF := ⟨0x1a01c, 0x0, 0, 32⟩
def CBUS_CTL_CLRCNT : RF := ⟨0x1a01c, 0x0, 0, 1⟩
def CBUS_CTL_REINT : RF := ⟨0x1a01c, 0x0, 1, 1⟩
/-- CBUS_INTCNT (R319, 10_cell_bus.md): Integrations since the start. -/
def CBUS_INTCNT : RF := ⟨0x1a020, 0x0, 0, 32⟩
/-- CBUS_TXF (R319, 10_cell_bus.md): Own frames sent. -/
def CBUS_TXF : RF := ⟨0x1a024, 0x0, 0, 32⟩
/-- CBUS_RXOK (R319, 10_cell_bus.md): Frames accepted. -/
def CBUS_RXOK : RF := ⟨0x1a028, 0x0, 0, 32⟩
/-- CBUS_RXBAD (R319, 10_cell_bus.md): Frames failing checks 1, 2 or 5. -/
def CBUS_RXBAD : RF := ⟨0x1a02c, 0x0, 0, 32⟩
/-- CBUS_RXSKIP (R319, 10_cell_bus.md): Records of reserved type. -/
def CBUS_RXSKIP : RF := ⟨0x1a030, 0x0, 0, 32⟩
/-- CBUS_STALE (R319, 10_cell_bus.md): Frames failing check 4, or behind the duplicate record. -/
def CBUS_STALE : RF := ⟨0x1a034, 0x0, 0, 32⟩
/-- CBUS_CULLET (R319, 10_cell_bus.md): Duplicates discarded. -/
def CBUS_CULLET : RF := ⟨0x1a038, 0x0, 0, 32⟩
/-- CBUS_OWNEMPTY (R319, 10_cell_bus.md): Own slots left empty. -/
def CBUS_OWNEMPTY : RF := ⟨0x1a03c, 0x0, 0, 32⟩
/-- CBUS_RET (R319, 10_cell_bus.md): Own frames returned on ports 0 and 1, last matrix cycle. -/
def CBUS_RET : RF := ⟨0x1a040, 0x0, 0, 32⟩
def CBUS_RET_RET0 : RF := ⟨0x1a040, 0x0, 0, 16⟩
def CBUS_RET_RET1 : RF := ⟨0x1a040, 0x0, 16, 16⟩
/-- CBUS_CRAUD (R319, 10_cell_bus.md): Failed audits. -/
def CBUS_CRAUD : RF := ⟨0x1a044, 0x0, 0, 32⟩
/-- CBUS_CRRST (R319, 10_cell_bus.md): Pair resets. -/
def CBUS_CRRST : RF := ⟨0x1a048, 0x0, 0, 32⟩
/-- CBUS_ESEL (R319, 10_cell_bus.md): Slot selected for CBUS_ECNT; other bits reserved. -/
def CBUS_ESEL : RF := ⟨0x1a050, 0x0, 0, 32⟩
def CBUS_ESEL_NODE : RF := ⟨0x1a050, 0x0, 0, 6⟩
def CBUS_ESEL_SIDX : RF := ⟨0x1a050, 0x0, 8, 8⟩
def CBUS_ESEL_ROW : RF := ⟨0x1a050, 0x0, 16, 4⟩
/-- CBUS_ECNT (R319, 10_cell_bus.md): Empty count of the selected slot. -/
def CBUS_ECNT : RF := ⟨0x1a054, 0x0, 0, 32⟩
/-- CBUS_SMSEL (R319, 10_cell_bus.md): Slot entry selected; bits 31:12 reserved. -/
def CBUS_SMSEL : RF := ⟨0x1a058, 0x0, 0, 32⟩
def CBUS_SMSEL_IDX : RF := ⟨0x1a058, 0x0, 0, 12⟩
/-- CBUS_SMDAT_LO (R319, 10_cell_bus.md): Bytes 0 to 3 and 4 to 7 of that entry (R304). -/
def CBUS_SMDAT_LO : RF := ⟨0x1a05c, 0x0, 0, 32⟩
/-- CBUS_SMDAT_HI (R319, 10_cell_bus.md): Bytes 0 to 3 and 4 to 7 of that entry (R304). -/
def CBUS_SMDAT_HI : RF := ⟨0x1a060, 0x0, 0, 32⟩
/-- CBUS_HRCTL (R319, 10_cell_bus.md): Send the TX buffer as one HOSTRELAY record of LEN bytes to DST. -/
def CBUS_HRCTL : RF := ⟨0x1a0c0, 0x0, 0, 32⟩
def CBUS_HRCTL_SEND : RF := ⟨0x1a0c0, 0x0, 0, 1⟩
def CBUS_HRCTL_DST : RF := ⟨0x1a0c0, 0x0, 8, 6⟩
def CBUS_HRCTL_LEN : RF := ⟨0x1a0c0, 0x0, 16, 8⟩
/-- CBUS_HRTAG (R319, 10_cell_bus.md): TAG of the record sent. -/
def CBUS_HRTAG : RF := ⟨0x1a0c4, 0x0, 0, 32⟩
/-- CBUS_HRSTS (R319, 10_cell_bus.md): Send waiting for a credit or a minislot. -/
def CBUS_HRSTS : RF := ⟨0x1a0c8, 0x0, 0, 32⟩
def CBUS_HRSTS_TXBUSY : RF := ⟨0x1a0c8, 0x0, 0, 1⟩
def CBUS_HRSTS_RXFULL : RF := ⟨0x1a0c8, 0x0, 1, 1⟩
def CBUS_HRSTS_RXSRC : RF := ⟨0x1a0c8, 0x0, 8, 6⟩
def CBUS_HRSTS_RXLEN : RF := ⟨0x1a0c8, 0x0, 16, 8⟩
/-- CBUS_HRRTAG (R319, 10_cell_bus.md): TAG of the record held. -/
def CBUS_HRRTAG : RF := ⟨0x1a0cc, 0x0, 0, 32⟩
/-- CBUS_CRSp (R319, 10_cell_bus.md): Pair p, p = 0 to 15: other node, 1 = receiving, credits held. -/
def CBUS_CRS (k : Nat) : RF := ⟨0x1a100 + 8 * k, 0x0, 0, 32⟩
def CBUS_CRS_PEER (k : Nat) : RF := ⟨0x1a100 + 8 * k, 0x0, 0, 6⟩
def CBUS_CRS_DIR (k : Nat) : RF := ⟨0x1a100 + 8 * k, 0x0, 7, 1⟩
def CBUS_CRS_HELD (k : Nat) : RF := ⟨0x1a100 + 8 * k, 0x0, 8, 8⟩
/-- CBUS_CRCp (R319, 10_cell_bus.md): Sending: SNT, RTN. Receiving: RCV, ISS. -/
def CBUS_CRC (k : Nat) : RF := ⟨0x1a104 + 8 * k, 0x0, 0, 32⟩
def CBUS_CRC_A (k : Nat) : RF := ⟨0x1a104 + 8 * k, 0x0, 0, 16⟩
def CBUS_CRC_B (k : Nat) : RF := ⟨0x1a104 + 8 * k, 0x0, 16, 16⟩
/-- CBUS_NODEDIGn (R319, 10_cell_bus.md): Digest reported by node n. -/
def CBUS_NODEDIG (k : Nat) : RF := ⟨0x1a400 + 16 * k, 0x0, 0, 32⟩
/-- CBUS_NODESEQn (R319, 10_cell_bus.md): Image sequence number of node n. -/
def CBUS_NODESEQ (k : Nat) : RF := ⟨0x1a404 + 16 * k, 0x0, 0, 32⟩
/-- CBUS_NODEINFn (R319, 10_cell_bus.md): From node n's last STATUS record. -/
def CBUS_NODEINF (k : Nat) : RF := ⟨0x1a408 + 16 * k, 0x0, 0, 32⟩
def CBUS_NODEINF_EPOCH (k : Nat) : RF := ⟨0x1a408 + 16 * k, 0x0, 0, 16⟩
def CBUS_NODEINF_NSTATE (k : Nat) : RF := ⟨0x1a408 + 16 * k, 0x0, 16, 4⟩
def CBUS_NODEINF_SFLG (k : Nat) : RF := ⟨0x1a408 + 16 * k, 0x0, 20, 8⟩
def CBUS_NODEINF_VALID (k : Nat) : RF := ⟨0x1a408 + 16 * k, 0x0, 31, 1⟩
/-- CBUS_NSTATn (R319, 10_cell_bus.md): Per sender n; saturate at 0xFF. -/
def CBUS_NSTAT (k : Nat) : RF := ⟨0x1a800 + 4 * k, 0x0, 0, 32⟩
def CBUS_NSTAT_EMPTY (k : Nat) : RF := ⟨0x1a800 + 4 * k, 0x0, 0, 8⟩
def CBUS_NSTAT_EARLY (k : Nat) : RF := ⟨0x1a800 + 4 * k, 0x0, 8, 8⟩
def CBUS_NSTAT_LATE (k : Nat) : RF := ⟨0x1a800 + 4 * k, 0x0, 16, 8⟩
def CBUS_NSTAT_BAD (k : Nat) : RF := ⟨0x1a800 + 4 * k, 0x0, 24, 8⟩
/-- TIM_CT_LO (R334, 11_time.md): Cell time, ns. -/
def TIM_CT_LO : RF := ⟨0x1c000, 0x0, 0, 32⟩
/-- TIM_CT_HI (R334, 11_time.md): Cell time, ns. -/
def TIM_CT_HI : RF := ⟨0x1c004, 0x0, 0, 32⟩
/-- TIM_CTF (R334, 11_time.md): Cell time fraction, 2⁻¹⁶ ns; bits 31:16 reserved. -/
def TIM_CTF : RF := ⟨0x1c008, 0x0, 0, 32⟩
def TIM_CTF_FRAC : RF := ⟨0x1c008, 0x0, 0, 16⟩
/-- TIM_MONO_LO (R334, 11_time.md): Monotonic time, ns. -/
def TIM_MONO_LO : RF := ⟨0x1c010, 0x0, 0, 32⟩
/-- TIM_MONO_HI (R334, 11_time.md): Monotonic time, ns. -/
def TIM_MONO_HI : RF := ⟨0x1c014, 0x0, 0, 32⟩
/-- TIM_PSEL (R334, 11_time.md): 0 = PT1, 1 = PT2 (R322); bits 31:1 reserved. -/
def TIM_PSEL : RF := ⟨0x1c018, 0x0, 0, 32⟩
def TIM_PSEL_SEL : RF := ⟨0x1c018, 0x0, 0, 1⟩
/-- TIM_PT_LO (R334, 11_time.md): Selected plant domain, ns. -/
def TIM_PT_LO : RF := ⟨0x1c020, 0x0, 0, 32⟩
/-- TIM_PT_HI (R334, 11_time.md): Selected plant domain, ns. -/
def TIM_PT_HI : RF := ⟨0x1c024, 0x0, 0, 32⟩
/-- TIM_P12_LO (R334, 11_time.md): PT2 − PT1, signed ns. -/
def TIM_P12_LO : RF := ⟨0x1c028, 0x0, 0, 32⟩
/-- TIM_P12_HI (R334, 11_time.md): PT2 − PT1, signed ns. -/
def TIM_P12_HI : RF := ⟨0x1c02c, 0x0, 0, 32⟩
/-- TIM_CTL (R334, 11_time.md): Latch all domains (R326); bits 31:1 reserved. -/
def TIM_CTL : RF := ⟨0x1c030, 0x0, 0, 32⟩
def TIM_CTL_SNAP : RF := ⟨0x1c030, 0x0, 0, 1⟩
/-- TIM_SNAPd_LO (R334, 11_time.md): Snapshot: d = 0 cell, 1 PT1, 2 PT2, 3 monotonic. -/
def TIM_SNAP_LO (k : Nat) : RF := ⟨0x1c040 + 8 * k, 0x0, 0, 32⟩
/-- TIM_SNAPd_HI (R334, 11_time.md): Snapshot: d = 0 cell, 1 PT1, 2 PT2, 3 monotonic. -/
def TIM_SNAP_HI (k : Nat) : RF := ⟨0x1c044 + 8 * k, 0x0, 0, 32⟩
/-- TIM_PnINC (R334, 11_time.md): Increment, 2⁻²⁴ ns per tick (R321). -/
def TIM_PINC (k : Nat) : RF := ⟨0x1c104 + 64 * k, 0x4000000, 0, 32⟩
/-- TIM_PnSTEP (R334, 11_time.md): Signed step, ns. -/
def TIM_PSTEP (k : Nat) : RF := ⟨0x1c108 + 64 * k, 0x0, 0, 32⟩
/-- TIM_PnVAL_LO (R334, 11_time.md): Domain value, ns. -/
def TIM_PVAL_LO (k : Nat) : RF := ⟨0x1c10c + 64 * k, 0x0, 0, 32⟩
/-- TIM_PnVAL_HI (R334, 11_time.md): Domain value, ns. -/
def TIM_PVAL_HI (k : Nat) : RF := ⟨0x1c110 + 64 * k, 0x0, 0, 32⟩
/-- TIM_PnOFS (R334, 11_time.md): offsetFromMaster, signed ns. -/
def TIM_POFS (k : Nat) : RF := ⟨0x1c114 + 64 * k, 0x0, 0, 32⟩
/-- TIM_PnMPD (R334, 11_time.md): meanPathDelay, ns. -/
def TIM_PMPD (k : Nat) : RF := ⟨0x1c118 + 64 * k, 0x0, 0, 32⟩
/-- TIM_PnGM_LO (R334, 11_time.md): Grandmaster clockIdentity. -/
def TIM_PGM_LO (k : Nat) : RF := ⟨0x1c11c + 64 * k, 0x0, 0, 32⟩
/-- TIM_PnGM_HI (R334, 11_time.md): Grandmaster clockIdentity. -/
def TIM_PGM_HI (k : Nat) : RF := ⟨0x1c120 + 64 * k, 0x0, 0, 32⟩
/-- TIM_ASYMp (R334, 11_time.md): Ingress and egress constants, signed 2⁻⁸ ns (R325). -/
def TIM_ASYM (k : Nat) : RF := ⟨0x1c200 + 8 * k, 0x0, 0, 32⟩
def TIM_ASYM_ING (k : Nat) : RF := ⟨0x1c200 + 8 * k, 0x0, 0, 16⟩
def TIM_ASYM_EGR (k : Nat) : RF := ⟨0x1c200 + 8 * k, 0x0, 16, 16⟩
/-- TIM_PnCFG (R334, 11_time.md): plant domain instance. -/
def TIM_PCFG (k : Nat) : RF := ⟨0x1c100 + 64 * k, 0x640a0004, 0, 32⟩
def TIM_PCFG_LOCKT (k : Nat) : RF := ⟨0x1c100 + 64 * k, 0x640a0004, 24, 8⟩
def TIM_PCFG_STEPT (k : Nat) : RF := ⟨0x1c100 + 64 * k, 0x640a0004, 16, 8⟩
def TIM_PCFG_DOM (k : Nat) : RF := ⟨0x1c100 + 64 * k, 0x640a0004, 8, 7⟩
def TIM_PCFG_SERVO (k : Nat) : RF := ⟨0x1c100 + 64 * k, 0x640a0004, 2, 1⟩
def TIM_PCFG_TRANS (k : Nat) : RF := ⟨0x1c100 + 64 * k, 0x640a0004, 1, 1⟩
def TIM_PCFG_EN (k : Nat) : RF := ⟨0x1c100 + 64 * k, 0x640a0004, 0, 1⟩
/-- TIM_PnSTS (R334, 11_time.md): plant domain status. -/
def TIM_PSTS (k : Nat) : RF := ⟨0x1c124 + 64 * k, 0x0, 0, 32⟩
def TIM_PSTS_INCREJ (k : Nat) : RF := ⟨0x1c124 + 64 * k, 0x0, 7, 1⟩
def TIM_PSTS_GMCHG (k : Nat) : RF := ⟨0x1c124 + 64 * k, 0x0, 6, 1⟩
def TIM_PSTS_LOCK (k : Nat) : RF := ⟨0x1c124 + 64 * k, 0x0, 5, 1⟩
def TIM_PSTS_STATE (k : Nat) : RF := ⟨0x1c124 + 64 * k, 0x0, 0, 3⟩
/-- TIM_EVCFGn (R334, 11_time.md): time-event unit. -/
def TIM_EVCFG (k : Nat) : RF := ⟨0x1c400 + 64 * k, 0x0, 0, 32⟩
def TIM_EVCFG_PW (k : Nat) : RF := ⟨0x1c400 + 64 * k, 0x0, 16, 16⟩
def TIM_EVCFG_PIN (k : Nat) : RF := ⟨0x1c400 + 64 * k, 0x0, 7, 1⟩
def TIM_EVCFG_EVT (k : Nat) : RF := ⟨0x1c400 + 64 * k, 0x0, 6, 1⟩
def TIM_EVCFG_DOM (k : Nat) : RF := ⟨0x1c400 + 64 * k, 0x0, 4, 2⟩
def TIM_EVCFG_MODE (k : Nat) : RF := ⟨0x1c400 + 64 * k, 0x0, 0, 2⟩
/-- TIM_EVSTSn (R334, 11_time.md): time-event status. -/
def TIM_EVSTS (k : Nat) : RF := ⟨0x1c414 + 64 * k, 0x0, 0, 32⟩
def TIM_EVSTS_OVR (k : Nat) : RF := ⟨0x1c414 + 64 * k, 0x0, 5, 1⟩
def TIM_EVSTS_CANC (k : Nat) : RF := ⟨0x1c414 + 64 * k, 0x0, 4, 1⟩
def TIM_EVSTS_RANGE (k : Nat) : RF := ⟨0x1c414 + 64 * k, 0x0, 3, 1⟩
def TIM_EVSTS_LATE (k : Nat) : RF := ⟨0x1c414 + 64 * k, 0x0, 2, 1⟩
def TIM_EVSTS_FIRED (k : Nat) : RF := ⟨0x1c414 + 64 * k, 0x0, 1, 1⟩
def TIM_EVSTS_ARMED (k : Nat) : RF := ⟨0x1c414 + 64 * k, 0x0, 0, 1⟩
/-- TIM_EVTGTn_LO (R334, 11_time.md): Target, ns; the write of _HI arms modes 0x1 and 0x2. -/
def TIM_EVTGT_LO (k : Nat) : RF := ⟨0x1c404 + 64 * k, 0x0, 0, 32⟩
/-- TIM_EVTGTn_HI (R334, 11_time.md): Target, ns; the write of _HI arms modes 0x1 and 0x2. -/
def TIM_EVTGT_HI (k : Nat) : RF := ⟨0x1c408 + 64 * k, 0x0, 0, 32⟩
/-- TIM_EVPERn (R334, 11_time.md): Period, ns (R328). -/
def TIM_EVPER (k : Nat) : RF := ⟨0x1c40c + 64 * k, 0x3b9aca00, 0, 32⟩
/-- TIM_EVDLYn (R334, 11_time.md): Trigger delay, ns, 0 to 2,147,483,647; a larger write is discarded (R330). -/
def TIM_EVDLY (k : Nat) : RF := ⟨0x1c410 + 64 * k, 0x0, 0, 32⟩
/-- TIM_EVTSn_LO (R334, 11_time.md): Domain value at the last firing. -/
def TIM_EVTS_LO (k : Nat) : RF := ⟨0x1c418 + 64 * k, 0x0, 0, 32⟩
/-- TIM_EVTSn_HI (R334, 11_time.md): Domain value at the last firing. -/
def TIM_EVTS_HI (k : Nat) : RF := ⟨0x1c41c + 64 * k, 0x0, 0, 32⟩
/-- TIM_EVCNTn (R334, 11_time.md): Firings and ignored triggers, modulo 2¹⁶. -/
def TIM_EVCNT (k : Nat) : RF := ⟨0x1c420 + 64 * k, 0x0, 0, 32⟩
def TIM_EVCNT_FIRE (k : Nat) : RF := ⟨0x1c420 + 64 * k, 0x0, 0, 16⟩
def TIM_EVCNT_OVR (k : Nat) : RF := ⟨0x1c420 + 64 * k, 0x0, 16, 16⟩
/-- RED_CFG (R354, 12_redundancy.md): pair setting. -/
def RED_CFG : RF := ⟨0x1d000, 0xc8000000, 0, 32⟩
def RED_CFG_CLAIM : RF := ⟨0x1d000, 0xc8000000, 24, 8⟩
def RED_CFG_PNODE : RF := ⟨0x1d000, 0xc8000000, 16, 6⟩
def RED_CFG_ROLE : RF := ⟨0x1d000, 0xc8000000, 1, 1⟩
def RED_CFG_EN : RF := ⟨0x1d000, 0xc8000000, 0, 1⟩
/-- RED_STS (R354, 12_redundancy.md): pair status. -/
def RED_STS : RF := ⟨0x1d004, 0x0, 0, 32⟩
def RED_STS_SAMEPKG : RF := ⟨0x1d004, 0x0, 15, 1⟩
def RED_STS_CPMIS : RF := ⟨0x1d004, 0x0, 14, 1⟩
def RED_STS_CPERR : RF := ⟨0x1d004, 0x0, 13, 1⟩
def RED_STS_SEEDMISS : RF := ⟨0x1d004, 0x0, 12, 1⟩
def RED_STS_BOTH : RF := ⟨0x1d004, 0x0, 11, 1⟩
def RED_STS_DRILL : RF := ⟨0x1d004, 0x0, 10, 1⟩
def RED_STS_DRES : RF := ⟨0x1d004, 0x0, 4, 4⟩
def RED_STS_ACT : RF := ⟨0x1d004, 0x0, 3, 1⟩
def RED_STS_READY : RF := ⟨0x1d004, 0x0, 2, 1⟩
/-- RED_CMD (R354, 12_redundancy.md): pair commands. -/
def RED_CMD : RF := ⟨0x1d008, 0x0, 0, 32⟩
def RED_CMD_KEY : RF := ⟨0x1d008, 0x0, 16, 16⟩
def RED_CMD_CMD : RF := ⟨0x1d008, 0x0, 0, 4⟩
/-- RED_PDEV_LO (R354, 12_redundancy.md): Partner DEVID. -/
def RED_PDEV_LO : RF := ⟨0x1d00c, 0x0, 0, 32⟩
/-- RED_PDEV_HI (R354, 12_redundancy.md): Partner DEVID. -/
def RED_PDEV_HI : RF := ⟨0x1d010, 0x0, 0, 32⟩
/-- RED_CPMCC (R354, 12_redundancy.md): MCC of the staged checkpoint. -/
def RED_CPMCC : RF := ⟨0x1d014, 0x0, 0, 32⟩
/-- RED_CPRX (R354, 12_redundancy.md): Checkpoints staged. -/
def RED_CPRX : RF := ⟨0x1d018, 0x0, 0, 32⟩
/-- RED_CPLOST (R354, 12_redundancy.md): Checkpoints discarded. -/
def RED_CPLOST : RF := ⟨0x1d01c, 0x0, 0, 32⟩
/-- RED_TKOV (R354, 12_redundancy.md): Takeovers made. -/
def RED_TKOV : RF := ⟨0x1d020, 0x0, 0, 32⟩
/-- RED_LASTTK (R354, 12_redundancy.md): Cell time of the last takeover, ns, low word. -/
def RED_LASTTK : RF := ⟨0x1d024, 0x0, 0, 32⟩
/-- RED_UNPROT (R354, 12_redundancy.md): Bit k: arm k unprotected; bits 31:8 reserved. -/
def RED_UNPROT : RF := ⟨0x1d028, 0x0, 0, 32⟩
def RED_UNPROT_ARMS : RF := ⟨0x1d028, 0x0, 0, 8⟩
/-- RED_DTOL (R354, 12_redundancy.md): Drill position tolerance, counts. -/
def RED_DTOL : RF := ⟨0x1d030, 0x100, 0, 32⟩
/-- RED_DMAX (R354, 12_redundancy.md): Drill interval, h; bits 31:16 reserved. -/
def RED_DMAX : RF := ⟨0x1d034, 0xa8, 0, 32⟩
def RED_DMAX_HRS : RF := ⟨0x1d034, 0xa8, 0, 16⟩
/-- RED_DAGE (R354, 12_redundancy.md): Hours since the last passed drill; saturates; bits 31:16 reserved. -/
def RED_DAGE : RF := ⟨0x1d038, 0xffff, 0, 32⟩
def RED_DAGE_HRS : RF := ⟨0x1d038, 0xffff, 0, 16⟩
/-- HOST_STS (R375, 13_host_port.md): shared device view. -/
def HOST_STS : RF := ⟨0x1f000, 0x31100, 0, 32⟩
def HOST_STS_PFN : RF := ⟨0x1f000, 0x31100, 24, 1⟩
def HOST_STS_BABS : RF := ⟨0x1f000, 0x31100, 18, 1⟩
def HOST_STS_BRST : RF := ⟨0x1f000, 0x31100, 17, 1⟩
def HOST_STS_ARST : RF := ⟨0x1f000, 0x31100, 16, 1⟩
def HOST_STS_BTRIM : RF := ⟨0x1f000, 0x31100, 12, 4⟩
def HOST_STS_ATRIM : RF := ⟨0x1f000, 0x31100, 8, 4⟩
def HOST_STS_BSTATE : RF := ⟨0x1f000, 0x31100, 4, 4⟩
def HOST_STS_ASTATE : RF := ⟨0x1f000, 0x31100, 0, 4⟩
/-- HOST_ERR (R375, 13_host_port.md): host access errors of this channel. -/
def HOST_ERR : RF := ⟨0x1f008, 0x0, 0, 32⟩
def HOST_ERR_SPIERR : RF := ⟨0x1f008, 0x0, 5, 1⟩
def HOST_ERR_UE : RF := ⟨0x1f008, 0x0, 4, 1⟩
def HOST_ERR_UR : RF := ⟨0x1f008, 0x0, 3, 1⟩
def HOST_ERR_ROW : RF := ⟨0x1f008, 0x0, 2, 1⟩
def HOST_ERR_LOCKW : RF := ⟨0x1f008, 0x0, 1, 1⟩
def HOST_ERR_BEW : RF := ⟨0x1f008, 0x0, 0, 1⟩
/-- HOST_EVRTe (R375, 13_host_port.md): event routing. -/
def HOST_EVRT (k : Nat) : RF := ⟨0x1f100 + 4 * k, 0x0, 0, 32⟩
def HOST_EVRT_SUP (k : Nat) : RF := ⟨0x1f100 + 4 * k, 0x0, 9, 1⟩
def HOST_EVRT_MSIX (k : Nat) : RF := ⟨0x1f100 + 4 * k, 0x0, 8, 1⟩
def HOST_EVRT_VEC (k : Nat) : RF := ⟨0x1f100 + 4 * k, 0x0, 0, 5⟩
/-- HOST_LINK (R375, 13_host_port.md): Link speed 0x1 = 2.5, 0x2 = 5.0, 0x3 = 8.0 GT/s; lanes 1, 2 or 4. -/
def HOST_LINK : RF := ⟨0x1f004, 0x0, 0, 32⟩
def HOST_LINK_SPEED : RF := ⟨0x1f004, 0x0, 0, 4⟩
def HOST_LINK_WIDTH : RF := ⟨0x1f004, 0x0, 4, 5⟩
def HOST_LINK_DLUP : RF := ⟨0x1f004, 0x0, 9, 1⟩
/-- HOST_LASTW (R375, 13_host_port.md): Path of the last write: 0 = PCI Express, 1 = SPI; bits 31:1 reserved. -/
def HOST_LASTW : RF := ⟨0x1f00c, 0x0, 0, 32⟩
def HOST_LASTW_PORT : RF := ⟨0x1f00c, 0x0, 0, 1⟩
/-- HOST_WCNTP (R375, 13_host_port.md): Writes through PCI Express. -/
def HOST_WCNTP : RF := ⟨0x1f010, 0x0, 0, 32⟩
/-- HOST_WCNTS (R375, 13_host_port.md): Writes through SPI. -/
def HOST_WCNTS : RF := ⟨0x1f014, 0x0, 0, 32⟩
/-- HOST_SPIWIN (R375, 13_host_port.md): SPI window base, 4 MB units of BAR2; bits 31:4 reserved. -/
def HOST_SPIWIN : RF := ⟨0x1f018, 0x0, 0, 32⟩
def HOST_SPIWIN_BASE : RF := ⟨0x1f018, 0x0, 0, 4⟩
/-- HOST_RST (R375, 13_host_port.md): Host reset command of this channel; KEY must be 0x57A7; level per the fuse table. -/
def HOST_RST : RF := ⟨0x1f01c, 0x0, 0, 32⟩
def HOST_RST_REQ : RF := ⟨0x1f01c, 0x0, 0, 1⟩
def HOST_RST_KEY : RF := ⟨0x1f01c, 0x0, 16, 16⟩
/-- HOST_EVPEND_LO (R375, 13_host_port.md): Bit e: event e pending for MSI-X. -/
def HOST_EVPEND_LO : RF := ⟨0x1f200, 0x0, 0, 32⟩
/-- HOST_EVPEND_HI (R375, 13_host_port.md): Bit e: event e pending for MSI-X. -/
def HOST_EVPEND_HI : RF := ⟨0x1f204, 0x0, 0, 32⟩
/-- HOST_EVOVR (R375, 13_host_port.md): Occurrences found pending (R367). -/
def HOST_EVOVR : RF := ⟨0x1f208, 0x0, 0, 32⟩
/-- TRC_STS (R375, 13_host_port.md): trace state. -/
def TRC_STS : RF := ⟨0x4018, 0x0, 0, 32⟩
def TRC_STS_FLPEND : RF := ⟨0x4018, 0x0, 4, 1⟩
def TRC_STS_FULL : RF := ⟨0x4018, 0x0, 3, 1⟩
def TRC_STS_STAGED : RF := ⟨0x4018, 0x0, 0, 3⟩
/-- TRC_DATA_LO (R375, 13_host_port.md): Next word; the read of _LO removes it (R373). -/
def TRC_DATA_LO : RF := ⟨0x4000, 0x0, 0, 32⟩
/-- TRC_DATA_HI (R375, 13_host_port.md): Next word; the read of _LO removes it (R373). -/
def TRC_DATA_HI : RF := ⟨0x4004, 0x0, 0, 32⟩
/-- TRC_TAG (R375, 13_host_port.md): Valid bytes of the word last read, 1 to 8; 0 = read found the store empty; bits 31:4 reser. -/
def TRC_TAG : RF := ⟨0x4008, 0x0, 0, 32⟩
def TRC_TAG_VALID : RF := ⟨0x4008, 0x0, 0, 4⟩
/-- TRC_CNT (R375, 13_host_port.md): Bytes held, committed and staged; bits 31:17 reserved. -/
def TRC_CNT : RF := ⟨0x400c, 0x0, 0, 32⟩
def TRC_CNT_BYTES : RF := ⟨0x400c, 0x0, 0, 17⟩
/-- TRC_WORDS (R375, 13_host_port.md): Committed words, 0 to 8,192; bits 31:14 reserved. -/
def TRC_WORDS : RF := ⟨0x4010, 0x0, 0, 32⟩
def TRC_WORDS_WORDS : RF := ⟨0x4010, 0x0, 0, 14⟩
/-- TRC_FLUSH (R375, 13_host_port.md): Commit the staging word (R372); bits 31:1 reserved. -/
def TRC_FLUSH : RF := ⟨0x4014, 0x0, 0, 32⟩
def TRC_FLUSH_FL : RF := ⟨0x4014, 0x0, 0, 1⟩
/-- TRC_PTR (R375, 13_host_port.md): Read and write pointers (R368). -/
def TRC_PTR : RF := ⟨0x401c, 0x0, 0, 32⟩
def TRC_PTR_RP : RF := ⟨0x401c, 0x0, 0, 14⟩
def TRC_PTR_WP : RF := ⟨0x401c, 0x0, 16, 14⟩
/-- TRC_OFFER (R375, 13_host_port.md): Bytes offered. -/
def TRC_OFFER : RF := ⟨0x4020, 0x0, 0, 32⟩
/-- TRC_ACC (R375, 13_host_port.md): Bytes accepted. -/
def TRC_ACC : RF := ⟨0x4024, 0x0, 0, 32⟩
/-- TRC_READ (R375, 13_host_port.md): Valid bytes read. -/
def TRC_READ : RF := ⟨0x4028, 0x0, 0, 32⟩
/-- TRC_SRCEN (R375, 13_host_port.md): Bit s: source s enabled; bits 0 and 31:7 reserved. -/
def TRC_SRCEN : RF := ⟨0x4030, 0x7e, 0, 32⟩
def TRC_SRCEN_EN : RF := ⟨0x4030, 0x7e, 1, 6⟩
/-- TRC_DUMP (R375, 13_host_port.md): Dump the block whose BAR0 offset is BLK × 0x1000 as SRC 0x05; bits 31:8 reserved. -/
def TRC_DUMP : RF := ⟨0x4034, 0x0, 0, 32⟩
def TRC_DUMP_BLK : RF := ⟨0x4034, 0x0, 0, 8⟩
/-- TRC_WHELDs (R375, 13_host_port.md): Bytes withheld from source s, s = 1 to 6. -/
def TRC_WHELD (k : Nat) : RF := ⟨0x4040 + 4 * k, 0x0, 0, 32⟩
/-- CFG_STS (R399, 14_configuration.md): configuration state. -/
def CFG_STS : RF := ⟨0x2100, 0x0, 0, 32⟩
def CFG_STS_RES : RF := ⟨0x2100, 0x0, 8, 4⟩
def CFG_STS_BARM : RF := ⟨0x2100, 0x0, 6, 1⟩
def CFG_STS_SEQEQ : RF := ⟨0x2100, 0x0, 5, 1⟩
def CFG_STS_BUSY : RF := ⟨0x2100, 0x0, 4, 1⟩
def CFG_STS_VALID1 : RF := ⟨0x2100, 0x0, 3, 1⟩
def CFG_STS_VALID0 : RF := ⟨0x2100, 0x0, 2, 1⟩
def CFG_STS_ACT : RF := ⟨0x2100, 0x0, 0, 1⟩
/-- CFG_CMD (R399, 14_configuration.md): slot command. -/
def CFG_CMD : RF := ⟨0x2104, 0x0, 0, 32⟩
def CFG_CMD_KEY : RF := ⟨0x2104, 0x0, 16, 16⟩
def CFG_CMD_CMD : RF := ⟨0x2104, 0x0, 0, 4⟩
/-- CFG_REJ (R399, 14_configuration.md): first failed check. -/
def CFG_REJ : RF := ⟨0x210c, 0x0, 0, 32⟩
def CFG_REJ_REASON : RF := ⟨0x210c, 0x0, 24, 8⟩
def CFG_REJ_RTYPE : RF := ⟨0x210c, 0x0, 16, 8⟩
def CFG_REJ_IDX : RF := ⟨0x210c, 0x0, 0, 16⟩
/-- CHN_DEVID_LO (R399, 14_configuration.md): Package identity. -/
def CHN_DEVID_LO : RF := ⟨0x10, 0x0, 0, 32⟩
/-- CHN_DEVID_HI (R399, 14_configuration.md): Package identity. -/
def CHN_DEVID_HI : RF := ⟨0x14, 0x0, 0, 32⟩
/-- NVM_JEDEC (R399, 14_configuration.md): JEDEC ID read at start; bits 31:24 reserved. -/
def NVM_JEDEC : RF := ⟨0x2000, 0x0, 0, 32⟩
def NVM_JEDEC_ID : RF := ⟨0x2000, 0x0, 0, 24⟩
/-- NVM_SIZE (R399, 14_configuration.md): Flash size declared by SFDP, MB; bits 31:16 reserved. -/
def NVM_SIZE : RF := ⟨0x2004, 0x0, 0, 32⟩
def NVM_SIZE_MB : RF := ⟨0x2004, 0x0, 0, 16⟩
/-- NVM_MODE (R399, 14_configuration.md): Read mode in use (R376): 0x0 = single, 0x1 = 1-1-4, 0x2 = 1-4-4; bits 31:2 reserved. -/
def NVM_MODE : RF := ⟨0x2008, 0x0, 0, 32⟩
def NVM_MODE_RD : RF := ⟨0x2008, 0x0, 0, 2⟩
/-- NVM_ERR (R399, 14_configuration.md): Read ECC and program or erase failures; saturate at 0xFF; bits 31:16 reserved. -/
def NVM_ERR : RF := ⟨0x200c, 0x0, 0, 32⟩
def NVM_ERR_READ : RF := ⟨0x200c, 0x0, 0, 8⟩
def NVM_ERR_PROG : RF := ⟨0x200c, 0x0, 8, 8⟩
/-- CFG_BIND (R399, 14_configuration.md): Re-binding code (R396); bits 31:16 must be 0. -/
def CFG_BIND : RF := ⟨0x2108, 0x0, 0, 32⟩
def CFG_BIND_CODE : RF := ⟨0x2108, 0x0, 0, 16⟩
/-- CFG_ISEQ (R399, 14_configuration.md): ISEQ of the image in force. -/
def CFG_ISEQ : RF := ⟨0x2110, 0x0, 0, 32⟩
/-- CFG_CDIG (R399, 14_configuration.md): Cell-section digest in force. -/
def CFG_CDIG : RF := ⟨0x2114, 0x0, 0, 32⟩
/-- CFG_EPOCH (R399, 14_configuration.md): Epoch in force; bits 31:16 reserved. -/
def CFG_EPOCH : RF := ⟨0x2118, 0x0, 0, 32⟩
def CFG_EPOCH_EPOCH : RF := ⟨0x2118, 0x0, 0, 16⟩
/-- CFG_SLOTn_SEQ (R399, 14_configuration.md): ISEQ read at the last start. -/
def CFG_SLOT_SEQ (k : Nat) : RF := ⟨0x2140 + 32 * k, 0x0, 0, 32⟩
/-- CFG_SLOTn_WCNT (R399, 14_configuration.md): Write count from the wear record; 0 for a slot the channel has never written; the header's. -/
def CFG_SLOT_WCNT (k : Nat) : RF := ⟨0x2144 + 32 * k, 0x0, 0, 32⟩
def CFG_SLOT_WCNT_WCNT (k : Nat) : RF := ⟨0x2144 + 32 * k, 0x0, 0, 31⟩
def CFG_SLOT_WCNT_WEAR (k : Nat) : RF := ⟨0x2144 + 32 * k, 0x0, 31, 1⟩
/-- CFG_SLOTn_BIND_LO (R399, 14_configuration.md): BIND of the slot. -/
def CFG_SLOT_BIND_LO (k : Nat) : RF := ⟨0x2148 + 32 * k, 0x0, 0, 32⟩
/-- CFG_SLOTn_BIND_HI (R399, 14_configuration.md): BIND of the slot. -/
def CFG_SLOT_BIND_HI (k : Nat) : RF := ⟨0x214c + 32 * k, 0x0, 0, 32⟩
/-- CFG_SLOTn_CDIG (R399, 14_configuration.md): CDIG of the slot. -/
def CFG_SLOT_CDIG (k : Nat) : RF := ⟨0x2150 + 32 * k, 0x0, 0, 32⟩
/-- CFG_SLOTn_INFO (R399, 14_configuration.md): Epoch and channel of the slot; bits 31:24 reserved. -/
def CFG_SLOT_INFO (k : Nat) : RF := ⟨0x2154 + 32 * k, 0x0, 0, 32⟩
def CFG_SLOT_INFO_EPOCH (k : Nat) : RF := ⟨0x2154 + 32 * k, 0x0, 0, 16⟩
def CFG_SLOT_INFO_CHAN (k : Nat) : RF := ⟨0x2154 + 32 * k, 0x0, 16, 8⟩
/-- CHN_RSTREQ (R427, 15_clocks_reset_start.md): reset request of this channel. -/
def CHN_RSTREQ : RF := ⟨0x20, 0x0, 0, 32⟩
def CHN_RSTREQ_KEY : RF := ⟨0x20, 0x0, 16, 16⟩
def CHN_RSTREQ_REQ : RF := ⟨0x20, 0x0, 0, 1⟩
/-- CHN_BRST (R427, 15_clocks_reset_start.md): block-alone reset. -/
def CHN_BRST : RF := ⟨0x24, 0x0, 0, 32⟩
def CHN_BRST_REJ : RF := ⟨0x24, 0x0, 19, 1⟩
def CHN_BRST_TMO : RF := ⟨0x24, 0x0, 18, 1⟩
def CHN_BRST_PEND : RF := ⟨0x24, 0x0, 17, 1⟩
def CHN_BRST_INRST : RF := ⟨0x24, 0x0, 16, 1⟩
def CHN_BRST_RELEASE : RF := ⟨0x24, 0x0, 9, 1⟩
def CHN_BRST_ASSERT : RF := ⟨0x24, 0x0, 8, 1⟩
def CHN_BRST_BLK : RF := ⟨0x24, 0x0, 0, 8⟩
/-- CHN_BRSTTO (R427, 15_clocks_reset_start.md): Idle wait, µs, 1 to 65,535; bits 31:16 reserved. -/
def CHN_BRSTTO : RF := ⟨0x28, 0xa, 0, 32⟩
def CHN_BRSTTO_TO : RF := ⟨0x28, 0xa, 0, 16⟩
/-- CHN_STARTREASON (R427, 15_clocks_reset_start.md): 0x1 = cold, power-on or L3; 0x2 = cold, L2; 0x3 = warm; 0x4 = warm fallen back to cold; 0x. -/
def CHN_STARTREASON : RF := ⟨0x2c, 0x0, 0, 32⟩
def CHN_STARTREASON_KIND : RF := ⟨0x2c, 0x0, 0, 4⟩
def CHN_STARTREASON_SRC : RF := ⟨0x2c, 0x0, 8, 4⟩
def CHN_STARTREASON_FALL : RF := ⟨0x2c, 0x0, 16, 4⟩
/-- RST_STS (R427, 15_clocks_reset_start.md): reset status. -/
def RST_STS : RF := ⟨0x1000, 0x0, 0, 32⟩
def RST_STS_LMARK : RF := ⟨0x1000, 0x0, 3, 1⟩
def RST_STS_PDIFF : RF := ⟨0x1000, 0x0, 2, 1⟩
def RST_STS_FALLBK : RF := ⟨0x1000, 0x0, 1, 1⟩
def RST_STS_TRIMDONE : RF := ⟨0x1000, 0x0, 0, 1⟩
/-- RST_CAUSE (R427, 15_clocks_reset_start.md): last reset; kept. -/
def RST_CAUSE : RF := ⟨0x1004, 0x300, 0, 32⟩
def RST_CAUSE_LVL : RF := ⟨0x1004, 0x300, 8, 2⟩
def RST_CAUSE_SRC : RF := ⟨0x1004, 0x300, 0, 4⟩
/-- RST_FSTS (R427, 15_clocks_reset_start.md): fuse table state. -/
def RST_FSTS : RF := ⟨0x100c, 0x0, 0, 32⟩
def RST_FSTS_REJ : RF := ⟨0x100c, 0x0, 3, 1⟩
def RST_FSTS_BUSY : RF := ⟨0x100c, 0x0, 2, 1⟩
def RST_FSTS_BAD : RF := ⟨0x100c, 0x0, 1, 1⟩
def RST_FSTS_PROG : RF := ⟨0x100c, 0x0, 0, 1⟩
/-- RST_FTAB (R427, 15_clocks_reset_start.md): Table in force, entry e at bits 2e + 1 to 2e (R406). -/
def RST_FTAB : RF := ⟨0x1008, 0xe6a98b, 0, 32⟩
/-- RST_FSTAGE (R427, 15_clocks_reset_start.md): Table to burn (R408). -/
def RST_FSTAGE : RF := ⟨0x1010, 0x0, 0, 32⟩
/-- RST_FCMD (R427, 15_clocks_reset_start.md): 0x1 = program; KEY 0x57A7; bits 15:4 reserved. -/
def RST_FCMD : RF := ⟨0x1014, 0x0, 0, 32⟩
def RST_FCMD_CMD : RF := ⟨0x1014, 0x0, 0, 4⟩
def RST_FCMD_KEY : RF := ⟨0x1014, 0x0, 16, 16⟩
/-- RST_WPTOL (R427, 15_clocks_reset_start.md): Warm-start position tolerance, counts; bits 31:16 reserved. -/
def RST_WPTOL : RF := ⟨0x1018, 0x10, 0, 32⟩
def RST_WPTOL_TOL : RF := ⟨0x1018, 0x10, 0, 16⟩
/-- RST_BDISC (R427, 15_clocks_reset_start.md): Items discarded by block-alone resets; kept. -/
def RST_BDISC : RF := ⟨0x101c, 0x0, 0, 32⟩
/-- RST_CNTq (R427, 15_clocks_reset_start.md): Sources 2q and 2q + 1 taken, modulo 2¹⁶, q = 0 to 7; kept. -/
def RST_CNT (k : Nat) : RF := ⟨0x1020 + 4 * k, 0x0, 0, 32⟩
def RST_CNT_LO (k : Nat) : RF := ⟨0x1020 + 4 * k, 0x0, 0, 16⟩
def RST_CNT_HI (k : Nat) : RF := ⟨0x1020 + 4 * k, 0x0, 16, 16⟩
/-- CLK_STS (R427, 15_clocks_reset_start.md): clock state. -/
def CLK_STS : RF := ⟨0x1100, 0x0, 0, 32⟩
def CLK_STS_SURGE : RF := ⟨0x1100, 0x0, 9, 1⟩
def CLK_STS_REFOK : RF := ⟨0x1100, 0x0, 8, 1⟩
def CLK_STS_STABLE : RF := ⟨0x1100, 0x0, 0, 7⟩
/-- CLK_REFMON (R427, 15_clocks_reset_start.md): Reference frequency of the last window, Hz, measured against the RC oscillator (±1 %). -/
def CLK_REFMON : RF := ⟨0x1104, 0x0, 0, 32⟩
/-- CLK_LOSS (R427, 15_clocks_reset_start.md): Reference losses and losses of lock, modulo 2¹⁶; kept. -/
def CLK_LOSS : RF := ⟨0x1108, 0x0, 0, 32⟩
def CLK_LOSS_REF : RF := ⟨0x1108, 0x0, 0, 16⟩
def CLK_LOSS_LOCK : RF := ⟨0x1108, 0x0, 16, 16⟩
/-- FLT_ACT (R442, 16_faults_lehr.md): active faults. -/
def FLT_ACT : RF := ⟨0x1e004, 0x0, 0, 32⟩
def FLT_ACT_F2TO : RF := ⟨0x1e004, 0x0, 11, 1⟩
def FLT_ACT_F1 : RF := ⟨0x1e004, 0x0, 10, 1⟩
def FLT_ACT_F3 : RF := ⟨0x1e004, 0x0, 9, 1⟩
def FLT_ACT_CHF2 : RF := ⟨0x1e004, 0x0, 8, 1⟩
def FLT_ACT_ARMF2 : RF := ⟨0x1e004, 0x0, 0, 8⟩
/-- FLT_ACK (R442, 16_faults_lehr.md): F2 clearing (R431). -/
def FLT_ACK : RF := ⟨0x1e008, 0x0, 0, 32⟩
def FLT_ACK_KEY : RF := ⟨0x1e008, 0x0, 16, 16⟩
def FLT_ACK_CH : RF := ⟨0x1e008, 0x0, 8, 1⟩
def FLT_ACK_ARMS : RF := ⟨0x1e008, 0x0, 0, 8⟩
/-- FLT_ACKSTS (R442, 16_faults_lehr.md): last clearing. -/
def FLT_ACKSTS : RF := ⟨0x1e00c, 0x0, 0, 32⟩
def FLT_ACKSTS_REJ : RF := ⟨0x1e00c, 0x0, 8, 1⟩
def FLT_ACKSTS_RC : RF := ⟨0x1e00c, 0x0, 0, 4⟩
/-- FLT_CFG (R442, 16_faults_lehr.md): F2 stop limit, 10 ms, 1 to 65,535; bits 31:16 reserved. -/
def FLT_CFG : RF := ⟨0x1e000, 0x64, 0, 32⟩
def FLT_CFG_F2TMO : RF := ⟨0x1e000, 0x64, 0, 16⟩
/-- FLT_QCNT (R442, 16_faults_lehr.md): Records queued, 0 to 32; bits 31:6 reserved. -/
def FLT_QCNT : RF := ⟨0x1e010, 0x0, 0, 32⟩
def FLT_QCNT_CNT : RF := ⟨0x1e010, 0x0, 0, 6⟩
/-- FLT_QPOP (R442, 16_faults_lehr.md): Remove the oldest record; bits 31:1 reserved. -/
def FLT_QPOP : RF := ⟨0x1e014, 0x0, 0, 32⟩
def FLT_QPOP_POP : RF := ⟨0x1e014, 0x0, 0, 1⟩
/-- FLT_QSTS (R442, 16_faults_lehr.md): A merge was lost (R440); bits 31:1 reserved. -/
def FLT_QSTS : RF := ⟨0x1e018, 0x0, 0, 32⟩
def FLT_QSTS_MLOST : RF := ⟨0x1e018, 0x0, 0, 1⟩
/-- FLT_QRECw (R442, 16_faults_lehr.md): Bytes 4w to 4w + 3 of the oldest record, w = 0 to 7. -/
def FLT_QREC (k : Nat) : RF := ⟨0x1e020 + 4 * k, 0x0, 0, 32⟩
/-- FLT_OVFg (R442, 16_faults_lehr.md): Records of group g lost, g = 1 to 15. -/
def FLT_OVF (k : Nat) : RF := ⟨0x1e040 + 4 * k, 0x0, 0, 32⟩
/-- FLT_TOTAL (R442, 16_faults_lehr.md): Occurrences recorded, merges included. -/
def FLT_TOTAL : RF := ⟨0x1e080, 0x0, 0, 32⟩
/-- FLT_PSEL (R442, 16_faults_lehr.md): Flash ring entry, 0 = latest; bits 31:4 reserved. -/
def FLT_PSEL : RF := ⟨0x1e090, 0x0, 0, 32⟩
def FLT_PSEL_IDX : RF := ⟨0x1e090, 0x0, 0, 4⟩
/-- FLT_PRECw (R442, 16_faults_lehr.md): Bytes 4w to 4w + 3 of that entry. -/
def FLT_PREC (k : Nat) : RF := ⟨0x1e0a0 + 4 * k, 0x0, 0, 32⟩
/-- LEHR_STS (R442, 16_faults_lehr.md): governor state. -/
def LEHR_STS : RF := ⟨0x1e804, 0x0, 0, 32⟩
def LEHR_STS_SPREAD : RF := ⟨0x1e804, 0x0, 6, 1⟩
def LEHR_STS_DROOP : RF := ⟨0x1e804, 0x0, 5, 1⟩
def LEHR_STS_HALF : RF := ⟨0x1e804, 0x0, 4, 1⟩
def LEHR_STS_HOT : RF := ⟨0x1e804, 0x0, 3, 1⟩
def LEHR_STS_REST : RF := ⟨0x1e804, 0x0, 2, 1⟩
def LEHR_STS_SURGEON : RF := ⟨0x1e804, 0x0, 1, 1⟩
def LEHR_STS_SURGEOK : RF := ⟨0x1e804, 0x0, 0, 1⟩
/-- LEHR_CFG (R442, 16_faults_lehr.md): Surge limit, °C, 70 to 100; bits 31:8 reserved. -/
def LEHR_CFG : RF := ⟨0x1e800, 0x64, 0, 32⟩
def LEHR_CFG_SLIM : RF := ⟨0x1e800, 0x64, 0, 8⟩
/-- LEHR_TJn (R442, 16_faults_lehr.md): Reading, signed, 0.125 °C. -/
def LEHR_TJ (k : Nat) : RF := ⟨0x1e810 + 4 * k, 0x0, 0, 32⟩
def LEHR_TJ_T (k : Nat) : RF := ⟨0x1e810 + 4 * k, 0x0, 0, 12⟩
def LEHR_TJ_VALID (k : Nat) : RF := ⟨0x1e810 + 4 * k, 0x0, 16, 1⟩
/-- LEHR_TJMAX (R442, 16_faults_lehr.md): Highest Tj since the start; bits 31:12 reserved. -/
def LEHR_TJMAX : RF := ⟨0x1e820, 0x0, 0, 32⟩
def LEHR_TJMAX_T : RF := ⟨0x1e820, 0x0, 0, 12⟩
/-- LEHR_SURGE (R442, 16_faults_lehr.md): Rest remaining, running period, ms. -/
def LEHR_SURGE : RF := ⟨0x1e824, 0x0, 0, 32⟩
def LEHR_SURGE_REST : RF := ⟨0x1e824, 0x0, 0, 16⟩
def LEHR_SURGE_RUN : RF := ⟨0x1e824, 0x0, 16, 16⟩
/-- LEHR_SCNT (R442, 16_faults_lehr.md): Surge time since the start, ms. -/
def LEHR_SCNT : RF := ⟨0x1e828, 0x0, 0, 32⟩
/-- LEHR_DROOP (R442, 16_faults_lehr.md): Droops. -/
def LEHR_DROOP : RF := ⟨0x1e82c, 0x0, 0, 32⟩
/-- LEHR_OTRIP (R442, 16_faults_lehr.md): Over-temperature reset taken; kept through L1 and L2, cleared at the end of the start that. -/
def LEHR_OTRIP : RF := ⟨0x1e830, 0x0, 0, 32⟩
def LEHR_OTRIP_TRIP : RF := ⟨0x1e830, 0x0, 0, 1⟩
/-- UPD_STS (R453, 17_update.md): update state. -/
def UPD_STS : RF := ⟨0x3004, 0x0, 0, 32⟩
def UPD_STS_RES : RF := ⟨0x3004, 0x0, 8, 4⟩
def UPD_STS_RESUMABLE : RF := ⟨0x3004, 0x0, 3, 1⟩
def UPD_STS_BREF : RF := ⟨0x3004, 0x0, 2, 1⟩
def UPD_STS_ACTIVE : RF := ⟨0x3004, 0x0, 1, 1⟩
def UPD_STS_BUSY : RF := ⟨0x3004, 0x0, 0, 1⟩
/-- UPD_CMD (R453, 17_update.md): 0x1 = START, 0x2 = RESUME, 0x3 = BLOCK, 0x4 = FINISH, 0x5 = ABORT; KEY 0x57A7; bits 15:4 r. -/
def UPD_CMD : RF := ⟨0x3000, 0x0, 0, 32⟩
def UPD_CMD_CMD : RF := ⟨0x3000, 0x0, 0, 4⟩
def UPD_CMD_KEY : RF := ⟨0x3000, 0x0, 16, 16⟩
/-- UPD_LEN (R453, 17_update.md): Image length, bytes; bits 31:24 reserved. -/
def UPD_LEN : RF := ⟨0x3008, 0x0, 0, 32⟩
def UPD_LEN_LEN : RF := ⟨0x3008, 0x0, 0, 24⟩
/-- UPD_BOFS (R453, 17_update.md): Block offset in the image; bits 31:24 reserved. -/
def UPD_BOFS : RF := ⟨0x300c, 0x0, 0, 32⟩
def UPD_BOFS_OFS : RF := ⟨0x300c, 0x0, 0, 24⟩
/-- UPD_BLEN (R453, 17_update.md): Block length, 4 to 4,096; bits 31:13 reserved. -/
def UPD_BLEN : RF := ⟨0x3010, 0x0, 0, 32⟩
def UPD_BLEN_LEN : RF := ⟨0x3010, 0x0, 0, 13⟩
/-- UPD_BCRC (R453, 17_update.md): CRC-32 of the block. -/
def UPD_BCRC : RF := ⟨0x3014, 0x0, 0, 32⟩
/-- UPD_NEXT (R453, 17_update.md): Next offset expected; bits 31:24 reserved. -/
def UPD_NEXT : RF := ⟨0x3018, 0x0, 0, 32⟩
def UPD_NEXT_NEXT : RF := ⟨0x3018, 0x0, 0, 24⟩
/-- UPD_CURVER (R453, 17_update.md): Version last admitted. -/
def UPD_CURVER : RF := ⟨0x301c, 0x0, 0, 32⟩
/-- UPD_NEWVER (R453, 17_update.md): VERSION of the kept header. -/
def UPD_NEWVER : RF := ⟨0x3020, 0x0, 0, 32⟩
/-- UPD_FLOOR (R453, 17_update.md): Floor steps burned, 0 to 64; bits 31:7 reserved. -/
def UPD_FLOOR : RF := ⟨0x3024, 0x0, 0, 32⟩
def UPD_FLOOR_STEPS : RF := ⟨0x3024, 0x0, 0, 7⟩
/-- UPD_BLKCNT (R453, 17_update.md): Blocks accepted since the start. -/
def UPD_BLKCNT : RF := ⟨0x3028, 0x0, 0, 32⟩
/-- HR TX (R293, 10_cell_bus.md): HOSTRELAY transmit buffer. -/
def CBUS_HRTX (k : Nat) : RF := ⟨0x1b000 + 4 * k, 0x0, 0, 32⟩
/-- HR RX (R293, 10_cell_bus.md): HOSTRELAY receive buffer. -/
def CBUS_HRRX (k : Nat) : RF := ⟨0x1b100 + 4 * k, 0x0, 0, 32⟩
/-- MSI-X table (R367, 13_host_port.md): MSI-X table: message address and data. -/
def HOST_MSIXT (k e : Nat) : RF := ⟨0x1f800 + 16 * k + 4 * e, 0x0, 0, 32⟩
/-- MSI-X table (R367, 13_host_port.md): MSI-X table: vector control, masked at reset as PCI Express has it. -/
def HOST_MSIXC (k : Nat) : RF := ⟨0x1f80c + 16 * k, 0x1, 0, 32⟩
def HOST_MSIXC_MASK (k : Nat) : RF := ⟨0x1f80c + 16 * k, 0x1, 0, 1⟩
/-- MSI-X PBA (R367, 13_host_port.md): MSI-X pending bits. -/
def HOST_MSIXP : RF := ⟨0x1fa00, 0x0, 0, 32⟩
def PRF_VMPOS (k : Nat) : RP := ⟨PRF_VMPOS_LO k, PRF_VMPOS_HI k⟩
def PRF_JTGT (k : Nat) : RP := ⟨PRF_JTGT_LO k, PRF_JTGT_HI k⟩
def PRF_JCPOS (k : Nat) : RP := ⟨PRF_JCPOS_LO k, PRF_JCPOS_HI k⟩
def PRF_JLIMLO (k : Nat) : RP := ⟨PRF_JLIMLO_LO k, PRF_JLIMLO_HI k⟩
def PRF_JLIMHI (k : Nat) : RP := ⟨PRF_JLIMHI_LO k, PRF_JLIMHI_HI k⟩
def PRF_JGAPOS (k : Nat) : RP := ⟨PRF_JGAPOS_LO k, PRF_JGAPOS_HI k⟩
def CMP_POS (k : Nat) : RP := ⟨CMP_POS_LO k, CMP_POS_HI k⟩
def CMP_TS (k : Nat) : RP := ⟨CMP_TS_LO k, CMP_TS_HI k⟩
def STP_CMD (k : Nat) : RP := ⟨STP_CMD_LO k, STP_CMD_HI k⟩
def STP_EMIT (k : Nat) : RP := ⟨STP_EMIT_LO k, STP_EMIT_HI k⟩
def BRK_RREL : RP := ⟨BRK_RREL_LO, BRK_RREL_HI⟩
def BRK_ETCLR : RP := ⟨BRK_ETCLR_LO, BRK_ETCLR_HI⟩
def ENC_AOFS (k : Nat) : RP := ⟨ENC_AOFS_LO k, ENC_AOFS_HI k⟩
def ENC_CNT (k : Nat) : RP := ⟨ENC_CNT_LO k, ENC_CNT_HI k⟩
def ENC_LAT (k : Nat) : RP := ⟨ENC_LAT_LO k, ENC_LAT_HI k⟩
def ENC_WORD (k : Nat) : RP := ⟨ENC_WORD_LO k, ENC_WORD_HI k⟩
def ENC_IDXTS (k : Nat) : RP := ⟨ENC_IDXTS_LO k, ENC_IDXTS_HI k⟩
def ENC_RPHSUM (k : Nat) : RP := ⟨ENC_RPHSUM_LO k, ENC_RPHSUM_HI k⟩
def ENC_DIRTS (k : Nat) : RP := ⟨ENC_DIRTS_LO k, ENC_DIRTS_HI k⟩
def DPO_OUT (k : Nat) : RP := ⟨DPO_OUT_LO k, DPO_OUT_HI k⟩
def DPO_EMIT (k : Nat) : RP := ⟨DPO_EMIT_LO k, DPO_EMIT_HI k⟩
def JSP_MISM : RP := ⟨JSP_MISM_LO, JSP_MISM_HI⟩
def ZTK_EXCL : RP := ⟨ZTK_EXCL_LO, ZTK_EXCL_HI⟩
def ZTK_INCOMP : RP := ⟨ZTK_INCOMP_LO, ZTK_INCOMP_HI⟩
def ZTK_HELD (k : Nat) : RP := ⟨ZTK_HELD_LO k, ZTK_HELD_HI k⟩
def SAF_RTON : RP := ⟨SAF_RTON_LO, SAF_RTON_HI⟩
def SAF_LOR (k : Nat) : RP := ⟨SAF_LOR_LO k, SAF_LOR_HI k⟩
def SCX_PID (k : Nat) : RP := ⟨SCX_PID_LO k, SCX_PID_HI k⟩
def CBUS_SMDAT : RP := ⟨CBUS_SMDAT_LO, CBUS_SMDAT_HI⟩
def TIM_CT : RP := ⟨TIM_CT_LO, TIM_CT_HI⟩
def TIM_MONO : RP := ⟨TIM_MONO_LO, TIM_MONO_HI⟩
def TIM_PT : RP := ⟨TIM_PT_LO, TIM_PT_HI⟩
def TIM_P12 : RP := ⟨TIM_P12_LO, TIM_P12_HI⟩
def TIM_SNAP (k : Nat) : RP := ⟨TIM_SNAP_LO k, TIM_SNAP_HI k⟩
def TIM_PVAL (k : Nat) : RP := ⟨TIM_PVAL_LO k, TIM_PVAL_HI k⟩
def TIM_PGM (k : Nat) : RP := ⟨TIM_PGM_LO k, TIM_PGM_HI k⟩
def TIM_EVTGT (k : Nat) : RP := ⟨TIM_EVTGT_LO k, TIM_EVTGT_HI k⟩
def TIM_EVTS (k : Nat) : RP := ⟨TIM_EVTS_LO k, TIM_EVTS_HI k⟩
def RED_PDEV : RP := ⟨RED_PDEV_LO, RED_PDEV_HI⟩
def HOST_EVPEND : RP := ⟨HOST_EVPEND_LO, HOST_EVPEND_HI⟩
def TRC_DATA : RP := ⟨TRC_DATA_LO, TRC_DATA_HI⟩
def CHN_DEVID : RP := ⟨CHN_DEVID_LO, CHN_DEVID_HI⟩
def CFG_SLOT_BIND (k : Nat) : RP := ⟨CFG_SLOT_BIND_LO k, CFG_SLOT_BIND_HI k⟩

end Reg

def rows00_0 : List Row := [
  ⟨0x0, 4, 1, 4, 1, 0xa1, 0x0, 0x0, 0x0, 0x0⟩,
  ⟨0x4, 4, 1, 4, 1, 0x1, 0x0, 0x0, 0x2000, 0x0⟩,
  ⟨0x8, 4, 1, 4, 1, 0x0, 0x0, 0x0, 0x0, 0xffff000f⟩,
  ⟨0x10, 4, 1, 4, 1, 0x0, 0x0, 0x0, 0x0, 0x0⟩,
  ⟨0x14, 4, 1, 4, 1, 0x0, 0x0, 0x0, 0x0, 0x0⟩,
  ⟨0x20, 4, 1, 4, 1, 0x0, 0x0, 0x0, 0x0, 0xffff0001⟩,
  ⟨0x24, 4, 1, 4, 1, 0x0, 0xff, 0x0, 0xc0000, 0x300⟩,
  ⟨0x28, 4, 1, 4, 1, 0xa, 0xffff, 0x0, 0x0, 0x0⟩,
  ⟨0x2c, 4, 1, 4, 1, 0x0, 0x0, 0x0, 0x0, 0x0⟩]
def rows01_0 : List Row := [
  ⟨0x1000, 4, 1, 4, 1, 0x0, 0x0, 0x0, 0x6, 0x0⟩,
  ⟨0x1004, 4, 1, 4, 1, 0x300, 0x0, 0x0, 0x0, 0x0⟩,
  ⟨0x100c, 4, 1, 4, 1, 0x0, 0x0, 0x0, 0x8, 0x0⟩,
  ⟨0x1008, 4, 1, 4, 1, 0xe6a98b, 0x0, 0x0, 0x0, 0x0⟩,
  ⟨0x1010, 4, 1, 4, 1, 0x0, 0xffffffff, 0x0, 0x0, 0x0⟩,
  ⟨0x1014, 4, 1, 4, 1, 0x0, 0x0, 0x0, 0x0, 0xffff000f⟩,
  ⟨0x1018, 4, 1, 4, 1, 0x10, 0x0, 0xffff, 0x0, 0x0⟩,
  ⟨0x101c, 4, 1, 4, 1, 0x0, 0x0, 0x0, 0x0, 0x0⟩,
  ⟨0x1020, 4, 8, 4, 1, 0x0, 0x0, 0x0, 0x0, 0x0⟩,
  ⟨0x1100, 4, 1, 4, 1, 0x0, 0x0, 0x0, 0x0, 0x0⟩,
  ⟨0x1104, 4, 1, 4, 1, 0x0, 0x0, 0x0, 0x0, 0x0⟩,
  ⟨0x1108, 4, 1, 4, 1, 0x0, 0x0, 0x0, 0x0, 0x0⟩]
def rows02_0 : List Row := [
  ⟨0x2100, 4, 1, 4, 1, 0x0, 0x0, 0x0, 0x0, 0x0⟩,
  ⟨0x2104, 4, 1, 4, 1, 0x0, 0x0, 0x0, 0x0, 0xffff000f⟩,
  ⟨0x210c, 4, 1, 4, 1, 0x0, 0x0, 0x0, 0x0, 0x0⟩,
  ⟨0x2000, 4, 1, 4, 1, 0x0, 0x0, 0x0, 0x0, 0x0⟩,
  ⟨0x2004, 4, 1, 4, 1, 0x0, 0x0, 0x0, 0x0, 0x0⟩,
  ⟨0x2008, 4, 1, 4, 1, 0x0, 0x0, 0x0, 0x0, 0x0⟩,
  ⟨0x200c, 4, 1, 4, 1, 0x0, 0x0, 0x0, 0x0, 0x0⟩,
  ⟨0x2108, 4, 1, 4, 1, 0x0, 0x0, 0x0, 0x0, 0xffff⟩,
  ⟨0x2110, 4, 1, 4, 1, 0x0, 0x0, 0x0, 0x0, 0x0⟩,
  ⟨0x2114, 4, 1, 4, 1, 0x0, 0x0, 0x0, 0x0, 0x0⟩,
  ⟨0x2118, 4, 1, 4, 1, 0x0, 0x0, 0x0, 0x0, 0x0⟩,
  ⟨0x2140, 32, 2, 4, 1, 0x0, 0x0, 0x0, 0x0, 0x0⟩,
  ⟨0x2144, 32, 2, 4, 1, 0x0, 0x0, 0x0, 0x0, 0x0⟩,
  ⟨0x2148, 32, 2, 4, 1, 0x0, 0x0, 0x0, 0x0, 0x0⟩,
  ⟨0x214c, 32, 2, 4, 1, 0x0, 0x0, 0x0, 0x0, 0x0⟩,
  ⟨0x2150, 32, 2, 4, 1, 0x0, 0x0, 0x0, 0x0, 0x0⟩,
  ⟨0x2154, 32, 2, 4, 1, 0x0, 0x0, 0x0, 0x0, 0x0⟩]
def rows03_0 : List Row := [
  ⟨0x3004, 4, 1, 4, 1, 0x0, 0x0, 0x0, 0x4, 0x0⟩,
  ⟨0x3000, 4, 1, 4, 1, 0x0, 0x0, 0x0, 0x0, 0xffff000f⟩,
  ⟨0x3008, 4, 1, 4, 1, 0x0, 0xffffff, 0x0, 0x0, 0x0⟩,
  ⟨0x300c, 4, 1, 4, 1, 0x0, 0xffffff, 0x0, 0x0, 0x0⟩,
  ⟨0x3010, 4, 1, 4, 1, 0x0, 0x1fff, 0x0, 0x0, 0x0⟩,
  ⟨0x3014, 4, 1, 4, 1, 0x0, 0xffffffff, 0x0, 0x0, 0x0⟩,
  ⟨0x3018, 4, 1, 4, 1, 0x0, 0x0, 0x0, 0x0, 0x0⟩,
  ⟨0x301c, 4, 1, 4, 1, 0x0, 0x0, 0x0, 0x0, 0x0⟩,
  ⟨0x3020, 4, 1, 4, 1, 0x0, 0x0, 0x0, 0x0, 0x0⟩,
  ⟨0x3024, 4, 1, 4, 1, 0x0, 0x0, 0x0, 0x0, 0x0⟩,
  ⟨0x3028, 4, 1, 4, 1, 0x0, 0x0, 0x0, 0x0, 0x0⟩]
def rows04_0 : List Row := [
  ⟨0x4018, 4, 1, 4, 1, 0x0, 0x0, 0x0, 0x0, 0x0⟩,
  ⟨0x4000, 4, 1, 4, 1, 0x0, 0x0, 0x0, 0x0, 0x0⟩,
  ⟨0x4004, 4, 1, 4, 1, 0x0, 0x0, 0x0, 0x0, 0x0⟩,
  ⟨0x4008, 4, 1, 4, 1, 0x0, 0x0, 0x0, 0x0, 0x0⟩,
  ⟨0x400c, 4, 1, 4, 1, 0x0, 0x0, 0x0, 0x0, 0x0⟩,
  ⟨0x4010, 4, 1, 4, 1, 0x0, 0x0, 0x0, 0x0, 0x0⟩,
  ⟨0x4014, 4, 1, 4, 1, 0x0, 0x0, 0x0, 0x0, 0x1⟩,
  ⟨0x401c, 4, 1, 4, 1, 0x0, 0x0, 0x0, 0x0, 0x0⟩,
  ⟨0x4020, 4, 1, 4, 1, 0x0, 0x0, 0x0, 0x0, 0x0⟩,
  ⟨0x4024, 4, 1, 4, 1, 0x0, 0x0, 0x0, 0x0, 0x0⟩,
  ⟨0x4028, 4, 1, 4, 1, 0x0, 0x0, 0x0, 0x0, 0x0⟩,
  ⟨0x4030, 4, 1, 4, 1, 0x7e, 0x0, 0x7e, 0x0, 0x0⟩,
  ⟨0x4034, 4, 1, 4, 1, 0x0, 0x0, 0x0, 0x0, 0xff⟩,
  ⟨0x4040, 4, 7, 4, 1, 0x0, 0x0, 0x0, 0x0, 0x0⟩]
def rows05_0 : List Row := [
  ⟨0x5004, 4, 1, 4, 1, 0x0, 0x0, 0x0, 0x2, 0x0⟩,
  ⟨0x5020, 4, 5, 4, 1, 0x0, 0x0, 0x0, 0x0, 0x0⟩,
  ⟨0x50c0, 8, 16, 4, 1, 0x400, 0x0, 0xfffff7ff, 0x0, 0x0⟩,
  ⟨0x50c4, 8, 16, 4, 1, 0x10000, 0x0, 0xffffff, 0x0, 0x0⟩,
  ⟨0x5000, 4, 1, 4, 1, 0x0, 0x0, 0x0, 0x0, 0x0⟩,
  ⟨0x5008, 4, 1, 4, 1, 0x0, 0x0, 0x0, 0x0, 0x0⟩,
  ⟨0x500c, 4, 1, 4, 1, 0x0, 0x0, 0x0, 0x0, 0x0⟩,
  ⟨0x5010, 4, 1, 4, 1, 0x0, 0x0, 0x0, 0x0, 0x0⟩,
  ⟨0x5014, 4, 1, 4, 1, 0x0, 0x0, 0x0, 0x0, 0x0⟩,
  ⟨0x5018, 4, 1, 4, 1, 0x0, 0x0, 0x0, 0x0, 0x0⟩,
  ⟨0x501c, 4, 1, 4, 1, 0x0, 0x0, 0x0, 0x0, 0x0⟩,
  ⟨0x5040, 4, 5, 4, 1, 0x0, 0x0, 0x0, 0x0, 0x0⟩,
  ⟨0x5060, 4, 5, 4, 1, 0x0, 0x0, 0x0, 0x0, 0x0⟩,
  ⟨0x5080, 4, 9, 4, 1, 0x0, 0x0, 0x0, 0x0, 0x0⟩]
def rows06_0 : List Row := [
  ⟨0x6000, 512, 8, 4, 1, 0x131, 0x0, 0x1f1, 0x0, 0x0⟩,
  ⟨0x6004, 512, 8, 4, 1, 0x0, 0x0, 0x0, 0x0, 0x3⟩,
  ⟨0x6008, 512, 8, 4, 1, 0x1, 0x0, 0x0, 0x1000000, 0x0⟩,
  ⟨0x600c, 512, 8, 4, 1, 0x0, 0x0, 0x0, 0x0, 0x0⟩,
  ⟨0x6010, 512, 8, 4, 1, 0x0, 0x0, 0x0, 0x0, 0x0⟩,
  ⟨0x6014, 512, 8, 4, 1, 0x0, 0x0, 0x0, 0x0, 0x0⟩]
def rows07_0 : List Row := [
  ⟨0x7000, 4, 64, 4, 1, 0x0, 0x0, 0x0, 0x1ff, 0x0⟩]
def rows08_0 : List Row := [
  ⟨0x8000, 256, 64, 4, 1, 0x0, 0x0, 0x773fff07, 0x0, 0x0⟩,
  ⟨0x8004, 256, 64, 4, 1, 0x0, 0x0, 0x1f03, 0x0, 0x0⟩,
  ⟨0x8008, 256, 64, 4, 1, 0x60, 0x0, 0x7ef, 0x0, 0x0⟩,
  ⟨0x800c, 256, 64, 4, 1, 0x1, 0x0, 0xffffffff, 0x0, 0x0⟩,
  ⟨0x8010, 256, 64, 4, 1, 0x1, 0x0, 0xffff003f, 0x0, 0x0⟩,
  ⟨0x8014, 256, 64, 4, 1, 0x0, 0x0, 0xffffffff, 0x0, 0x0⟩,
  ⟨0x8018, 256, 64, 4, 1, 0x0, 0x0, 0xffffffff, 0x0, 0x0⟩,
  ⟨0x801c, 256, 64, 4, 1, 0x4000, 0x0, 0xffff, 0x0, 0x0⟩,
  ⟨0x8020, 256, 64, 4, 1, 0x0, 0x0, 0xffffffff, 0x0, 0x0⟩,
  ⟨0x8024, 256, 64, 4, 1, 0x0, 0x0, 0xffffffff, 0x0, 0x0⟩,
  ⟨0x8028, 256, 64, 4, 1, 0x0, 0x0, 0xffffffff, 0x0, 0x0⟩,
  ⟨0x802c, 256, 64, 4, 1, 0x0, 0x0, 0xffff, 0x0, 0x0⟩,
  ⟨0x8030, 256, 64, 4, 1, 0x4000, 0x0, 0xffffffff, 0x0, 0x0⟩,
  ⟨0x803c, 256, 64, 4, 1, 0x4000, 0x0, 0xffffffff, 0x0, 0x0⟩,
  ⟨0x8034, 256, 64, 4, 1, 0x0, 0x0, 0xffffffff, 0x0, 0x0⟩,
  ⟨0x8040, 256, 64, 4, 1, 0x0, 0x0, 0xffffffff, 0x0, 0x0⟩,
  ⟨0x8038, 256, 64, 4, 1, 0x0, 0x0, 0xffff, 0x0, 0x0⟩,
  ⟨0x8044, 256, 64, 4, 1, 0x0, 0x0, 0xffff, 0x0, 0x0⟩,
  ⟨0x8048, 256, 64, 4, 1, 0x0, 0x0, 0xffffffff, 0x0, 0x0⟩,
  ⟨0x804c, 256, 64, 4, 1, 0x0, 0x0, 0xffffffff, 0x0, 0x0⟩,
  ⟨0x8050, 256, 64, 4, 1, 0x0, 0x0, 0xffffffff, 0x0, 0x0⟩,
  ⟨0x8054, 256, 64, 4, 1, 0x0, 0x0, 0xffff, 0x0, 0x0⟩,
  ⟨0x8058, 256, 64, 4, 1, 0x0, 0x0, 0xffffffff, 0x0, 0x0⟩,
  ⟨0x805c, 256, 64, 4, 1, 0x7fff, 0x0, 0xffffffff, 0x0, 0x0⟩,
  ⟨0x8060, 256, 64, 4, 1, 0x0, 0x0, 0x1fff1fff, 0x0, 0x0⟩,
  ⟨0x8064, 256, 64, 4, 1, 0x0, 0x0, 0xffffffff, 0x0, 0x0⟩,
  ⟨0x8068, 256, 64, 4, 1, 0x3f800000, 0x0, 0xffffffff, 0x0, 0x0⟩,
  ⟨0x806c, 256, 64, 4, 1, 0x0, 0x0, 0x1fff, 0x0, 0x0⟩,
  ⟨0x8084, 256, 64, 4, 1, 0x0, 0x0, 0x0, 0x0, 0x0⟩,
  ⟨0x8088, 256, 64, 4, 1, 0x0, 0x0, 0x0, 0x0, 0x0⟩]
def rows08_1 : List Row := [
  ⟨0x808c, 256, 64, 4, 1, 0x0, 0x0, 0x0, 0x0, 0x0⟩,
  ⟨0x8090, 256, 64, 4, 1, 0x0, 0x0, 0x0, 0x0, 0x0⟩,
  ⟨0x8094, 256, 64, 4, 1, 0x0, 0x0, 0x0, 0x0, 0x0⟩,
  ⟨0x8098, 256, 64, 4, 1, 0x0, 0x0, 0x0, 0x0, 0x0⟩,
  ⟨0x809c, 256, 64, 4, 1, 0x0, 0x0, 0x0, 0x0, 0x0⟩,
  ⟨0x8080, 256, 64, 4, 1, 0x1, 0x0, 0x0, 0xe4, 0x0⟩]
def rows09_0 : List Row := [
  ⟨0x8000, 256, 64, 4, 1, 0x0, 0x0, 0x773fff07, 0x0, 0x0⟩,
  ⟨0x8004, 256, 64, 4, 1, 0x0, 0x0, 0x1f03, 0x0, 0x0⟩,
  ⟨0x8008, 256, 64, 4, 1, 0x60, 0x0, 0x7ef, 0x0, 0x0⟩,
  ⟨0x800c, 256, 64, 4, 1, 0x1, 0x0, 0xffffffff, 0x0, 0x0⟩,
  ⟨0x8010, 256, 64, 4, 1, 0x1, 0x0, 0xffff003f, 0x0, 0x0⟩,
  ⟨0x8014, 256, 64, 4, 1, 0x0, 0x0, 0xffffffff, 0x0, 0x0⟩,
  ⟨0x8018, 256, 64, 4, 1, 0x0, 0x0, 0xffffffff, 0x0, 0x0⟩,
  ⟨0x801c, 256, 64, 4, 1, 0x4000, 0x0, 0xffff, 0x0, 0x0⟩,
  ⟨0x8020, 256, 64, 4, 1, 0x0, 0x0, 0xffffffff, 0x0, 0x0⟩,
  ⟨0x8024, 256, 64, 4, 1, 0x0, 0x0, 0xffffffff, 0x0, 0x0⟩,
  ⟨0x8028, 256, 64, 4, 1, 0x0, 0x0, 0xffffffff, 0x0, 0x0⟩,
  ⟨0x802c, 256, 64, 4, 1, 0x0, 0x0, 0xffff, 0x0, 0x0⟩,
  ⟨0x8030, 256, 64, 4, 1, 0x4000, 0x0, 0xffffffff, 0x0, 0x0⟩,
  ⟨0x803c, 256, 64, 4, 1, 0x4000, 0x0, 0xffffffff, 0x0, 0x0⟩,
  ⟨0x8034, 256, 64, 4, 1, 0x0, 0x0, 0xffffffff, 0x0, 0x0⟩,
  ⟨0x8040, 256, 64, 4, 1, 0x0, 0x0, 0xffffffff, 0x0, 0x0⟩,
  ⟨0x8038, 256, 64, 4, 1, 0x0, 0x0, 0xffff, 0x0, 0x0⟩,
  ⟨0x8044, 256, 64, 4, 1, 0x0, 0x0, 0xffff, 0x0, 0x0⟩,
  ⟨0x8048, 256, 64, 4, 1, 0x0, 0x0, 0xffffffff, 0x0, 0x0⟩,
  ⟨0x804c, 256, 64, 4, 1, 0x0, 0x0, 0xffffffff, 0x0, 0x0⟩,
  ⟨0x8050, 256, 64, 4, 1, 0x0, 0x0, 0xffffffff, 0x0, 0x0⟩,
  ⟨0x8054, 256, 64, 4, 1, 0x0, 0x0, 0xffff, 0x0, 0x0⟩,
  ⟨0x8058, 256, 64, 4, 1, 0x0, 0x0, 0xffffffff, 0x0, 0x0⟩,
  ⟨0x805c, 256, 64, 4, 1, 0x7fff, 0x0, 0xffffffff, 0x0, 0x0⟩,
  ⟨0x8060, 256, 64, 4, 1, 0x0, 0x0, 0x1fff1fff, 0x0, 0x0⟩,
  ⟨0x8064, 256, 64, 4, 1, 0x0, 0x0, 0xffffffff, 0x0, 0x0⟩,
  ⟨0x8068, 256, 64, 4, 1, 0x3f800000, 0x0, 0xffffffff, 0x0, 0x0⟩,
  ⟨0x806c, 256, 64, 4, 1, 0x0, 0x0, 0x1fff, 0x0, 0x0⟩,
  ⟨0x8084, 256, 64, 4, 1, 0x0, 0x0, 0x0, 0x0, 0x0⟩,
  ⟨0x8088, 256, 64, 4, 1, 0x0, 0x0, 0x0, 0x0, 0x0⟩]
def rows09_1 : List Row := [
  ⟨0x808c, 256, 64, 4, 1, 0x0, 0x0, 0x0, 0x0, 0x0⟩,
  ⟨0x8090, 256, 64, 4, 1, 0x0, 0x0, 0x0, 0x0, 0x0⟩,
  ⟨0x8094, 256, 64, 4, 1, 0x0, 0x0, 0x0, 0x0, 0x0⟩,
  ⟨0x8098, 256, 64, 4, 1, 0x0, 0x0, 0x0, 0x0, 0x0⟩,
  ⟨0x809c, 256, 64, 4, 1, 0x0, 0x0, 0x0, 0x0, 0x0⟩,
  ⟨0x8080, 256, 64, 4, 1, 0x1, 0x0, 0x0, 0xe4, 0x0⟩]
def rows0A_0 : List Row := [
  ⟨0x8000, 256, 64, 4, 1, 0x0, 0x0, 0x773fff07, 0x0, 0x0⟩,
  ⟨0x8004, 256, 64, 4, 1, 0x0, 0x0, 0x1f03, 0x0, 0x0⟩,
  ⟨0x8008, 256, 64, 4, 1, 0x60, 0x0, 0x7ef, 0x0, 0x0⟩,
  ⟨0x800c, 256, 64, 4, 1, 0x1, 0x0, 0xffffffff, 0x0, 0x0⟩,
  ⟨0x8010, 256, 64, 4, 1, 0x1, 0x0, 0xffff003f, 0x0, 0x0⟩,
  ⟨0x8014, 256, 64, 4, 1, 0x0, 0x0, 0xffffffff, 0x0, 0x0⟩,
  ⟨0x8018, 256, 64, 4, 1, 0x0, 0x0, 0xffffffff, 0x0, 0x0⟩,
  ⟨0x801c, 256, 64, 4, 1, 0x4000, 0x0, 0xffff, 0x0, 0x0⟩,
  ⟨0x8020, 256, 64, 4, 1, 0x0, 0x0, 0xffffffff, 0x0, 0x0⟩,
  ⟨0x8024, 256, 64, 4, 1, 0x0, 0x0, 0xffffffff, 0x0, 0x0⟩,
  ⟨0x8028, 256, 64, 4, 1, 0x0, 0x0, 0xffffffff, 0x0, 0x0⟩,
  ⟨0x802c, 256, 64, 4, 1, 0x0, 0x0, 0xffff, 0x0, 0x0⟩,
  ⟨0x8030, 256, 64, 4, 1, 0x4000, 0x0, 0xffffffff, 0x0, 0x0⟩,
  ⟨0x803c, 256, 64, 4, 1, 0x4000, 0x0, 0xffffffff, 0x0, 0x0⟩,
  ⟨0x8034, 256, 64, 4, 1, 0x0, 0x0, 0xffffffff, 0x0, 0x0⟩,
  ⟨0x8040, 256, 64, 4, 1, 0x0, 0x0, 0xffffffff, 0x0, 0x0⟩,
  ⟨0x8038, 256, 64, 4, 1, 0x0, 0x0, 0xffff, 0x0, 0x0⟩,
  ⟨0x8044, 256, 64, 4, 1, 0x0, 0x0, 0xffff, 0x0, 0x0⟩,
  ⟨0x8048, 256, 64, 4, 1, 0x0, 0x0, 0xffffffff, 0x0, 0x0⟩,
  ⟨0x804c, 256, 64, 4, 1, 0x0, 0x0, 0xffffffff, 0x0, 0x0⟩,
  ⟨0x8050, 256, 64, 4, 1, 0x0, 0x0, 0xffffffff, 0x0, 0x0⟩,
  ⟨0x8054, 256, 64, 4, 1, 0x0, 0x0, 0xffff, 0x0, 0x0⟩,
  ⟨0x8058, 256, 64, 4, 1, 0x0, 0x0, 0xffffffff, 0x0, 0x0⟩,
  ⟨0x805c, 256, 64, 4, 1, 0x7fff, 0x0, 0xffffffff, 0x0, 0x0⟩,
  ⟨0x8060, 256, 64, 4, 1, 0x0, 0x0, 0x1fff1fff, 0x0, 0x0⟩,
  ⟨0x8064, 256, 64, 4, 1, 0x0, 0x0, 0xffffffff, 0x0, 0x0⟩,
  ⟨0x8068, 256, 64, 4, 1, 0x3f800000, 0x0, 0xffffffff, 0x0, 0x0⟩,
  ⟨0x806c, 256, 64, 4, 1, 0x0, 0x0, 0x1fff, 0x0, 0x0⟩,
  ⟨0x8084, 256, 64, 4, 1, 0x0, 0x0, 0x0, 0x0, 0x0⟩,
  ⟨0x8088, 256, 64, 4, 1, 0x0, 0x0, 0x0, 0x0, 0x0⟩]
def rows0A_1 : List Row := [
  ⟨0x808c, 256, 64, 4, 1, 0x0, 0x0, 0x0, 0x0, 0x0⟩,
  ⟨0x8090, 256, 64, 4, 1, 0x0, 0x0, 0x0, 0x0, 0x0⟩,
  ⟨0x8094, 256, 64, 4, 1, 0x0, 0x0, 0x0, 0x0, 0x0⟩,
  ⟨0x8098, 256, 64, 4, 1, 0x0, 0x0, 0x0, 0x0, 0x0⟩,
  ⟨0x809c, 256, 64, 4, 1, 0x0, 0x0, 0x0, 0x0, 0x0⟩,
  ⟨0x8080, 256, 64, 4, 1, 0x1, 0x0, 0x0, 0xe4, 0x0⟩]
def rows0B_0 : List Row := [
  ⟨0x8000, 256, 64, 4, 1, 0x0, 0x0, 0x773fff07, 0x0, 0x0⟩,
  ⟨0x8004, 256, 64, 4, 1, 0x0, 0x0, 0x1f03, 0x0, 0x0⟩,
  ⟨0x8008, 256, 64, 4, 1, 0x60, 0x0, 0x7ef, 0x0, 0x0⟩,
  ⟨0x800c, 256, 64, 4, 1, 0x1, 0x0, 0xffffffff, 0x0, 0x0⟩,
  ⟨0x8010, 256, 64, 4, 1, 0x1, 0x0, 0xffff003f, 0x0, 0x0⟩,
  ⟨0x8014, 256, 64, 4, 1, 0x0, 0x0, 0xffffffff, 0x0, 0x0⟩,
  ⟨0x8018, 256, 64, 4, 1, 0x0, 0x0, 0xffffffff, 0x0, 0x0⟩,
  ⟨0x801c, 256, 64, 4, 1, 0x4000, 0x0, 0xffff, 0x0, 0x0⟩,
  ⟨0x8020, 256, 64, 4, 1, 0x0, 0x0, 0xffffffff, 0x0, 0x0⟩,
  ⟨0x8024, 256, 64, 4, 1, 0x0, 0x0, 0xffffffff, 0x0, 0x0⟩,
  ⟨0x8028, 256, 64, 4, 1, 0x0, 0x0, 0xffffffff, 0x0, 0x0⟩,
  ⟨0x802c, 256, 64, 4, 1, 0x0, 0x0, 0xffff, 0x0, 0x0⟩,
  ⟨0x8030, 256, 64, 4, 1, 0x4000, 0x0, 0xffffffff, 0x0, 0x0⟩,
  ⟨0x803c, 256, 64, 4, 1, 0x4000, 0x0, 0xffffffff, 0x0, 0x0⟩,
  ⟨0x8034, 256, 64, 4, 1, 0x0, 0x0, 0xffffffff, 0x0, 0x0⟩,
  ⟨0x8040, 256, 64, 4, 1, 0x0, 0x0, 0xffffffff, 0x0, 0x0⟩,
  ⟨0x8038, 256, 64, 4, 1, 0x0, 0x0, 0xffff, 0x0, 0x0⟩,
  ⟨0x8044, 256, 64, 4, 1, 0x0, 0x0, 0xffff, 0x0, 0x0⟩,
  ⟨0x8048, 256, 64, 4, 1, 0x0, 0x0, 0xffffffff, 0x0, 0x0⟩,
  ⟨0x804c, 256, 64, 4, 1, 0x0, 0x0, 0xffffffff, 0x0, 0x0⟩,
  ⟨0x8050, 256, 64, 4, 1, 0x0, 0x0, 0xffffffff, 0x0, 0x0⟩,
  ⟨0x8054, 256, 64, 4, 1, 0x0, 0x0, 0xffff, 0x0, 0x0⟩,
  ⟨0x8058, 256, 64, 4, 1, 0x0, 0x0, 0xffffffff, 0x0, 0x0⟩,
  ⟨0x805c, 256, 64, 4, 1, 0x7fff, 0x0, 0xffffffff, 0x0, 0x0⟩,
  ⟨0x8060, 256, 64, 4, 1, 0x0, 0x0, 0x1fff1fff, 0x0, 0x0⟩,
  ⟨0x8064, 256, 64, 4, 1, 0x0, 0x0, 0xffffffff, 0x0, 0x0⟩,
  ⟨0x8068, 256, 64, 4, 1, 0x3f800000, 0x0, 0xffffffff, 0x0, 0x0⟩,
  ⟨0x806c, 256, 64, 4, 1, 0x0, 0x0, 0x1fff, 0x0, 0x0⟩,
  ⟨0x8084, 256, 64, 4, 1, 0x0, 0x0, 0x0, 0x0, 0x0⟩,
  ⟨0x8088, 256, 64, 4, 1, 0x0, 0x0, 0x0, 0x0, 0x0⟩]
def rows0B_1 : List Row := [
  ⟨0x808c, 256, 64, 4, 1, 0x0, 0x0, 0x0, 0x0, 0x0⟩,
  ⟨0x8090, 256, 64, 4, 1, 0x0, 0x0, 0x0, 0x0, 0x0⟩,
  ⟨0x8094, 256, 64, 4, 1, 0x0, 0x0, 0x0, 0x0, 0x0⟩,
  ⟨0x8098, 256, 64, 4, 1, 0x0, 0x0, 0x0, 0x0, 0x0⟩,
  ⟨0x809c, 256, 64, 4, 1, 0x0, 0x0, 0x0, 0x0, 0x0⟩,
  ⟨0x8080, 256, 64, 4, 1, 0x1, 0x0, 0x0, 0xe4, 0x0⟩]
def rows0C_0 : List Row := [
  ⟨0xc000, 512, 8, 4, 1, 0x0, 0x0, 0x1, 0x0, 0x0⟩,
  ⟨0xc018, 512, 8, 4, 1, 0x0, 0x0, 0x0, 0x0, 0x1f1f⟩,
  ⟨0xc01c, 512, 8, 4, 1, 0x0, 0x0, 0x0, 0x3f00, 0x0⟩,
  ⟨0xc020, 512, 8, 4, 1, 0x1000, 0x1fff, 0x0, 0x0, 0x0⟩,
  ⟨0xc024, 512, 8, 4, 1, 0x0, 0x0, 0x0, 0x0, 0x0⟩,
  ⟨0xc004, 512, 8, 4, 1, 0x0, 0x0, 0xffff, 0x0, 0x0⟩,
  ⟨0xc008, 512, 8, 4, 1, 0x0, 0x0, 0xffff, 0x0, 0x0⟩,
  ⟨0xc00c, 512, 8, 4, 1, 0x400, 0x0, 0xffffffff, 0x0, 0x0⟩,
  ⟨0xc010, 512, 8, 4, 1, 0x400, 0x0, 0xffffffff, 0x0, 0x0⟩,
  ⟨0xc014, 512, 8, 4, 1, 0x100, 0x0, 0xffffffff, 0x0, 0x0⟩,
  ⟨0xc028, 512, 8, 4, 1, 0x0, 0xffffffff, 0x0, 0x0, 0x0⟩,
  ⟨0xc02c, 512, 8, 4, 1, 0x0, 0x0, 0x0, 0x0, 0x0⟩,
  ⟨0xc030, 512, 8, 4, 1, 0x0, 0x0, 0x0, 0x0, 0x0⟩,
  ⟨0xc034, 512, 8, 4, 1, 0x0, 0x0, 0x0, 0x0, 0x0⟩,
  ⟨0xc038, 512, 8, 4, 1, 0x0, 0x0, 0x0, 0x0, 0x0⟩,
  ⟨0xc03c, 512, 8, 4, 1, 0x0, 0x0, 0x0, 0x0, 0x0⟩,
  ⟨0xc040, 512, 8, 4, 1, 0x0, 0x0, 0x0, 0x0, 0x0⟩,
  ⟨0xc044, 512, 8, 4, 1, 0x0, 0x0, 0x0, 0x0, 0x0⟩]
def rows0D_0 : List Row := [
  ⟨0xd400, 8, 32, 4, 1, 0x0, 0x0, 0xffff, 0x0, 0x0⟩,
  ⟨0xd404, 8, 32, 4, 1, 0x0, 0x0, 0x7ffff, 0x0, 0x0⟩,
  ⟨0xd500, 16, 4, 4, 1, 0x0, 0xffffffff, 0x0, 0x0, 0x0⟩,
  ⟨0xd504, 16, 4, 4, 1, 0x0, 0x0, 0x0, 0x0, 0x0⟩,
  ⟨0xd508, 16, 4, 4, 1, 0x0, 0x0, 0x0, 0x0, 0x0⟩,
  ⟨0xd000, 64, 16, 4, 1, 0x0, 0x0, 0xffff3f07, 0x0, 0x0⟩,
  ⟨0xd00c, 64, 16, 4, 1, 0x0, 0x0, 0x0, 0xe, 0x0⟩,
  ⟨0xd004, 64, 16, 4, 1, 0x0, 0xffffffff, 0x0, 0x0, 0x0⟩,
  ⟨0xd008, 64, 16, 4, 1, 0x0, 0xffffffff, 0x0, 0x0, 0x0⟩,
  ⟨0xd010, 64, 16, 4, 1, 0x0, 0x0, 0x0, 0x0, 0x0⟩,
  ⟨0xd014, 64, 16, 4, 1, 0x0, 0x0, 0x0, 0x0, 0x0⟩,
  ⟨0xd018, 64, 16, 4, 1, 0x0, 0x0, 0x0, 0x0, 0x0⟩]
def rows0E_0 : List Row := [
  ⟨0xe000, 128, 64, 4, 1, 0x0, 0x0, 0x3f73, 0x0, 0x0⟩,
  ⟨0xe004, 128, 64, 4, 1, 0x0, 0x0, 0x0, 0x0, 0xf⟩,
  ⟨0xe024, 128, 64, 4, 1, 0x0, 0x0, 0x0, 0x1f720, 0x0⟩,
  ⟨0xe008, 128, 64, 4, 1, 0x0, 0xffffffff, 0x0, 0x0, 0x0⟩,
  ⟨0xe00c, 128, 64, 4, 1, 0x0, 0xffffffff, 0x0, 0x0, 0x0⟩,
  ⟨0xe010, 128, 64, 4, 1, 0x0, 0xffffffff, 0x0, 0x0, 0x0⟩,
  ⟨0xe014, 128, 64, 4, 1, 0x0, 0xffffffff, 0x0, 0x0, 0x0⟩,
  ⟨0xe018, 128, 64, 4, 1, 0x0, 0xffffffff, 0x0, 0x0, 0x0⟩,
  ⟨0xe01c, 128, 64, 4, 1, 0x0, 0xffffffff, 0x0, 0x0, 0x0⟩,
  ⟨0xe020, 128, 64, 4, 1, 0x0, 0xffffffff, 0x0, 0x0, 0x0⟩,
  ⟨0xe028, 128, 64, 4, 1, 0x0, 0x0, 0x0, 0x0, 0x0⟩,
  ⟨0xe02c, 128, 64, 4, 1, 0x0, 0x0, 0x0, 0x0, 0x0⟩,
  ⟨0xe030, 128, 64, 4, 1, 0x0, 0x0, 0x0, 0x0, 0x0⟩,
  ⟨0xe034, 128, 64, 4, 1, 0x0, 0x0, 0x0, 0x0, 0x0⟩,
  ⟨0xe038, 128, 64, 4, 1, 0x0, 0x0, 0xffffffff, 0x0, 0x0⟩,
  ⟨0xe03c, 128, 64, 4, 1, 0x80000000, 0x0, 0xffffffff, 0x0, 0x0⟩,
  ⟨0xe040, 128, 64, 4, 1, 0xffffffff, 0x0, 0xffffffff, 0x0, 0x0⟩,
  ⟨0xe044, 128, 64, 4, 1, 0x7fffffff, 0x0, 0xffffffff, 0x0, 0x0⟩,
  ⟨0xe048, 128, 64, 4, 1, 0x0, 0x0, 0xffffffff, 0x0, 0x0⟩,
  ⟨0xe04c, 128, 64, 4, 1, 0x0, 0x0, 0xffffffff, 0x0, 0x0⟩,
  ⟨0xe050, 128, 64, 4, 1, 0x0, 0x0, 0xffffffff, 0x0, 0x0⟩,
  ⟨0xe054, 128, 64, 4, 1, 0x8, 0x0, 0xffff, 0x0, 0x0⟩,
  ⟨0xe058, 128, 64, 4, 1, 0x1, 0x0, 0xffffffff, 0x0, 0x0⟩,
  ⟨0xe05c, 128, 64, 4, 1, 0x1, 0x0, 0xffffffff, 0x0, 0x0⟩,
  ⟨0xe060, 128, 64, 4, 1, 0x0, 0xffffffff, 0x0, 0x0, 0x0⟩,
  ⟨0xe064, 128, 64, 4, 1, 0x0, 0xffffffff, 0x0, 0x0, 0x0⟩,
  ⟨0xe068, 128, 64, 4, 1, 0x0, 0xffffffff, 0x0, 0x0, 0x0⟩,
  ⟨0xe06c, 128, 64, 4, 1, 0x0, 0xffffffff, 0x0, 0x0, 0x0⟩,
  ⟨0xe070, 128, 64, 4, 1, 0x0, 0x0, 0x0, 0x0, 0x0⟩]
def rows0F_0 : List Row := [
  ⟨0xe000, 128, 64, 4, 1, 0x0, 0x0, 0x3f73, 0x0, 0x0⟩,
  ⟨0xe004, 128, 64, 4, 1, 0x0, 0x0, 0x0, 0x0, 0xf⟩,
  ⟨0xe024, 128, 64, 4, 1, 0x0, 0x0, 0x0, 0x1f720, 0x0⟩,
  ⟨0xe008, 128, 64, 4, 1, 0x0, 0xffffffff, 0x0, 0x0, 0x0⟩,
  ⟨0xe00c, 128, 64, 4, 1, 0x0, 0xffffffff, 0x0, 0x0, 0x0⟩,
  ⟨0xe010, 128, 64, 4, 1, 0x0, 0xffffffff, 0x0, 0x0, 0x0⟩,
  ⟨0xe014, 128, 64, 4, 1, 0x0, 0xffffffff, 0x0, 0x0, 0x0⟩,
  ⟨0xe018, 128, 64, 4, 1, 0x0, 0xffffffff, 0x0, 0x0, 0x0⟩,
  ⟨0xe01c, 128, 64, 4, 1, 0x0, 0xffffffff, 0x0, 0x0, 0x0⟩,
  ⟨0xe020, 128, 64, 4, 1, 0x0, 0xffffffff, 0x0, 0x0, 0x0⟩,
  ⟨0xe028, 128, 64, 4, 1, 0x0, 0x0, 0x0, 0x0, 0x0⟩,
  ⟨0xe02c, 128, 64, 4, 1, 0x0, 0x0, 0x0, 0x0, 0x0⟩,
  ⟨0xe030, 128, 64, 4, 1, 0x0, 0x0, 0x0, 0x0, 0x0⟩,
  ⟨0xe034, 128, 64, 4, 1, 0x0, 0x0, 0x0, 0x0, 0x0⟩,
  ⟨0xe038, 128, 64, 4, 1, 0x0, 0x0, 0xffffffff, 0x0, 0x0⟩,
  ⟨0xe03c, 128, 64, 4, 1, 0x80000000, 0x0, 0xffffffff, 0x0, 0x0⟩,
  ⟨0xe040, 128, 64, 4, 1, 0xffffffff, 0x0, 0xffffffff, 0x0, 0x0⟩,
  ⟨0xe044, 128, 64, 4, 1, 0x7fffffff, 0x0, 0xffffffff, 0x0, 0x0⟩,
  ⟨0xe048, 128, 64, 4, 1, 0x0, 0x0, 0xffffffff, 0x0, 0x0⟩,
  ⟨0xe04c, 128, 64, 4, 1, 0x0, 0x0, 0xffffffff, 0x0, 0x0⟩,
  ⟨0xe050, 128, 64, 4, 1, 0x0, 0x0, 0xffffffff, 0x0, 0x0⟩,
  ⟨0xe054, 128, 64, 4, 1, 0x8, 0x0, 0xffff, 0x0, 0x0⟩,
  ⟨0xe058, 128, 64, 4, 1, 0x1, 0x0, 0xffffffff, 0x0, 0x0⟩,
  ⟨0xe05c, 128, 64, 4, 1, 0x1, 0x0, 0xffffffff, 0x0, 0x0⟩,
  ⟨0xe060, 128, 64, 4, 1, 0x0, 0xffffffff, 0x0, 0x0, 0x0⟩,
  ⟨0xe064, 128, 64, 4, 1, 0x0, 0xffffffff, 0x0, 0x0, 0x0⟩,
  ⟨0xe068, 128, 64, 4, 1, 0x0, 0xffffffff, 0x0, 0x0, 0x0⟩,
  ⟨0xe06c, 128, 64, 4, 1, 0x0, 0xffffffff, 0x0, 0x0, 0x0⟩,
  ⟨0xe070, 128, 64, 4, 1, 0x0, 0x0, 0x0, 0x0, 0x0⟩]
def rows10_0 : List Row := [
  ⟨0x10000, 256, 16, 4, 1, 0x0, 0x0, 0x1ff, 0x0, 0x0⟩,
  ⟨0x10030, 256, 16, 4, 1, 0x0, 0x0, 0x0, 0xa, 0x0⟩,
  ⟨0x10038, 256, 16, 4, 1, 0x0, 0x0, 0x0, 0x0, 0x0⟩,
  ⟨0x10004, 256, 16, 4, 1, 0x0, 0x0, 0x3fff, 0x0, 0x0⟩,
  ⟨0x10008, 256, 16, 4, 1, 0x7d, 0x0, 0x3ff, 0x0, 0x0⟩,
  ⟨0x1000c, 256, 16, 4, 1, 0x19, 0x0, 0xff, 0x0, 0x0⟩,
  ⟨0x10010, 256, 16, 4, 1, 0x0, 0x1, 0x0, 0x0, 0x0⟩,
  ⟨0x10014, 256, 16, 4, 1, 0x0, 0xffff, 0x0, 0x0, 0x0⟩,
  ⟨0x10018, 256, 16, 4, 1, 0x0, 0xffff, 0x0, 0x0, 0x0⟩,
  ⟨0x1001c, 256, 16, 4, 1, 0x0, 0xffff, 0x0, 0x0, 0x0⟩,
  ⟨0x10020, 256, 16, 4, 1, 0x0, 0x3, 0x0, 0x0, 0x0⟩,
  ⟨0x10024, 256, 16, 4, 1, 0x0, 0x0, 0xffffffff, 0x0, 0x0⟩,
  ⟨0x10028, 256, 16, 4, 1, 0x0, 0x0, 0xffffffff, 0x0, 0x0⟩,
  ⟨0x1002c, 256, 16, 4, 1, 0x0, 0x0, 0xffffffff, 0x0, 0x0⟩,
  ⟨0x10034, 256, 16, 4, 1, 0x0, 0x0, 0x0, 0x0, 0x1⟩,
  ⟨0x10040, 256, 16, 4, 1, 0x40000000, 0x0, 0xffffffff, 0x0, 0x0⟩,
  ⟨0x10044, 256, 16, 4, 1, 0x40000000, 0x0, 0xffffffff, 0x0, 0x0⟩,
  ⟨0x10048, 256, 16, 4, 1, 0x40000000, 0x0, 0xffffffff, 0x0, 0x0⟩,
  ⟨0x10050, 256, 16, 4, 1, 0x0, 0x0, 0x0, 0x0, 0x0⟩,
  ⟨0x10054, 256, 16, 4, 1, 0x0, 0x0, 0x0, 0x0, 0x0⟩,
  ⟨0x10080, 4, 1, 4, 1, 0x0, 0x0, 0x0, 0x0, 0xffff⟩,
  ⟨0x10084, 4, 1, 4, 1, 0x0, 0x0, 0x0, 0x0, 0x0⟩,
  ⟨0x10090, 4, 4, 4, 1, 0x40000000, 0x0, 0xffffffff, 0x0, 0x0⟩,
  ⟨0x100a0, 4, 4, 4, 1, 0x0, 0x0, 0x0, 0x0, 0x0⟩]
def rows11_0 : List Row := [
  ⟨0x11000, 256, 8, 4, 1, 0xc9d24, 0x0, 0x3ffffff, 0x0, 0x0⟩,
  ⟨0x11024, 256, 8, 4, 1, 0x0, 0x0, 0x0, 0x70000, 0x0⟩,
  ⟨0x11004, 256, 8, 4, 1, 0xfa04080, 0xffffffff, 0x0, 0x0, 0x0⟩,
  ⟨0x11008, 256, 8, 4, 1, 0x100, 0x0, 0xffff, 0x0, 0x0⟩,
  ⟨0x1100c, 256, 8, 4, 1, 0x40, 0x0, 0xffff, 0x0, 0x0⟩,
  ⟨0x11010, 256, 8, 4, 1, 0x0, 0x0, 0x0, 0x0, 0x0⟩,
  ⟨0x11014, 256, 8, 4, 1, 0x0, 0x0, 0x0, 0x0, 0x0⟩,
  ⟨0x11018, 256, 8, 4, 1, 0x0, 0x0, 0x0, 0x0, 0x0⟩,
  ⟨0x1101c, 256, 8, 4, 1, 0x0, 0x0, 0x0, 0x0, 0x0⟩,
  ⟨0x11020, 256, 8, 4, 1, 0x0, 0x0, 0x0, 0x0, 0x0⟩,
  ⟨0x11800, 4, 16, 4, 1, 0x32320000, 0x0, 0xffff01ff, 0x0, 0x0⟩,
  ⟨0x11900, 4, 64, 4, 1, 0x0, 0x0, 0x0, 0x0, 0x0⟩,
  ⟨0x11840, 4, 1, 4, 1, 0x0, 0x0, 0x0, 0x0, 0x0⟩,
  ⟨0x11848, 4, 1, 4, 1, 0x0, 0x0, 0x0, 0x0, 0x0⟩,
  ⟨0x1184c, 4, 1, 4, 1, 0x0, 0x0, 0x0, 0x0, 0x0⟩,
  ⟨0x11850, 4, 1, 4, 1, 0x0, 0x0, 0x0, 0x0, 0xffffffff⟩,
  ⟨0x11854, 4, 1, 4, 1, 0x0, 0x0, 0x0, 0x0, 0xffffffff⟩]
def rows12_0 : List Row := [
  ⟨0x12000, 128, 24, 4, 1, 0x10, 0x0, 0xff0e73, 0x0, 0x0⟩,
  ⟨0x12004, 128, 24, 4, 1, 0x18, 0x0, 0xe00fffff, 0x0, 0x0⟩,
  ⟨0x12008, 128, 24, 4, 1, 0x190019, 0x0, 0xff7f3f3f, 0x0, 0x0⟩,
  ⟨0x12010, 128, 24, 4, 1, 0x14, 0x0, 0x3fffff, 0x0, 0x0⟩,
  ⟨0x12030, 128, 24, 4, 1, 0x0, 0x0, 0x0, 0x3f0, 0x0⟩,
  ⟨0x1200c, 128, 24, 4, 1, 0x0, 0x0, 0xffffffff, 0x0, 0x0⟩,
  ⟨0x12014, 128, 24, 4, 1, 0x0, 0x0, 0xfffff, 0x0, 0x0⟩,
  ⟨0x12018, 128, 24, 4, 1, 0x0, 0x0, 0xffffffff, 0x0, 0x0⟩,
  ⟨0x1201c, 128, 24, 4, 1, 0x1, 0x0, 0xffff, 0x0, 0x0⟩,
  ⟨0x12020, 128, 24, 4, 1, 0x0, 0x0, 0xffffffff, 0x0, 0x0⟩,
  ⟨0x12024, 128, 24, 4, 1, 0x0, 0x0, 0xffffffff, 0x0, 0x0⟩,
  ⟨0x12028, 128, 24, 4, 1, 0x0, 0x0, 0xffffffff, 0x0, 0x0⟩,
  ⟨0x1202c, 128, 24, 4, 1, 0x0, 0x0, 0x0, 0x0, 0x3⟩,
  ⟨0x12034, 128, 24, 4, 1, 0x0, 0x0, 0x0, 0x0, 0x0⟩,
  ⟨0x12038, 128, 24, 4, 1, 0x0, 0x0, 0x0, 0x0, 0x0⟩,
  ⟨0x1203c, 128, 24, 4, 1, 0x0, 0x0, 0x0, 0x0, 0x0⟩,
  ⟨0x12040, 128, 24, 4, 1, 0x0, 0x0, 0x0, 0x0, 0x0⟩,
  ⟨0x12044, 128, 24, 4, 1, 0x0, 0x0, 0x0, 0x0, 0x0⟩,
  ⟨0x12048, 128, 24, 4, 1, 0x0, 0x0, 0x0, 0x0, 0x0⟩,
  ⟨0x1204c, 128, 24, 4, 1, 0x0, 0x0, 0x0, 0x0, 0x0⟩,
  ⟨0x12050, 128, 24, 4, 1, 0x0, 0x0, 0x0, 0x0, 0x0⟩,
  ⟨0x12054, 128, 24, 4, 1, 0x0, 0x0, 0x0, 0x0, 0x0⟩,
  ⟨0x12058, 128, 24, 4, 1, 0x0, 0x0, 0x0, 0x0, 0x0⟩,
  ⟨0x1205c, 128, 24, 4, 1, 0x0, 0x0, 0x0, 0x0, 0x0⟩,
  ⟨0x12060, 128, 24, 4, 1, 0x0, 0x0, 0x0, 0x0, 0x0⟩,
  ⟨0x12064, 128, 24, 4, 1, 0x0, 0x0, 0x0, 0x0, 0x0⟩,
  ⟨0x12068, 128, 24, 4, 1, 0x0, 0x0, 0x0, 0x0, 0x0⟩,
  ⟨0x1206c, 128, 24, 4, 1, 0x0, 0x0, 0x0, 0x0, 0x0⟩,
  ⟨0x12070, 128, 24, 4, 1, 0x0, 0x0, 0x0, 0x0, 0x0⟩,
  ⟨0x12074, 128, 24, 4, 1, 0x0, 0x0, 0x0, 0x0, 0x0⟩]
def rows12_1 : List Row := [
  ⟨0x12c00, 48, 4, 4, 1, 0xa0000, 0x0, 0xff3f73, 0x0, 0x0⟩,
  ⟨0x12c04, 48, 4, 4, 1, 0x1, 0x0, 0xffffffff, 0x0, 0x0⟩,
  ⟨0x12c08, 48, 4, 4, 1, 0x1, 0x0, 0xffffffff, 0x0, 0x0⟩,
  ⟨0x12c0c, 48, 4, 4, 1, 0x100, 0x0, 0xffffffff, 0x0, 0x0⟩,
  ⟨0x12c10, 48, 4, 4, 1, 0x0, 0x0, 0x0, 0x0, 0x0⟩,
  ⟨0x12c14, 48, 4, 4, 1, 0x0, 0x0, 0x0, 0x0, 0x0⟩,
  ⟨0x12c18, 48, 4, 4, 1, 0x0, 0x0, 0x0, 0x0, 0x0⟩,
  ⟨0x12c1c, 48, 4, 4, 1, 0x0, 0x0, 0x0, 0x0, 0x0⟩,
  ⟨0x12c20, 48, 4, 4, 1, 0x0, 0x0, 0x0, 0x0, 0x0⟩,
  ⟨0x12c24, 48, 4, 4, 1, 0x0, 0x0, 0x0, 0x0, 0x0⟩,
  ⟨0x12c28, 48, 4, 4, 1, 0x0, 0x0, 0x0, 0x1, 0x0⟩,
  ⟨0x12d00, 12, 64, 4, 1, 0x1010000, 0x0, 0xfff777f7, 0x0, 0x0⟩,
  ⟨0x12d04, 12, 64, 4, 1, 0x10001, 0x0, 0xffffffff, 0x0, 0x0⟩,
  ⟨0x12d08, 12, 64, 4, 1, 0x0, 0x0, 0xffffffff, 0x0, 0x0⟩,
  ⟨0x12cc0, 4, 1, 4, 1, 0x0, 0x0, 0x0, 0xffffffff, 0x0⟩,
  ⟨0x12cc4, 4, 1, 4, 1, 0x0, 0x0, 0x0, 0xffffffff, 0x0⟩]
def rows13_0 : List Row := [
  ⟨0x13000, 4, 1, 4, 1, 0x0, 0x0, 0x3, 0x0, 0x0⟩,
  ⟨0x13004, 4, 1, 4, 1, 0x0, 0x0, 0x0, 0x0, 0x0⟩,
  ⟨0x13028, 4, 1, 4, 1, 0x0, 0x0, 0x0, 0x300, 0x0⟩,
  ⟨0x13008, 4, 1, 4, 1, 0x0, 0x0, 0x0, 0x0, 0x1⟩,
  ⟨0x13010, 4, 1, 4, 1, 0x40000, 0x0, 0x1fffc0, 0x0, 0x0⟩,
  ⟨0x13014, 4, 1, 4, 1, 0x100, 0x0, 0x1fff, 0x0, 0x0⟩,
  ⟨0x13018, 4, 1, 4, 1, 0x0, 0xffffffff, 0x0, 0x0, 0x0⟩,
  ⟨0x1301c, 4, 1, 4, 1, 0x0, 0x0, 0x0, 0x0, 0x0⟩,
  ⟨0x13020, 4, 1, 4, 1, 0x0, 0x0, 0x0, 0x0, 0x0⟩,
  ⟨0x13024, 4, 1, 4, 1, 0x4000, 0x0, 0xffff, 0x0, 0x0⟩,
  ⟨0x13030, 4, 1, 4, 1, 0x0, 0x0, 0x0, 0x0, 0x0⟩,
  ⟨0x13034, 4, 1, 4, 1, 0x0, 0x0, 0x0, 0x0, 0x0⟩,
  ⟨0x13038, 4, 1, 4, 1, 0x0, 0x0, 0x0, 0x0, 0x0⟩,
  ⟨0x1303c, 4, 1, 4, 1, 0x0, 0x0, 0x0, 0x0, 0x0⟩,
  ⟨0x13040, 4, 1, 4, 1, 0x0, 0x0, 0x0, 0x0, 0x0⟩,
  ⟨0x13044, 4, 1, 4, 1, 0x0, 0x0, 0x0, 0x0, 0x0⟩,
  ⟨0x13048, 4, 1, 4, 1, 0x0, 0x0, 0x0, 0x0, 0x0⟩,
  ⟨0x1304c, 4, 1, 4, 1, 0x0, 0x0, 0x0, 0x0, 0x0⟩,
  ⟨0x13050, 4, 1, 4, 1, 0x0, 0x0, 0x0, 0x0, 0x0⟩,
  ⟨0x13054, 4, 1, 4, 1, 0x0, 0x0, 0x0, 0x0, 0x0⟩,
  ⟨0x13058, 4, 1, 4, 1, 0x0, 0x0, 0x0, 0x0, 0x0⟩,
  ⟨0x1305c, 4, 1, 4, 1, 0x0, 0x0, 0x0, 0x0, 0x0⟩,
  ⟨0x13060, 4, 8, 4, 1, 0x0, 0x0, 0x0, 0x0, 0x0⟩]
def rows14_0 : List Row := [
  ⟨0x14000, 4, 1, 4, 1, 0x13886400, 0x0, 0xfffffff1, 0x0, 0x0⟩,
  ⟨0x14010, 4, 1, 4, 1, 0x0, 0x0, 0x0, 0xf00, 0x0⟩,
  ⟨0x14004, 4, 1, 4, 1, 0x27100, 0x0, 0xffffffff, 0x0, 0x0⟩,
  ⟨0x14008, 4, 1, 4, 1, 0x13880020, 0x0, 0xffffffff, 0x0, 0x0⟩,
  ⟨0x1400c, 4, 1, 4, 1, 0x2, 0x0, 0x7, 0x0, 0x0⟩,
  ⟨0x14014, 4, 1, 4, 1, 0x0, 0x0, 0x0, 0x0, 0x0⟩,
  ⟨0x14018, 4, 1, 4, 1, 0x0, 0x0, 0x0, 0x0, 0x0⟩,
  ⟨0x1401c, 4, 1, 4, 1, 0x0, 0x0, 0x0, 0x0, 0x0⟩,
  ⟨0x14020, 4, 1, 4, 1, 0x0, 0x0, 0x0, 0x0, 0x0⟩,
  ⟨0x14100, 16, 8, 4, 1, 0x0, 0x0, 0xffff80bf, 0x0, 0x0⟩,
  ⟨0x14104, 16, 8, 4, 1, 0x0, 0x0, 0xffffffff, 0x0, 0x0⟩,
  ⟨0x14108, 16, 8, 4, 1, 0x0, 0x0, 0xfffff, 0x0, 0x0⟩,
  ⟨0x1410c, 16, 8, 4, 1, 0x0, 0x0, 0x0, 0x0, 0x0⟩,
  ⟨0x14400, 128, 8, 4, 1, 0x0, 0x0, 0xff0003, 0x0, 0x0⟩,
  ⟨0x1440c, 128, 8, 4, 1, 0x0, 0x0, 0x0, 0x1c, 0x0⟩,
  ⟨0x14404, 128, 8, 4, 1, 0x7d00, 0x0, 0xffffffff, 0x0, 0x0⟩,
  ⟨0x14408, 128, 8, 4, 1, 0x0, 0x0, 0xffffffff, 0x0, 0x0⟩,
  ⟨0x14410, 128, 8, 4, 1, 0x0, 0x0, 0x0, 0x0, 0x0⟩,
  ⟨0x14414, 128, 8, 4, 1, 0x0, 0x0, 0x0, 0x0, 0x0⟩,
  ⟨0x14418, 128, 8, 4, 1, 0x0, 0x0, 0x0, 0x0, 0x0⟩,
  ⟨0x1441c, 128, 8, 4, 1, 0x0, 0x0, 0x0, 0x0, 0x0⟩,
  ⟨0x14420, 128, 8, 4, 1, 0x1000, 0x0, 0xffffffff, 0x0, 0x0⟩,
  ⟨0x14424, 128, 8, 4, 7, 0x0, 0x0, 0xffffffff, 0x0, 0x0⟩,
  ⟨0x14440, 128, 8, 4, 8, 0x0, 0x0, 0xffffffff, 0x0, 0x0⟩,
  ⟨0x14800, 16, 64, 4, 1, 0x0, 0x0, 0xffffffff, 0x0, 0x0⟩,
  ⟨0x14804, 16, 64, 4, 1, 0x0, 0x0, 0xffffffff, 0x0, 0x0⟩,
  ⟨0x14808, 16, 64, 4, 1, 0x0, 0x0, 0xffffffff, 0x0, 0x0⟩,
  ⟨0x1480c, 16, 64, 4, 1, 0x0, 0x0, 0x0, 0x0, 0x0⟩]
def rows15_0 : List Row := [
  ⟨0x15000, 4, 1, 4, 1, 0x40080000, 0x0, 0xffff010f, 0x0, 0x0⟩,
  ⟨0x15008, 4, 1, 4, 1, 0x0, 0x0, 0x0, 0x0, 0xf73f⟩,
  ⟨0x1500c, 4, 1, 4, 1, 0x0, 0x0, 0x0, 0x0, 0xffff073f⟩,
  ⟨0x15004, 4, 1, 4, 1, 0xffff0000, 0x0, 0xffffffff, 0x0, 0x0⟩,
  ⟨0x15010, 4, 1, 4, 1, 0x0, 0x0, 0x0, 0x0, 0x0⟩,
  ⟨0x15014, 4, 1, 4, 1, 0x0, 0x0, 0x0, 0x0, 0x0⟩,
  ⟨0x15018, 4, 1, 4, 1, 0x0, 0x0, 0x0, 0x0, 0x0⟩,
  ⟨0x1501c, 4, 1, 4, 1, 0x0, 0x0, 0x0, 0x0, 0x0⟩,
  ⟨0x15020, 4, 1, 4, 1, 0x0, 0x0, 0x0, 0x0, 0x0⟩,
  ⟨0x15024, 4, 1, 4, 1, 0x0, 0x0, 0x0, 0x0, 0x0⟩,
  ⟨0x15040, 8, 8, 4, 1, 0x0, 0x0, 0x0, 0x0, 0x0⟩,
  ⟨0x15044, 8, 8, 4, 1, 0x0, 0x0, 0x0, 0x0, 0x0⟩,
  ⟨0x15100, 16, 64, 4, 1, 0xff0000, 0x0, 0xff7f07, 0x0, 0x0⟩,
  ⟨0x15108, 16, 64, 4, 1, 0x0, 0x0, 0x0, 0x0, 0x0⟩,
  ⟨0x15104, 16, 64, 4, 1, 0x0, 0x0, 0xffffffff, 0x0, 0x0⟩,
  ⟨0x1510c, 16, 64, 4, 1, 0x0, 0x0, 0x0, 0x0, 0x0⟩]
def rows16_0 : List Row := [
  ⟨0x16000, 4, 1, 4, 1, 0xa0000, 0x0, 0xff0f01, 0x0, 0x0⟩,
  ⟨0x16004, 4, 1, 4, 1, 0x0, 0x0, 0x0, 0xf8, 0x0⟩,
  ⟨0x16008, 4, 1, 4, 1, 0x0, 0x0, 0x0, 0x0, 0x0⟩,
  ⟨0x1600c, 4, 1, 4, 1, 0x0, 0x0, 0x0, 0x0, 0x0⟩,
  ⟨0x16010, 4, 4, 4, 1, 0x0, 0x0, 0x0, 0x0, 0x0⟩,
  ⟨0x16024, 4, 1, 4, 1, 0xa0a, 0x0, 0xfffff, 0x0, 0x0⟩,
  ⟨0x16028, 4, 1, 4, 1, 0x0, 0x0, 0x0, 0x0, 0x0⟩,
  ⟨0x16030, 4, 1, 4, 1, 0x0, 0x0, 0x0, 0x0, 0x0⟩,
  ⟨0x16034, 4, 1, 4, 1, 0x0, 0x0, 0x0, 0x0, 0x0⟩,
  ⟨0x16040, 4, 1, 4, 1, 0x2a5c, 0x0, 0xffff, 0x0, 0x0⟩,
  ⟨0x16044, 4, 1, 4, 1, 0x0, 0x0, 0xffffffff, 0x0, 0x0⟩,
  ⟨0x16048, 4, 1, 4, 1, 0x0, 0x0, 0x0, 0x0, 0x0⟩,
  ⟨0x16100, 4, 20, 4, 1, 0x64, 0x0, 0xf1ff, 0x0, 0x0⟩,
  ⟨0x16200, 16, 16, 4, 1, 0x0, 0x0, 0xf7f, 0x0, 0x0⟩,
  ⟨0x1620c, 16, 16, 4, 1, 0x0, 0x0, 0x0, 0x18, 0x0⟩,
  ⟨0x16204, 16, 16, 4, 1, 0x1e1e1e1e, 0x0, 0x7f7f7f7f, 0x0, 0x0⟩,
  ⟨0x16208, 16, 16, 4, 1, 0x0, 0x0, 0xffffffff, 0x0, 0x0⟩,
  ⟨0x16400, 16, 4, 4, 1, 0x1e0000, 0x0, 0x817fffff, 0x0, 0x0⟩,
  ⟨0x16408, 16, 4, 4, 1, 0x0, 0x0, 0x0, 0x0, 0x0⟩,
  ⟨0x16404, 16, 4, 4, 1, 0x32, 0x0, 0x3ff, 0x0, 0x0⟩,
  ⟨0x16440, 4, 8, 4, 1, 0x1e0000, 0x0, 0x807fffff, 0x0, 0x0⟩,
  ⟨0x16500, 4, 4, 4, 1, 0x0, 0x0, 0xffffffff, 0x0, 0x0⟩,
  ⟨0x16520, 4, 48, 4, 1, 0x0, 0x0, 0x80073f7f, 0x0, 0x0⟩,
  ⟨0x16800, 32, 64, 4, 1, 0x0, 0x0, 0xffffffff, 0x0, 0x0⟩,
  ⟨0x16804, 32, 64, 4, 1, 0x0, 0x0, 0xffffffff, 0x0, 0x0⟩,
  ⟨0x16808, 32, 64, 4, 1, 0x0, 0x0, 0xffffffff, 0x0, 0x0⟩,
  ⟨0x1680c, 32, 64, 4, 1, 0x0, 0x0, 0xffffffff, 0x0, 0x0⟩,
  ⟨0x16810, 32, 64, 4, 1, 0x0, 0x0, 0xffffffff, 0x0, 0x0⟩,
  ⟨0x16814, 32, 64, 4, 1, 0x0, 0x0, 0xffffffff, 0x0, 0x0⟩,
  ⟨0x16818, 32, 64, 4, 1, 0x0, 0x0, 0xffffffff, 0x0, 0x0⟩]
def rows16_1 : List Row := [
  ⟨0x1681c, 32, 64, 4, 1, 0x0, 0x0, 0xffffffff, 0x0, 0x0⟩]
def rows17_0 : List Row := [
  ⟨0x17000, 8, 16, 4, 1, 0x0, 0x0, 0xffffffff, 0x0, 0x0⟩,
  ⟨0x17004, 8, 16, 4, 1, 0x0, 0x0, 0xffffffff, 0x0, 0x0⟩]
def rows18_0 : List Row := [
  ⟨0x18000, 64, 128, 4, 1, 0x1, 0x0, 0xff3f3fff, 0x0, 0x0⟩,
  ⟨0x18018, 64, 128, 4, 1, 0x0, 0x0, 0x0, 0x300, 0x0⟩,
  ⟨0x18004, 64, 128, 4, 1, 0x40000, 0x0, 0xffffff, 0x0, 0x0⟩,
  ⟨0x18008, 64, 128, 4, 1, 0x0, 0x0, 0xffffffff, 0x0, 0x0⟩,
  ⟨0x1800c, 64, 128, 4, 1, 0x0, 0x0, 0xffffffff, 0x0, 0x0⟩,
  ⟨0x18010, 64, 128, 4, 1, 0x4e20, 0x0, 0xfffff, 0x0, 0x0⟩,
  ⟨0x18014, 64, 128, 4, 1, 0x3e8, 0x0, 0xfffff, 0x0, 0x0⟩,
  ⟨0x1801c, 64, 128, 4, 1, 0x0, 0x0, 0x0, 0x0, 0x0⟩,
  ⟨0x18020, 64, 128, 4, 1, 0x0, 0x0, 0x0, 0x0, 0x0⟩,
  ⟨0x18024, 64, 128, 4, 1, 0x0, 0x0, 0x0, 0x0, 0x0⟩,
  ⟨0x18028, 64, 128, 4, 1, 0x0, 0x0, 0x0, 0x0, 0x0⟩,
  ⟨0x1802c, 64, 128, 4, 1, 0x0, 0x0, 0x0, 0x0, 0x0⟩,
  ⟨0x18030, 64, 128, 4, 4, 0x1e1e1e1e, 0x0, 0xffffffff, 0x0, 0x0⟩]
def rows19_0 : List Row := [
  ⟨0x18000, 64, 128, 4, 1, 0x1, 0x0, 0xff3f3fff, 0x0, 0x0⟩,
  ⟨0x18018, 64, 128, 4, 1, 0x0, 0x0, 0x0, 0x300, 0x0⟩,
  ⟨0x18004, 64, 128, 4, 1, 0x40000, 0x0, 0xffffff, 0x0, 0x0⟩,
  ⟨0x18008, 64, 128, 4, 1, 0x0, 0x0, 0xffffffff, 0x0, 0x0⟩,
  ⟨0x1800c, 64, 128, 4, 1, 0x0, 0x0, 0xffffffff, 0x0, 0x0⟩,
  ⟨0x18010, 64, 128, 4, 1, 0x4e20, 0x0, 0xfffff, 0x0, 0x0⟩,
  ⟨0x18014, 64, 128, 4, 1, 0x3e8, 0x0, 0xfffff, 0x0, 0x0⟩,
  ⟨0x1801c, 64, 128, 4, 1, 0x0, 0x0, 0x0, 0x0, 0x0⟩,
  ⟨0x18020, 64, 128, 4, 1, 0x0, 0x0, 0x0, 0x0, 0x0⟩,
  ⟨0x18024, 64, 128, 4, 1, 0x0, 0x0, 0x0, 0x0, 0x0⟩,
  ⟨0x18028, 64, 128, 4, 1, 0x0, 0x0, 0x0, 0x0, 0x0⟩,
  ⟨0x1802c, 64, 128, 4, 1, 0x0, 0x0, 0x0, 0x0, 0x0⟩,
  ⟨0x18030, 64, 128, 4, 4, 0x1e1e1e1e, 0x0, 0xffffffff, 0x0, 0x0⟩]
def rows1A_0 : List Row := [
  ⟨0x1a000, 4, 1, 4, 1, 0x0, 0x0, 0x13f, 0x0, 0x0⟩,
  ⟨0x1a004, 4, 1, 4, 1, 0x0, 0x0, 0x0, 0x7000, 0x0⟩,
  ⟨0x1a008, 4, 1, 4, 1, 0x0, 0x0, 0x0, 0x0, 0x0⟩,
  ⟨0x1a00c, 4, 1, 4, 1, 0x40000, 0x0, 0x0, 0x0, 0x0⟩,
  ⟨0x1a010, 4, 1, 4, 1, 0x0, 0x0, 0x0, 0x0, 0x0⟩,
  ⟨0x1a014, 4, 1, 4, 1, 0x0, 0x0, 0x0, 0x0, 0x0⟩,
  ⟨0x1a018, 4, 1, 4, 1, 0x0, 0x0, 0x0, 0x0, 0x0⟩,
  ⟨0x1a01c, 4, 1, 4, 1, 0x0, 0x0, 0x0, 0x0, 0x3⟩,
  ⟨0x1a020, 4, 1, 4, 1, 0x0, 0x0, 0x0, 0x0, 0x0⟩,
  ⟨0x1a024, 4, 1, 4, 1, 0x0, 0x0, 0x0, 0x0, 0x0⟩,
  ⟨0x1a028, 4, 1, 4, 1, 0x0, 0x0, 0x0, 0x0, 0x0⟩,
  ⟨0x1a02c, 4, 1, 4, 1, 0x0, 0x0, 0x0, 0x0, 0x0⟩,
  ⟨0x1a030, 4, 1, 4, 1, 0x0, 0x0, 0x0, 0x0, 0x0⟩,
  ⟨0x1a034, 4, 1, 4, 1, 0x0, 0x0, 0x0, 0x0, 0x0⟩,
  ⟨0x1a038, 4, 1, 4, 1, 0x0, 0x0, 0x0, 0x0, 0x0⟩,
  ⟨0x1a03c, 4, 1, 4, 1, 0x0, 0x0, 0x0, 0x0, 0x0⟩,
  ⟨0x1a040, 4, 1, 4, 1, 0x0, 0x0, 0x0, 0x0, 0x0⟩,
  ⟨0x1a044, 4, 1, 4, 1, 0x0, 0x0, 0x0, 0x0, 0x0⟩,
  ⟨0x1a048, 4, 1, 4, 1, 0x0, 0x0, 0x0, 0x0, 0x0⟩,
  ⟨0x1a050, 4, 1, 4, 1, 0x0, 0xfff3f, 0x0, 0x0, 0x0⟩,
  ⟨0x1a054, 4, 1, 4, 1, 0x0, 0x0, 0x0, 0x0, 0x0⟩,
  ⟨0x1a058, 4, 1, 4, 1, 0x0, 0xfff, 0x0, 0x0, 0x0⟩,
  ⟨0x1a05c, 4, 1, 4, 1, 0x0, 0x0, 0x0, 0x0, 0x0⟩,
  ⟨0x1a060, 4, 1, 4, 1, 0x0, 0x0, 0x0, 0x0, 0x0⟩,
  ⟨0x1a0c0, 4, 1, 4, 1, 0x0, 0x0, 0x0, 0x0, 0xff3f01⟩,
  ⟨0x1a0c4, 4, 1, 4, 1, 0x0, 0xffffffff, 0x0, 0x0, 0x0⟩,
  ⟨0x1a0c8, 4, 1, 4, 1, 0x0, 0x0, 0x0, 0x2, 0x0⟩,
  ⟨0x1a0cc, 4, 1, 4, 1, 0x0, 0x0, 0x0, 0x0, 0x0⟩,
  ⟨0x1a100, 8, 16, 4, 1, 0x0, 0x0, 0x0, 0x0, 0x0⟩,
  ⟨0x1a104, 8, 16, 4, 1, 0x0, 0x0, 0x0, 0x0, 0x0⟩]
def rows1A_1 : List Row := [
  ⟨0x1a400, 16, 48, 4, 1, 0x0, 0x0, 0x0, 0x0, 0x0⟩,
  ⟨0x1a404, 16, 48, 4, 1, 0x0, 0x0, 0x0, 0x0, 0x0⟩,
  ⟨0x1a408, 16, 48, 4, 1, 0x0, 0x0, 0x0, 0x0, 0x0⟩,
  ⟨0x1a800, 4, 48, 4, 1, 0x0, 0x0, 0x0, 0x0, 0x0⟩]
def rows1B_0 : List Row := [
  ⟨0x1b000, 4, 56, 4, 1, 0x0, 0xffffffff, 0x0, 0x0, 0x0⟩,
  ⟨0x1b100, 4, 56, 4, 1, 0x0, 0x0, 0x0, 0x0, 0x0⟩]
def rows1C_0 : List Row := [
  ⟨0x1c000, 4, 1, 4, 1, 0x0, 0x0, 0x0, 0x0, 0x0⟩,
  ⟨0x1c004, 4, 1, 4, 1, 0x0, 0x0, 0x0, 0x0, 0x0⟩,
  ⟨0x1c008, 4, 1, 4, 1, 0x0, 0x0, 0x0, 0x0, 0x0⟩,
  ⟨0x1c010, 4, 1, 4, 1, 0x0, 0x0, 0x0, 0x0, 0x0⟩,
  ⟨0x1c014, 4, 1, 4, 1, 0x0, 0x0, 0x0, 0x0, 0x0⟩,
  ⟨0x1c018, 4, 1, 4, 1, 0x0, 0x1, 0x0, 0x0, 0x0⟩,
  ⟨0x1c020, 4, 1, 4, 1, 0x0, 0x0, 0x0, 0x0, 0x0⟩,
  ⟨0x1c024, 4, 1, 4, 1, 0x0, 0x0, 0x0, 0x0, 0x0⟩,
  ⟨0x1c028, 4, 1, 4, 1, 0x0, 0x0, 0x0, 0x0, 0x0⟩,
  ⟨0x1c02c, 4, 1, 4, 1, 0x0, 0x0, 0x0, 0x0, 0x0⟩,
  ⟨0x1c030, 4, 1, 4, 1, 0x0, 0x0, 0x0, 0x0, 0x1⟩,
  ⟨0x1c040, 8, 4, 4, 1, 0x0, 0x0, 0x0, 0x0, 0x0⟩,
  ⟨0x1c044, 8, 4, 4, 1, 0x0, 0x0, 0x0, 0x0, 0x0⟩,
  ⟨0x1c104, 64, 2, 4, 1, 0x4000000, 0xffffffff, 0x0, 0x0, 0x0⟩,
  ⟨0x1c108, 64, 2, 4, 1, 0x0, 0x0, 0x0, 0x0, 0xffffffff⟩,
  ⟨0x1c10c, 64, 2, 4, 1, 0x0, 0x0, 0x0, 0x0, 0x0⟩,
  ⟨0x1c110, 64, 2, 4, 1, 0x0, 0x0, 0x0, 0x0, 0x0⟩,
  ⟨0x1c114, 64, 2, 4, 1, 0x0, 0x0, 0x0, 0x0, 0x0⟩,
  ⟨0x1c118, 64, 2, 4, 1, 0x0, 0x0, 0x0, 0x0, 0x0⟩,
  ⟨0x1c11c, 64, 2, 4, 1, 0x0, 0x0, 0x0, 0x0, 0x0⟩,
  ⟨0x1c120, 64, 2, 4, 1, 0x0, 0x0, 0x0, 0x0, 0x0⟩,
  ⟨0x1c200, 8, 3, 4, 1, 0x0, 0x0, 0xffffffff, 0x0, 0x0⟩,
  ⟨0x1c100, 64, 2, 4, 1, 0x640a0004, 0x0, 0xffff7f07, 0x0, 0x0⟩,
  ⟨0x1c124, 64, 2, 4, 1, 0x0, 0x0, 0x0, 0xc0, 0x0⟩,
  ⟨0x1c400, 64, 8, 4, 1, 0x0, 0x0, 0xffff00f3, 0x0, 0x0⟩,
  ⟨0x1c414, 64, 8, 4, 1, 0x0, 0x0, 0x0, 0x3e, 0x0⟩,
  ⟨0x1c404, 64, 8, 4, 1, 0x0, 0xffffffff, 0x0, 0x0, 0x0⟩,
  ⟨0x1c408, 64, 8, 4, 1, 0x0, 0xffffffff, 0x0, 0x0, 0x0⟩,
  ⟨0x1c40c, 64, 8, 4, 1, 0x3b9aca00, 0xffffffff, 0x0, 0x0, 0x0⟩,
  ⟨0x1c410, 64, 8, 4, 1, 0x0, 0xffffffff, 0x0, 0x0, 0x0⟩]
def rows1C_1 : List Row := [
  ⟨0x1c418, 64, 8, 4, 1, 0x0, 0x0, 0x0, 0x0, 0x0⟩,
  ⟨0x1c41c, 64, 8, 4, 1, 0x0, 0x0, 0x0, 0x0, 0x0⟩,
  ⟨0x1c420, 64, 8, 4, 1, 0x0, 0x0, 0x0, 0x0, 0x0⟩]
def rows1D_0 : List Row := [
  ⟨0x1d000, 4, 1, 4, 1, 0xc8000000, 0x0, 0xff3f0003, 0x0, 0x0⟩,
  ⟨0x1d004, 4, 1, 4, 1, 0x0, 0x0, 0x0, 0x7800, 0x0⟩,
  ⟨0x1d008, 4, 1, 4, 1, 0x0, 0x0, 0x0, 0x0, 0xffff000f⟩,
  ⟨0x1d00c, 4, 1, 4, 1, 0x0, 0x0, 0xffffffff, 0x0, 0x0⟩,
  ⟨0x1d010, 4, 1, 4, 1, 0x0, 0x0, 0xffffffff, 0x0, 0x0⟩,
  ⟨0x1d014, 4, 1, 4, 1, 0x0, 0x0, 0x0, 0x0, 0x0⟩,
  ⟨0x1d018, 4, 1, 4, 1, 0x0, 0x0, 0x0, 0x0, 0x0⟩,
  ⟨0x1d01c, 4, 1, 4, 1, 0x0, 0x0, 0x0, 0x0, 0x0⟩,
  ⟨0x1d020, 4, 1, 4, 1, 0x0, 0x0, 0x0, 0x0, 0x0⟩,
  ⟨0x1d024, 4, 1, 4, 1, 0x0, 0x0, 0x0, 0x0, 0x0⟩,
  ⟨0x1d028, 4, 1, 4, 1, 0x0, 0x0, 0x0, 0x0, 0x0⟩,
  ⟨0x1d030, 4, 1, 4, 1, 0x100, 0x0, 0xffffffff, 0x0, 0x0⟩,
  ⟨0x1d034, 4, 1, 4, 1, 0xa8, 0x0, 0xffff, 0x0, 0x0⟩,
  ⟨0x1d038, 4, 1, 4, 1, 0xffff, 0x0, 0x0, 0x0, 0x0⟩]
def rows1E_0 : List Row := [
  ⟨0x1e004, 4, 1, 4, 1, 0x0, 0x0, 0x0, 0x0, 0x0⟩,
  ⟨0x1e008, 4, 1, 4, 1, 0x0, 0x0, 0x0, 0x0, 0xffff01ff⟩,
  ⟨0x1e00c, 4, 1, 4, 1, 0x0, 0x0, 0x0, 0x100, 0x0⟩,
  ⟨0x1e000, 4, 1, 4, 1, 0x64, 0x0, 0xffff, 0x0, 0x0⟩,
  ⟨0x1e010, 4, 1, 4, 1, 0x0, 0x0, 0x0, 0x0, 0x0⟩,
  ⟨0x1e014, 4, 1, 4, 1, 0x0, 0x0, 0x0, 0x0, 0x1⟩,
  ⟨0x1e018, 4, 1, 4, 1, 0x0, 0x0, 0x0, 0x1, 0x0⟩,
  ⟨0x1e020, 4, 8, 4, 1, 0x0, 0x0, 0x0, 0x0, 0x0⟩,
  ⟨0x1e040, 4, 16, 4, 1, 0x0, 0x0, 0x0, 0x0, 0x0⟩,
  ⟨0x1e080, 4, 1, 4, 1, 0x0, 0x0, 0x0, 0x0, 0x0⟩,
  ⟨0x1e090, 4, 1, 4, 1, 0x0, 0xf, 0x0, 0x0, 0x0⟩,
  ⟨0x1e0a0, 4, 8, 4, 1, 0x0, 0x0, 0x0, 0x0, 0x0⟩,
  ⟨0x1e804, 4, 1, 4, 1, 0x0, 0x0, 0x0, 0x40, 0x0⟩,
  ⟨0x1e800, 4, 1, 4, 1, 0x64, 0x0, 0xff, 0x0, 0x0⟩,
  ⟨0x1e810, 4, 4, 4, 1, 0x0, 0x0, 0x0, 0x0, 0x0⟩,
  ⟨0x1e820, 4, 1, 4, 1, 0x0, 0x0, 0x0, 0x0, 0x0⟩,
  ⟨0x1e824, 4, 1, 4, 1, 0x0, 0x0, 0x0, 0x0, 0x0⟩,
  ⟨0x1e828, 4, 1, 4, 1, 0x0, 0x0, 0x0, 0x0, 0x0⟩,
  ⟨0x1e82c, 4, 1, 4, 1, 0x0, 0x0, 0x0, 0x0, 0x0⟩,
  ⟨0x1e830, 4, 1, 4, 1, 0x0, 0x0, 0x0, 0x0, 0x0⟩]
def rows1F_0 : List Row := [
  ⟨0x1f000, 4, 1, 4, 1, 0x31100, 0x0, 0x0, 0x0, 0x0⟩,
  ⟨0x1f008, 4, 1, 4, 1, 0x0, 0x0, 0x0, 0x3f, 0x0⟩,
  ⟨0x1f100, 4, 58, 4, 1, 0x0, 0x31f, 0x0, 0x0, 0x0⟩,
  ⟨0x1f004, 4, 1, 4, 1, 0x0, 0x0, 0x0, 0x0, 0x0⟩,
  ⟨0x1f00c, 4, 1, 4, 1, 0x0, 0x0, 0x0, 0x0, 0x0⟩,
  ⟨0x1f010, 4, 1, 4, 1, 0x0, 0x0, 0x0, 0x0, 0x0⟩,
  ⟨0x1f014, 4, 1, 4, 1, 0x0, 0x0, 0x0, 0x0, 0x0⟩,
  ⟨0x1f018, 4, 1, 4, 1, 0x0, 0xf, 0x0, 0x0, 0x0⟩,
  ⟨0x1f01c, 4, 1, 4, 1, 0x0, 0x0, 0x0, 0x0, 0xffff0001⟩,
  ⟨0x1f200, 4, 1, 4, 1, 0x0, 0x0, 0x0, 0xffffffff, 0x0⟩,
  ⟨0x1f204, 4, 1, 4, 1, 0x0, 0x0, 0x0, 0xffffffff, 0x0⟩,
  ⟨0x1f208, 4, 1, 4, 1, 0x0, 0x0, 0x0, 0x0, 0x0⟩,
  ⟨0x1f800, 16, 32, 4, 3, 0x0, 0xffffffff, 0x0, 0x0, 0x0⟩,
  ⟨0x1f80c, 16, 32, 4, 1, 0x1, 0x1, 0x0, 0x0, 0x0⟩,
  ⟨0x1fa00, 4, 1, 4, 1, 0x0, 0x0, 0x0, 0x0, 0x0⟩]

/-- The rows of the 4 KB block `b`. -/
def rowsOf (b : Nat) : List Row :=
  match b with
  | 0x0 => rows00_0
  | 0x1 => rows01_0
  | 0x2 => rows02_0
  | 0x3 => rows03_0
  | 0x4 => rows04_0
  | 0x5 => rows05_0
  | 0x6 => rows06_0
  | 0x7 => rows07_0
  | 0x8 => rows08_0 ++ rows08_1
  | 0x9 => rows09_0 ++ rows09_1
  | 0xa => rows0A_0 ++ rows0A_1
  | 0xb => rows0B_0 ++ rows0B_1
  | 0xc => rows0C_0
  | 0xd => rows0D_0
  | 0xe => rows0E_0
  | 0xf => rows0F_0
  | 0x10 => rows10_0
  | 0x11 => rows11_0
  | 0x12 => rows12_0 ++ rows12_1
  | 0x13 => rows13_0
  | 0x14 => rows14_0
  | 0x15 => rows15_0
  | 0x16 => rows16_0 ++ rows16_1
  | 0x17 => rows17_0
  | 0x18 => rows18_0
  | 0x19 => rows19_0
  | 0x1a => rows1A_0 ++ rows1A_1
  | 0x1b => rows1B_0
  | 0x1c => rows1C_0 ++ rows1C_1
  | 0x1d => rows1D_0
  | 0x1e => rows1E_0
  | 0x1f => rows1F_0
  | _ => []

/-- The row at a BAR0 offset (R34); none where the offset is unassigned. -/
def rowAt (o : Nat) : Option Row := (rowsOf (o / 4096)).find? (·.hits o)

end Sys2Proof.Machine
end

