-- ==== Sys2Proof/Machine/Tab.lean ====
section
/-!
DEFINITION. Tables: sparse maps from an index to a value, kept as lists in one canonical form (indices strictly rising,
no entry equal to the default). Registers, memories and the units of a channel are held in tables.
-/
namespace Sys2Proof.Machine

/-- A sparse table: what an unlisted index holds is the default its reader names. -/
abbrev Tab (α : Type) := List (Nat × α)

/-- The value at index `i`; `d` where no entry is listed. -/
def Tab.get {α : Type} (t : Tab α) (d : α) (i : Nat) : α :=
  match t with
  | [] => d
  | (k, v) :: r => if k = i then v else Tab.get r d i

/-- The table without its entry at `i`. -/
def Tab.erase {α : Type} (t : Tab α) (i : Nat) : Tab α :=
  match t with
  | [] => []
  | (k, v) :: r => if k = i then Tab.erase r i else (k, v) :: Tab.erase r i

/-- The table with `(i, v)` before the first larger index. -/
def Tab.insert {α : Type} (t : Tab α) (i : Nat) (v : α) : Tab α :=
  match t with
  | [] => [(i, v)]
  | (k, w) :: r => if i < k then (i, v) :: (k, w) :: r else (k, w) :: Tab.insert r i v

/-- Writes `v` at `i`; writing the default removes the entry, so that equal tables are equal lists. -/
def Tab.set {α : Type} [DecidableEq α] (t : Tab α) (d : α) (i : Nat) (v : α) : Tab α :=
  if v = d then t.erase i else (t.erase i).insert i v

/-- Changes the value at `i` by `f`. -/
def Tab.upd {α : Type} [DecidableEq α] (t : Tab α) (d : α) (i : Nat) (f : α → α) : Tab α :=
  t.set d i (f (t.get d i))

/-- The indices listed are strictly rising and every one is at least `b`. -/
def Tab.risingFrom {α : Type} (b : Nat) (t : Tab α) : Bool :=
  match t with
  | [] => true
  | (k, _) :: r => decide (b ≤ k) && Tab.risingFrom (k + 1) r

/-- Canonical form: indices strictly rising, no entry equal to the default. -/
def Tab.wf {α : Type} [DecidableEq α] (d : α) (t : Tab α) : Bool :=
  t.risingFrom 0 && t.all fun e => decide (e.2 ≠ d)

end Sys2Proof.Machine
end

