-- ==== Sys2Proof/Machine/State.lean ====
section
/-!
DEFINITION. The state of an Elvino package: its two channels, the host port they share, and the queue of commands that
wait. Registers stand in one table per channel, keyed by BAR0 offset; what the spec describes but gives no register
stands in the structures below, chapter by chapter.
-/
namespace Sys2Proof.Machine

open Sys2Proof

/-! ### Faults (chapter 16) -/

/-- One fault record (R432); `scope` is the arm, or none for the channel. -/
structure FaultRec where
  code : Nat
  cls : Nat
  pre : Bool
  scope : Option Nat
  count : Nat
  index : Nat
  first : Nat
  last : Nat
  info : Nat
  rseq : Nat
  st : Nat
deriving DecidableEq, Repr

/-- One active fault (R428): `lastMc` is the matrix cycle in which its cause was last present, `held` whether a lasting
cause is present now. -/
structure Active where
  code : Nat
  cls : Nat
  scope : Option Nat
  index : Nat
  lastMc : Nat
  held : Bool
deriving DecidableEq, Repr

/-- One entry of the flash ring (R434) with the time of its last write and the merged content that waits. -/
structure RingEnt where
  body : FaultRec
  wtime : Nat
  pend : Option FaultRec
deriving DecidableEq, Repr

structure Faults where
  queue : List FaultRec := []
  active : List Active := []
  rseq : Nat := 0
  /-- Records whose first write into the flash ring is due (R434). -/
  toRing : List FaultRec := []
deriving DecidableEq, Repr

/-! ### Trace FIFO (R368 to R374) -/

/-- A committed word: its bytes (the tag is their number) before padding. -/
structure TrcWord where
  bytes : List Byte
deriving DecidableEq, Repr

/-- A held record that waits for space (R371). -/
structure TrcRec where
  src : Nat
  bytes : List Byte
deriving DecidableEq, Repr

structure Trace where
  store : List TrcWord := []
  staging : List Byte := []
  waiting : List TrcRec := []
  seq : Tab Nat := []
  latchHi : Word := 0
deriving DecidableEq, Repr

/-! ### Trajectory (chapter 2) -/

/-- A pending ring segment as taken at append: the CRC-16 of its entries, its duration, its FINAL flag (R54, R55). -/
structure PendSeg where
  crc : Nat
  dur : Nat
  fin : Bool
deriving DecidableEq, Repr

/-- The segment being executed (R51, R52): end position and end velocity per ordinal. -/
structure Seg where
  dur : Nat
  flags : Nat
  tag : Nat
  p1 : List Int
  v1 : List Int
deriving DecidableEq, Repr

/-- Why an arm stops (R61): with its segments kept, discarded, or discarded and the torque removed at standstill. -/
inductive StopKind where
  | keep
  | discard
  | f2
deriving DecidableEq, Repr

/-- Command bits written to PRF_ACTL (R78). -/
structure ArmCmd where
  go : Bool := false
  hold : Bool := false
  resume : Bool := false
  abort : Bool := false
  play : Option Nat := none
deriving DecidableEq, Repr, Inhabited

/-- An arm's profile unit: command bits written since the last sample and those sampled at 0 ns (R43, R44), the overrides and
the ring count sampled there, the path position, the effective override in units of 2^-32 and its rate per basic cycle (R60). -/
structure Arm where
  cmd : ArmCmd := {}
  smp : ArmCmd := {}
  host : Nat := 4096
  ssmS : Nat := 0
  ssm : Nat := 0
  napp : Nat := 0
  /-- A stop asked for by a fault reaction or a channel STOP, taken at the next evaluation. -/
  stopL : Option StopKind := none
  running : Bool := false
  /-- The stored table being played and its next segment; none while the ring feeds the arm (R58). -/
  table : Option (Nat × Nat) := none
  seg : Option Seg := none
  p0 : List Int := []
  v0 : List Int := []
  pend : List PendSeg := []
  s : Nat := 0
  rate : Int := 0
  stopping : Option StopKind := none
  /-- A pending segment failed its check (R55): the stop runs on at the last end velocity. -/
  broken : Bool := false
  /-- Torque removed by an F2 of the arm or the channel (R61, R429), until the F2 is cleared. -/
  torqueOff : Bool := false
  /-- Cell time at which the present F2 stop began (R429). -/
  f2Since : Option Nat := none
  /-- The arm has been evaluated since the load step (R220). -/
  seen : Bool := false
  /-- Its brakes are being engaged after a category 1 stop, until this monotonic time (R162). -/
  engaging : Option Nat := none
deriving DecidableEq, Repr, Inhabited

/-- Command bits written to PRF_JCTL and profile parameters written, with the targets as they stand at the sample (R43, R50). -/
structure JointCmd where
  go : Bool := false
  stop : Bool := false
  arm : Bool := false
  disarm : Bool := false
  tgt : Int := 0
  vtgt : Int := 0
  wr : List (RampParam × Nat) := []
deriving DecidableEq, Repr, Inhabited

/-- A joint's profile unit (R45 to R67) and its loop state (R79 to R105). -/
structure Joint where
  cmd : JointCmd := {}
  smp : JointCmd := {}
  /-- Targets taken by the GO in force. -/
  tgt : Int := 0
  vtgt : Int := 0
  /-- A PTP move or a VEL target is in force. -/
  active : Bool := false
  /-- The joint decelerates to standstill and then holds. -/
  decel : Bool := false
  geared : Bool := false
  waiting : Bool := false
  /-- The profile parameters in force, and which of them wait (R50). -/
  vmax : Nat := 0
  acc : Nat := 0
  dec : Nat := 0
  jerk : Nat := 0
  dVmax : Bool := false
  dAcc : Bool := false
  dDec : Bool := false
  dJerk : Bool := false
  gnum : Int := 1
  gden : Nat := 1
  armed : Bool := false
  anum : Int := 0
  aden : Nat := 0
  apos : Int := 0
  mPrev : Option Int := none
  mNeg : Bool := false
  /-- Actual position latched at the last 0 ns, and at the last three evaluations, latest first (R43, R75). -/
  act : Int := 0
  actVal : Bool := false
  actEv : List Int := []
  /-- Committed output and state words of the joint's block, by window address (R81, R82). -/
  out : Tab Half := []
  st : Tab Half := []
  /-- Set-points committed by a servo task, in force from the next basic cycle (R97). -/
  refNext : Option (Half × Half) := none
  /-- Electrical angle of the previous dispatched current task and its basic cycle (R83, WE). -/
  thePrev : Option (Nat × Nat) := none
  tfirstC : Bool := true
  tfirstS : Bool := true
  /-- The servo cycle's actual position before this one (AVEL). -/
  actSrv : Option Int := none
  /-- State words of the Standard Cascade (R98, R99). -/
  vint : Int := 0
  ylp : Int := 0
  n0 : List Int := []
  n1 : List Int := []
  dint : Int := 0
  qint : Int := 0
  absCons : Nat := 0
deriving DecidableEq, Repr, Inhabited

/-- A compare unit (R69): the source value of its previous sample and the source's direction. -/
structure Cmp where
  prev : Option Int := none
  neg : Bool := false
  /-- Cell time at which the pin returns high; none while it is high. -/
  pinTill : Option Nat := none
deriving DecidableEq, Repr, Inhabited

/-! ### Scheduler and loop engines (chapters 3 and 4) -/

/-- A release-table entry (R84). -/
structure RelEnt where
  ofs : Nat
  b : Nat
  kind : Nat
  dl : Nat
  joint : Nat
  clim : Nat
deriving DecidableEq, Repr

/-- A released task: its kind, joint or arm, release and deadline instants (cell time, ns), cycle limit, program entry,
and the event release it came from (R86, R87). -/
structure Task where
  kind : Nat
  joint : Nat
  rel : Nat
  dl : Nat
  clim : Nat
  entry : Nat
  evt : Option Nat
deriving DecidableEq, Repr

/-- Waits and depths of a ready queue gathered in the present matrix cycle (R88, SCH_WAITMAX, SCH_QDEPTH). -/
structure QStat where
  wmax : Nat := 0
  wsum : Nat := 0
  wn : Nat := 0
  dmax : Nat := 0
deriving DecidableEq, Repr

structure Sched where
  table : List RelEnt := []
  /-- Index of the next entry and the basic cycle in which it is due (R86). -/
  ptr : Nat := 0
  cyc : Nat := 0
  queues : Tab (List Task) := []
  stat : Tab QStat := []
  /-- Busy cycles of each requester in the present matrix cycle (SCH_LOAD). -/
  busy : Tab Nat := []
deriving DecidableEq, Repr

/-- An active repeat: its counter and the first and last address of its body (R123). -/
structure Rep where
  lc : Nat
  first : Nat
  last : Nat
deriving DecidableEq, Repr

/-- A loop engine (R109): registers, return stack, active repeats innermost first, the task window's working copy and
the words of data memory the running task has written. -/
structure Engine where
  d : Tab Half := []
  ac0 : Acc := 0
  ac1 : Acc := 0
  p : Tab Ptr := []
  m : Tab Half := []
  lc : Tab Half := []
  fl : Half := 0
  stack : List Nat := []
  reps : List Rep := []
  win : Tab Half := []
  loc : Tab (Option Half) := []
  task : Option Task := none
  cyc : Nat := 0
  /-- Which dispatch this is: names the undefined words of data memory (R80). -/
  epoch : Nat := 0
  ran : Bool := false
deriving DecidableEq, Repr

/-! ### Time (chapter 11) -/

/-- A time-event unit: the low word of its target while it is armed (R328). -/
structure Tev where
  tgt : Nat := 0
  tgtFull : Nat := 0
  pinTill : Option Nat := none
deriving DecidableEq, Repr

/-- A plant domain's protocol instance (R323, R324). -/
structure Ptp where
  syncRx : Nat := 0
  syncSeq : Nat := 0
  syncOrg : Option Nat := none
  syncCorr : Int := 0
  reqSeq : Nat := 0
  reqTx : Option Nat := none
  offs : List Int := []
  haveSync : Bool := false
  gmSet : Bool := false
  rank : Nat := 0
  integ : Int := 0
deriving DecidableEq, Repr

/-! ### Power outputs (chapter 5) -/

/-- One phase of a PWM unit (R133, R134): the level commanded for its high side, and the instant at which the gate of the
commanded side turns on after its dead time. -/
structure Phase where
  hi : Bool := false
  due : Option Nat := none
  /-- The valley of the last carrier period whose on-edge was decided (R133). -/
  onV : Option Nat := none
deriving DecidableEq, Repr

/-- A local PWM unit: the active duties, the shadow set before the commit or LOADALL of this CLK_SYS cycle, the instant
from which its gates switch (R136 to R140), and which of its data inputs are valid (R145). -/
structure Pwm where
  act : List Nat := []
  old : List Nat := []
  comCt : Option Nat := none
  ldCt : Option Nat := none
  /-- A period change whose reload has passed waits for a common valley (R139). -/
  perDue : Bool := false
  /-- The last boundary at which a reload was taken. -/
  lastB : Option Nat := none
  resume : Option Nat := none
  ph : Tab Phase := []
  sdv : Nat := 0
deriving DecidableEq, Repr

/-- A coil of a chopper unit (R157): driving since, in its off phase since, or off. -/
inductive CoilSt where
  | off
  | drive (since : Nat)
  | rest (since : Nat)
deriving DecidableEq, Repr

/-- A stepper chopper unit (R156 to R159): the fraction of its command accumulator in 2^-16 microstep, its coils, the
instant of its last microstep, and the microsteps of the present basic cycle. -/
structure Stp where
  acc : Nat := 0
  a : CoilSt := .off
  b : CoilSt := .off
  last : Nat := 0
  cyc : Nat := 0
  n : Nat := 0
deriving DecidableEq, Repr

/-- What the channel keeps of the brick or drive behind a remote joint (R147 to R154): the basic cycle that computed the
edge set in force and whether it was sent, the edges, the ESIDs sent with their cycles, the sample and status received. -/
structure Brick where
  comK : Nat := 0
  fresh : Bool := false
  edges : List Nat := []
  esid : Nat := 0
  sentE : List (Nat × Nat) := []
  rearm : Bool := false
  tclr : Bool := false
  smpK : Option Nat := none
  smp : List Int := []
  smpOk : Bool := false
  /-- The servo task's values since the last drive record, its SEQ, and the last record's body. -/
  dFresh : Bool := false
  dRec : List Byte := []
  /-- Basic cycle of the last drive status record, and absences in a row. -/
  dstK : Option Nat := none
  dAbs : Nat := 0
deriving DecidableEq, Repr

/-! ### Position feedback (chapter 6) -/

/-- A serial frame in progress (R176): its latch instant, the data line at it, and the settings it runs under (R189). -/
structure SerialFrame where
  tl : Nat
  lineHigh : Bool
  scfg : Nat
  slay : Nat
  scrc : Nat
  stmo : Nat
deriving DecidableEq, Repr

/-- What a port held before its latest accepted sample, which the monoflop may still fail (R180). -/
structure EncUndo where
  acq : Bool
  uPrev : Nat
  dAcc : Int
  dPres : Int
  scons : Nat
  d : Int
  mod : Nat
deriving DecidableEq, Repr

/-- An encoder port (R170 to R182) beside its registers: accepted levels of A and B, the turning point, the serial decoder's
last word and differences, the count latched at 0 ns, the latch before the latest, and the safety island's own copy. -/
structure Enc where
  a : Bool := true
  b : Bool := true
  turn : Int := 0
  needRef : Bool := true
  idxAt : Option Nat := none
  acq : Bool := false
  uPrev : Nat := 0
  dAcc : Int := 0
  dPres : Int := 0
  frm : Option SerialFrame := none
  undo : Option EncUndo := none
  lastFail : Option Nat := none
  cnt0 : Int := 0
  lat1 : Int := 0
  /-- The count was restored at a warm start and its first sample is checked against it (R423). -/
  warm : Bool := false
  sAcq : Bool := false
  sU : Nat := 0
  sCnt : Int := 0
  sFail : Bool := false
deriving DecidableEq, Repr

/-- The remote feedback of a joint (R183, R184): position, raw count and last difference, failures in a row, and the value
latched at the last 0 ns. -/
structure Rem where
  acq : Bool := false
  pos : Int := 0
  raw : Int := 0
  diff : Int := 0
  scons : Nat := 0
  lat : Int := 0
  lastK : Option Nat := none
deriving DecidableEq, Repr

/-- A divided-pulse output (R187, R188): its previous input and the monotonic time of its last edge. -/
structure Dpo where
  inP : Option Int := none
  last : Nat := 0
deriving DecidableEq, Repr

/-- A safety position (R185, R186): the count of a safety connection with its raw word, the run of cycles beyond STOL, and
the run of invalid ones. -/
structure Jsp where
  cnt : Option (Int × Nat) := none
  mis : Nat := 0
  inv : Nat := 0
deriving DecidableEq, Repr

/-! ### Safety (chapter 9) -/

/-- A function block (R263 to R267) beside its registers: what its channels or hands have done since its output fell, since
when they disagree or stand in no state, and the press in progress. Times are monotonic. -/
structure Fb where
  p0 : Bool := false
  p1 : Bool := false
  d0 : Bool := false
  d1 : Bool := false
  both : Bool := false
  since : Option Nat := none
  act0 : Bool := false
  act1 : Bool := false
  at0 : Nat := 0
  at1 : Nat := 0
  rel0 : Bool := false
  rel1 : Bool := false
  ns0 : Option Nat := none
  ns1 : Option Nat := none
  press : Option Nat := none
  last : Bool := false
deriving DecidableEq, Repr

/-- The safety island: the cycle, the cell time and the plant time of the last tick, whether the paths differed at it, the
logic outputs, the qualified releases since it, the ends of the reset window and of each SS1-t (monotonic time), the
test-pulse outputs that are low and the inputs with a test-pulse fault. -/
structure Saf where
  fb : Tab Fb := []
  tick : Option Nat := none
  tickMono : Nat := 0
  ts : Nat := 0
  tsPlant : Nat := 0
  differ : Bool := false
  o : Nat := 0
  qrel : Nat := 0
  window : Option Nat := none
  ss1 : Tab (Option Nat) := []
  tpLow : Nat := 0
  tpErr : Nat := 0
  /-- The servo cycle whose safety positions have been evaluated (R186). -/
  jspK : Option Nat := none
deriving DecidableEq, Repr

/-- A safety connection (R279 to R284): the payload last accepted, the payload in force since the last tick, the monotonic
time of the last acceptance while its watchdog runs, whether its latest container was refused, the next SEQ it sends. -/
structure Scx where
  pay : List Byte := []
  eff : List Byte := []
  wd : Option Nat := none
  refused : Bool := false
  next : Nat := 1
deriving DecidableEq, Repr

/-! ### Separation (chapter 8) -/

/-- A person volume in use: axis base and height, radius, in µm, its source, and the cell time its container was accepted at
(R221). -/
structure Vol where
  x : Int
  y : Int
  z : Int
  h : Nat
  r : Nat
  src : Nat
  acc : Nat
deriving DecidableEq, Repr

/-- A point in the cell frame, in µm. -/
structure V3 where
  x : Int := 0
  y : Int := 0
  z : Int := 0
deriving DecidableEq, Repr

/-- A capsule: a segment with a radius (R218, R227). -/
structure Cap where
  p : V3 := {}
  q : V3 := {}
  r : Int := 0
deriving DecidableEq, Repr

/-- A zone's prism (R222). -/
structure Zone where
  verts : List (Int × Int)
  zlo : Int
  zhi : Int
deriving DecidableEq, Repr

/-- An evaluation's result for a monitored arm (R233): margin, what set it, which margins were below 0, times and bounds, the
token zones its parison is in and those near enough to ask for, the other channels whose pairs with it were not culled. -/
structure Par where
  arm : Nat
  m : Option Int
  kind : Nat
  idx : Nat
  pviol : Bool
  aaviol : Bool
  zviol : Bool
  yield : Bool
  ts : Nat
  bnd : Nat
  fact : Nat
  inside : Nat
  near : Nat
  seen : List Nat
  body : List Byte
deriving DecidableEq, Repr

/-- The latest capsule record of another channel's arm, whether one came since the last latch, and the servo cycles in a row
without one (R231, R241). -/
structure CapRec where
  body : List Byte := []
  got : Bool := false
  miss : Nat := 0
deriving DecidableEq, Repr

/-- What a channel keeps of a zone's ledger entry beside its registers (R242 to R247): cell times of the grant and of the last
LEDGER heard, whether our arm has accepted, requests heard as (basic cycle, CCH, arm), our arms that wait, whether we made the
latest move, whether another channel's LEDGER bars us after a start. -/
structure Tok where
  since : Nat := 0
  heard : Nat := 0
  accepted : Bool := false
  reqs : List (Nat × Nat × Nat) := []
  want : Nat := 0
  mine : Bool := false
  barred : Bool := false
deriving DecidableEq, Repr, Inhabited

/-- A recovery being sent (R250): its record and how often it is still to be sent. -/
structure Recov where
  body : List Byte
  left : Nat
deriving DecidableEq, Repr

/-- The separation monitor and the zone tokens (R218 to R251). -/
structure Sep where
  caps : Tab (List Byte) := []
  zones : Tab (Option Zone) := []
  vols : Tab (Option Vol) := []
  /-- The servo cycle last latched, its result until it is committed, the arms' coordinates at it (R223, R234). -/
  lastK : Option Nat := none
  staged : Option (List Par) := none
  qPrev : Tab (Option Int) := []
  inside : Tab Nat := []
  seen : Tab (List Nat) := []
  pub : Tab (List Byte) := []
  recs : Tab CapRec := []
  /-- Volumes as the last evaluation used them, with their ages (R255). -/
  snap : Tab (Option (Vol × Nat)) := []
  stagedSnap : Tab (Option (Vol × Nat)) := []
  tok : Tab Tok := []
  keep : Nat := 0
  out : List (List Byte) := []
  prov : Option Nat := none
  recov : Option Recov := none
deriving DecidableEq, Repr

/-! ### Cell Bus (chapter 10) -/

/-- A node of the ring's list (R304). -/
structure CbNode where
  id : Nat
  kind : Nat
  rank : Nat
  fwd : Nat
  cdly : Nat
deriving DecidableEq, Repr

/-- A slot of the schedule matrix (R304). -/
structure Slot where
  start : Nat
  len : Nat
  node : Nat
  row : Nat
  sidx : Nat
  flg : Nat
  tdst : Nat
deriving DecidableEq, Repr

/-- The counts of a credit pair (R311). -/
structure Counts where
  iss : Nat := 0
  rcv : Nat := 0
  snt : Nat := 0
  rtn : Nat := 0
deriving DecidableEq, Repr

/-- A credit pair of this node: the other node, whether we receive, its counts, our last snapshot with its MCC, what the other
published for which snapshot, and whether a CREDIT record is due (R311, R312). -/
structure Pair where
  peer : Nat
  recv : Bool
  cr : Nat
  now : Counts := {}
  snap : Option (Nat × Counts) := none
  theirs : Option (Nat × Counts) := none
  due : Bool := false
deriving DecidableEq, Repr

/-- What a receiver keeps of a source: the highest SEQ accepted, its record of 256 (bit i is H − i), the cycle of its last
accepted frame (R297). -/
structure Src where
  h : Nat
  seen : Nat
  last : Nat
deriving DecidableEq, Repr

/-- A HOSTRELAY record held or waiting: the other node, TAG and data (R311). -/
structure Relay where
  node : Nat
  tag : Nat
  data : List Byte
deriving DecidableEq, Repr

/-- The Cell Bus block: the schedule in force, receive records, what waits to be sent, the start on the ring, and the time
discipline. Times named mono are monotonic ns, others cell time. -/
structure Cb where
  nodes : List CbNode := []
  minis : List Nat := []
  pairs : List Pair := []
  slots : List Slot := []
  src : Tab (Option Src) := []
  acting : Tab (Option Nat) := []
  nodeCch : Tab (Option Nat) := []
  claims : Tab (List (Nat × Nat)) := []
  statT : Tab (Option Nat) := []
  gen : Tab (Option Nat) := []
  seq : Nat := 0
  ecnt : Tab Nat := []
  ret0 : Nat := 0
  ret1 : Nat := 0
  got : List (Nat × Nat) := []
  /-- Frames sent since the integration (R302). -/
  sentN : Nat := 0
  /-- The matrix cycle from which a leader transmits (R314). -/
  leadFrom : Nat := 0
  /-- An own exclusive frame that waits for its output (R306), and the minislot whose arbitrating frame waits (R311). -/
  wait : Option (List Byte) := none
  arbWait : Option Nat := none
  relay : Option Relay := none
  rxq : List Relay := []
  hrCount : Nat := 0
  t1 : Tab (Option Nat) := []
  /-- The start on the ring (R314), monotonic: the end of listening, when our startup frame is due, when it was sent, the last
  rival, the retry; the step of cell time taken from a startup frame and when. -/
  listen : Option Nat := none
  startDue : Option Nat := none
  startSent : Option Nat := none
  rivalAt : Option Nat := none
  retry : Option Nat := none
  took : Option (Int × Nat × Nat) := none
  acquired : Bool := false
  /-- Offsets measured in this row in 2^-16 ns, rows of this matrix cycle with a SYNC, the cycle of the last SYNC of the
  reference, of the last frame of a cold-start node, and of a reference change (R315, R316). -/
  offs : List Int := []
  rows : Nat := 0
  refAt : Option Nat := none
  coldAt : Option Nat := none
  refChg : Option Nat := none
  /-- The offset at the last matrix cycle and the steps made since, 2^-16 ns. -/
  oLast : Option Int := none
  steps : Int := 0
deriving DecidableEq, Repr

/-! ### Redundant pairs (chapter 12) -/

/-- A unit of a pair (R335 to R351): chunks of the checkpoint being received, the two staged checkpoints latest first, the
snapshot being sent, edge records of the partner kept per joint, the cycles of its last SYNC and of a lower claim heard,
a yield asked for and the cycle it takes place at, the claim-0 order, the joints to seed at their first task (one bit each), a
drill's start (monotonic), what has gone wrong in it and the faults active at its start. -/
structure Red where
  rxMcc : Option Nat := none
  chunks : Tab (List Byte) := []
  staged : List (List Byte) := []
  snap : List Byte := []
  snapMcc : Nat := 0
  kept : Tab (List (List Byte)) := []
  syncAt : Option Nat := none
  lower : List Nat := []
  pstate : Nat := 0
  yieldReq : Bool := false
  yieldAt : Option Nat := none
  mute0 : Bool := false
  seedC : Nat := 0
  seedS : Nat := 0
  drillT : Option Nat := none
  drillBad : Nat := 0
  drillOld : List (Nat × Option Nat × Nat) := []
deriving DecidableEq, Repr


/-! ### Flash, images and update (chapters 14 and 17) -/

/-- The progress record of an update (R446, R447): image length, next offset, the kept block at offset 0. -/
structure Progress where
  len : Nat
  next : Nat
  head : List Byte
deriving DecidableEq, Repr

/-- What the channel's flash and fuses hold (R376 to R378, R443, R444): the read mode its SFDP table allows (0 where the table
does not meet R376), its size and ID; the block at offset 0 of the installed firmware (empty: erased) and what follows it; the
content of the slots from their start; their write counts; the version last admitted; the floor steps burned; the progress
record; the hours since the last passed drill. -/
structure Nvm where
  sfdp : Nat := 2
  sizeMB : Nat := 32
  jedec : Nat := 0
  fwHead : List Byte := []
  fwBody : List Byte := []
  slots : Tab (List Byte) := []
  wear : Tab Nat := []
  curver : Nat := 0
  floor : Nat := 0
  prog : Option Progress := none
  dage : Nat := 0xFFFF
deriving DecidableEq, Repr

/-- A slot write or an erase in progress (R391, R393): which of the two, the slot and what it will hold. -/
structure SlotJob where
  write : Bool
  slot : Nat
  bytes : List Byte
deriving DecidableEq, Repr

/-- What an update command in progress does (R446 to R448). -/
inductive UpdJob where
  | start
  | block (ofs : Nat) (bytes : List Byte)
  | finish
deriving DecidableEq, Repr

/-- The staging window, the image retained in SRAM, the firmware that runs, a slot job, whether the image in force was refused
at the last start (R29, R390), the end of the re-binding arm (R396), the update's length, its kept header block and its job
(R446, R447). -/
structure Cfg where
  stage : Tab Byte := []
  image : List Byte := []
  fwVer : Nat := 0
  job : Option SlotJob := none
  refused : Bool := false
  barm : Option Nat := none
  updLen : Nat := 0
  head : List Byte := []
  upd : Option UpdJob := none
deriving DecidableEq, Repr

/-- A local checkpoint (R421): its tag, the registers and units a warm start restores (R36, R423, R247, R273). -/
structure LocalCp where
  mcc : Nat
  fwver : Nat
  sha : List Byte
  devid : Nat
  regs : Tab Word
  enc : Tab Enc
  rem : Tab Rem
  dpo : Tab Dpo
  tok : Tab Tok
  /-- The status records of host problems not finished at the snapshot (R36). -/
  open_ : List Nat
deriving DecidableEq, Repr

/-! ### Host port (chapter 13) -/

/-- A PCI Express function and the host latches of its channel (R10, R356, R362): Memory Space Enable, Bus Master Enable, D3hot, the
high-word latch of each path as the offset of its low word and the word, the words the last read returned, whether the last request
got Unsupported Request. -/
structure HostFn where
  mse : Bool := false
  bme : Bool := false
  d3 : Bool := false
  pcie : Option (Nat × Word) := none
  spi : Option (Nat × Word) := none
  rdata : List Word := []
  ur : Bool := false
deriving DecidableEq, Repr

/-- The device-level pins and ports both channels share (R359 to R361, R473): the TAP's instruction, the levels of the two reset
pins, the channel of the SPI write in progress, the flags of the SPI STATUS byte, what the last SPI command
returned. -/
structure Dev where
  tap : TapOp := .idcode
  rstALow : Bool := false
  rstBLow : Bool := false
  spiSel : Option Chan := none
  spiErr : Bool := false
  spiUe : Bool := false
  spiData : List Word := []
deriving DecidableEq, Repr

/-! ### Lehr governor (chapter 16) -/

/-- The lehr governor (R436 to R439): the last four conversions of each sensor, latest first; the thresholds SLIM, 115 °C and 125 °C
passed, each until Tj falls 5 °C below; the monotonic start of the surge period and end of the rest; a limit of 8 s reached; the surge time of ended periods in ns; the last
conversion of each sensor (monotonic), and the sensors found invalid (one bit each). -/
structure Lehr where
  conv : Tab (List Int) := []
  slim : Bool := false
  hot : Bool := false
  tooHot : Bool := false
  since : Option Nat := none
  rest : Option Nat := none
  limit : Bool := false
  total : Nat := 0
  at_ : Tab Nat := []
  bad : Nat := 0
  /-- A Tj has been taken since the start (LEHR_TJMAX). -/
  seen : Bool := false
deriving DecidableEq, Repr

/-! ### The solver (chapter 7) -/

/-- A host batch taken and not wholly final (R207): its number in the ring, its descriptor, its problems, how many are released into
Q3, how many have a final status. -/
structure SBatch where
  idx : Nat
  desc : List Byte
  n : Nat
  rel : Nat := 0
  fin : Nat := 0
deriving DecidableEq, Repr

/-- What the solver runs, from which cell time: a model task with the inputs it latched, or problem `p` of batch `idx` with its staged
inputs (R192, R203, R209). -/
inductive SRun where
  | model (t : Task) (inp : List Nat) (since : Nat)
  | host (idx p : Nat) (desc : List Byte) (inp : List Nat) (since : Nat)
deriving DecidableEq, Repr

/-- The solver: its batches, oldest first, its task, the end of the rest under HALF (cell time, R213), and what each arm's waiting
model task latched at its release (R203). -/
structure Slv where
  batches : List SBatch := []
  run : Option SRun := none
  rest : Option Nat := none
  inp : Tab (List Nat) := []
deriving DecidableEq, Repr
/-! ### Resets and starts (chapter 15) -/

/-- The trim load of a channel (R413 to R415). -/
inductive Trim where
  | loading
  | loaded
  | held
deriving DecidableEq, Repr

/-- Reset control of a channel: whether it is held in reset, the trim load with its count of failures, which reset
clock conditions are awaited, the block-alone reset in progress, and the level the next start serves. -/
structure Rst where
  held : Bool := true
  trim : Trim := .loading
  trimFails : Nat := 0
  /-- A clock source's reset waits for the reference and the PLL (R402). -/
  clkWait : Bool := false
  /-- Level of the last reset (1 to 3) and its source, for the start that follows. -/
  level : Nat := 3
  src : Nat := 0
  /-- The next cold start follows RESTART (1) or an update (2) instead of a source. -/
  why : Nat := 0
  /-- The pin holds the channel (R406); the power-on monitor holds the device (R409, R460). -/
  pinLow : Bool := false
  por : Bool := false
  /-- The block being reset alone; it is in reset; its release is asked for; its clock's domain is stable (R410 to R412). -/
  blk : Option Nat := none
  blkInRst : Bool := false
  blkRelease : Bool := false
  blkStable : Bool := false
  /-- Since when the reset controller waits for the block to go idle (monotonic). -/
  blkSince : Nat := 0
  /-- The burned fuse table, whether one is burned, whether its CRC held (R406, R408). -/
  fuseTab : Word := 0
  fuseProg : Bool := false
  fuseBad : Bool := false
  /-- The coming start follows a trim load. -/
  trimNew : Bool := false
  /-- A start is running; it acquires positions (R420 step 9); the state it ends in: 2, 3, 9, 0xA or 0xB (R29); the cause of a
  fallback (CHN_STARTREASON.FALL). -/
  starting : Bool := false
  acquiring : Bool := false
  endIn : Nat := 3
  fall : Nat := 0
deriving DecidableEq, Repr

/-- What a command has put on a port, a pin or a link: own frames on both Cell Bus ports, frames on one port (hopBad: with an inverted
FCS), datagrams on the plant port, MSI-X vectors, Delay_Req messages. -/
inductive Sent where
  | frame (bytes : List Byte)
  | hop (port : Nat) (bytes : List Byte)
  | hopBad (port : Nat) (bytes : List Byte)
  | datagram (bytes : List Byte)
  | msix (vec : Nat)
  | delayReq (n : Nat) (seq : Nat)
deriving DecidableEq, Repr

/-- One channel (R12). -/
structure ChanState where
  id : Chan
  devid : BitVec 64 := 0
  /-- The registers, keyed by BAR0 offset; an unlisted one holds its reset value. -/
  regs : Tab Word := []
  /-- Cell time in units of 2^-16 ns, modulo 2^80 (R21). -/
  ct : Nat := 0
  /-- Plant domains in units of 2^-24 ns, modulo 2^88, and monotonic time in ns (R320). -/
  pt1 : Nat := 0
  pt2 : Nat := 0
  mono : Nat := 0
  tev : Tab Tev := []
  ptp : Tab Ptp := []
  flt : Faults := {}
  trc : Trace := {}
  sent : List Sent := []
  /-- Counts the free values taken so far: the argument that tells one from the next. -/
  fresh : Nat := 0
  /-- A commanded transition whose brakes are being released (R30, R162). -/
  goingReady : Bool := false
  arms : Tab Arm := []
  joints : Tab Joint := []
  cmps : Tab Cmp := []
  /-- Live positions of the virtual masters (R68). -/
  vm : Tab Int := []
  /-- Segment pool, by byte address in the BAR2 window (R363). -/
  pool : Tab Byte := []
  sch : Sched := {}
  engines : Tab Engine := []
  /-- Loop program memory, the same in all eight engines (R127); an unlisted word is 0xFFFF_FFFF. -/
  prog : Tab Word := []
  rst : Rst := {}
  /-- The basic cycle whose 0 ns has been taken, and the instant of the last profile evaluation (R22, R43). -/
  bcDone : Option Nat := none
  pevT : Option Nat := none
  /-- The load step has put an image in force (R389, R420). -/
  loaded : Bool := false
  enc : Tab Enc := []
  rem : Tab Rem := []
  dpo : Tab Dpo := []
  jsp : Tab Jsp := []
  pwm : Tab Pwm := []
  stp : Tab Stp := []
  bricks : Tab Brick := []
  /-- The ring of 16 fault records in flash, latest first (R434), and the lockout marker (R424): persistent. -/
  ring : List RingEnt := []
  lockMark : Bool := false
  saf : Saf := {}
  scx : Tab Scx := []
  sep : Sep := {}
  /-- Solver memory, by solver offset (R194). -/
  smem : Tab Byte := []
  cb : Cb := {}
  red : Red := {}
  nvm : Nvm := {}
  cfg : Cfg := {}
  /-- The two local checkpoints, latest first (R421). -/
  cps : List LocalCp := []
  /-- The time at which every brake released at GO_READY has been released for its RELT (R162). -/
  readyAt : Nat := 0
  fn : HostFn := {}
  lehr : Lehr := {}
  slv : Slv := {}
deriving DecidableEq, Repr

/-! ### The package -/

/-- The two ordering variants of the silicon (R4 to R6). -/
inductive Variant where
  | EV7216
  | EV7208
deriving DecidableEq, Repr

/-- The package: its variant, its two channels, its host port, and the commands that wait, first in first out. -/
structure State where
  variant : Variant
  chA : ChanState
  chB : ChanState
  dev : Dev
  pending : List Instr
deriving DecidableEq, Repr

/-- No command of this model ends in a fault: the part reports faults in its records and goes on (R428). -/
inductive Fault where
  /-- Raised by no meaning; kept for a stop the spec may yet call for. Safe: a stop hides no effect. -/
  | stop
deriving DecidableEq, Repr

/-- Why a command has no effect in the model. -/
inductive Refusal where
  /-- Raised by an arm of `exec` whose meaning is not written yet; safe, since nothing can be proved of the step. -/
  | notModelled (mnemonic : String)
deriving DecidableEq, Repr

/-- The package right after power-on: every register at its reset value, nothing retained, no command waiting. -/
def State.reset : State where
  variant := .EV7216
  chA := { id := .A }
  chB := { id := .B, regs := [(0, 0x1A1)] }
  dev := {}
  pending := []

end Sys2Proof.Machine
end

