-- ==== Sys2Proof/Config.lean ====
section
/-!
DEFINITION. What the spec leaves open: constants with no body, so that nothing can be proved of their values. Each is a
free value of an entry of notes/assumptions.
-/
namespace Sys2Proof.Config

/-- A word of an engine's data memory below 0x7C00 that its task has not written (R80, R110). -/
opaque undefMem : Nat → Nat → Half

/-- The ROM address of the dispatch loop's ASK within 0x8000 to 0x8FFF (R108, LPE_PC). -/
opaque askAddr : Half

/-- The feed-forward current of a servo release after a batch has completed: the order of R101's binary32 sum is not given. -/
opaque tff : Nat → Half

/-- FLTACK in a drive record (R151): the spec does not say when the channel sets it. -/
opaque driveAck : Nat → BitVec 1

/-- A quotient by a divisor of 0 that the spec does not rule out for a host write. -/
opaque divZero : Int → BitVec 64

/-- Which neighbour a quotient takes where the spec states no rounding. -/
opaque roundUp : Nat → BitVec 1

/-- The increment the firmware servo sets within ±500 ppm: its gains are not given (R324). -/
opaque servoInc : Nat → BitVec 32

/-- The electrical angle of a joint whose JNT_CPR a host write has made 0 (R99). -/
opaque freeAngle : Nat → Half

/-- A fresh free number: what it stands for is said where it is drawn. -/
opaque free : Nat → BitVec 64

/-- The CRC-16 that guards a pending segment: its polynomial is not given (R55). -/
opaque segCrc : List Byte → Half

/-- Coordinate `axis` of end `e` of capsule `c` of arm `k` as the X path's forward kinematics places it at evaluation `n`: its
fixed-point arithmetic is not given (R219). -/
opaque capsuleEnd : (n k c e axis : Nat) → BitVec 32

/-- The distance in µm of that end from the axis line of joint `j` (R226). -/
opaque leverArm : (n k c e j : Nat) → BitVec 32

/-- Word `i` of a solver result for problem bytes: the order of its reductions is not given (R193). -/
opaque solved : List Nat → Nat → BitVec 32

/-- How a solver problem ends where its numbers decide (R197). -/
opaque solvedEnd : List Nat → BitVec 32

/-- Byte `i` of the part of checkpoint `n` whose layout the spec keeps to itself (R342). -/
opaque checkpointByte : (n i : Nat) → Byte

/-- What that part of a staged checkpoint says of arm `k`, of joint `j`, of a virtual master, of a compare unit, of a zone's ledger
entry, and of the register at an offset (R342, R344, R345). -/
opaque adoptArm : List Byte → (k : Nat) → Machine.Arm
opaque adoptJoint : List Byte → (j : Nat) → Machine.Joint
opaque adoptMaster : List Byte → (v : Nat) → BitVec 64
opaque adoptCmp : List Byte → (n : Nat) → Machine.Cmp
opaque adoptTok : List Byte → (z : Nat) → Machine.Tok
opaque adoptReg : List Byte → (ofs : Nat) → Word

end Sys2Proof.Config
end

