-- ==== Sys2Proof/Machine/Ops.lean ====
section
/-!
DEFINITION. The named operations over a channel: reading and writing register fields, time, the trace FIFO, events,
raising a fault, changing the channel state. Every meaning is built from these.
-/
namespace Sys2Proof.Machine

open Sys2Proof

/-! ### Numbers -/

/-- The signed value of the low `w` bits of `v`. -/
def wrapS (w : Nat) (v : Int) : Int :=
  let m := v % (2 ^ w : Nat)
  if m < (2 ^ (w - 1) : Nat) then m else m - (2 ^ w : Nat)

/-- `v` modulo 2^w. -/
def ofInt (w : Nat) (v : Int) : Nat := (v % (2 ^ w : Nat)).toNat

/-- `v` saturated to signed `w` bits. -/
def satS (w : Nat) (v : Int) : Int := max (-(2 ^ (w - 1) : Nat)) (min v ((2 ^ (w - 1) : Nat) - 1))

/-- `v` limited to `lo` to `hi`. -/
def clampI (v lo hi : Int) : Int := max lo (min v hi)

/-- Division rounded to nearest, ties towards plus infinity (R97). -/
def rdiv (a : Int) (b : Nat) : Int := (2 * a + b) / (2 * b)

/-- Division rounded to nearest, ties away from zero (R83). -/
def rdivAway (a : Int) (b : Nat) : Int :=
  if 0 ≤ a then (2 * a + b) / (2 * b) else -((2 * (-a) + b) / (2 * b))

/-- Bit `i` of `v`. -/
def tbit (v i : Nat) : Bool := v / 2 ^ i % 2 == 1

/-- 1 or 0. -/
def b2n (b : Bool) : Nat := if b then 1 else 0

/-- `n` bytes of `v`, little-endian. -/
def leBytes (n v : Nat) : List Byte := (List.range n).map fun i => BitVec.ofNat 8 (v / 2 ^ (8 * i))

/-- The value of bytes, little-endian. -/
def leNat (bs : List Byte) : Nat := bs.foldr (fun b a => b.toNat + 256 * a) 0

/-- `n` bytes of `bs` from position `i`, as a number. -/
def leAt (bs : List Byte) (i n : Nat) : Nat := leNat ((bs.drop i).take n)

/-- A loop over `0, …, n-1`. -/
def forUpto {α : Type} (n : Nat) (x : α) (f : Nat → α → α) : α := (List.range n).foldl (fun a i => f i a) x

/-! ### Registers (R7 to R10) -/

/-- The word a register holds. -/
def ChanState.word (ch : ChanState) (f : RF) : Word := Tab.get ch.regs (BitVec.ofNat 32 f.rst) f.ofs

/-- A field's value. -/
def ChanState.get (ch : ChanState) (f : RF) : Nat := (ch.word f).toNat / 2 ^ f.lo % 2 ^ f.w

/-- A field read as a signed value. -/
def ChanState.geti (ch : ChanState) (f : RF) : Int := wrapS f.w (ch.get f)

/-- Whether a field is not 0. -/
def ChanState.bit (ch : ChanState) (f : RF) : Bool := ch.get f != 0

/-- `old` with `w` bits from `lo` replaced by `v`. -/
def insertBits (old lo w v : Nat) : Nat :=
  old % 2 ^ lo + v % 2 ^ w * 2 ^ lo + old / 2 ^ (lo + w) * 2 ^ (lo + w)

/-- Writes a whole register. -/
def ChanState.putWord (ch : ChanState) (f : RF) (v : Word) : ChanState :=
  { ch with regs := Tab.set ch.regs (BitVec.ofNat 32 f.rst) f.ofs v }

/-- Writes a field; its register's other bits stay. -/
def ChanState.put (ch : ChanState) (f : RF) (v : Nat) : ChanState :=
  ch.putWord f (BitVec.ofNat 32 (insertBits (ch.word f).toNat f.lo f.w v))

/-- Writes a field modulo its width. -/
def ChanState.puti (ch : ChanState) (f : RF) (v : Int) : ChanState := ch.put f (ofInt f.w v)

/-- Sets or clears a one-bit field. -/
def ChanState.putb (ch : ChanState) (f : RF) (b : Bool) : ChanState := ch.put f (b2n b)

/-- Adds to a count, modulo its width. -/
def ChanState.add (ch : ChanState) (f : RF) (n : Nat) : ChanState := ch.put f (ch.get f + n)

/-- Adds 1 to a count that saturates. -/
def ChanState.incSat (ch : ChanState) (f : RF) : ChanState :=
  if ch.get f + 1 < 2 ^ f.w then ch.put f (ch.get f + 1) else ch

/-- Sets bit `i` of a field. -/
def ChanState.setBit (ch : ChanState) (f : RF) (i : Nat) (b : Bool) : ChanState :=
  ch.put f (insertBits (ch.get f) i 1 (b2n b))

/-- A 64-bit quantity (R10). -/
def ChanState.get64 (ch : ChanState) (p : RP) : Nat := ch.get p.low + ch.get p.high * 2 ^ 32

def ChanState.geti64 (ch : ChanState) (p : RP) : Int := wrapS 64 (ch.get64 p)

def ChanState.put64 (ch : ChanState) (p : RP) (v : Nat) : ChanState := (ch.put p.low v).put p.high (v / 2 ^ 32)

def ChanState.puti64 (ch : ChanState) (p : RP) (v : Int) : ChanState := ch.put64 p (ofInt 64 v)

/-! ### Units -/

def ChanState.arm (ch : ChanState) (k : Nat) : Arm := Tab.get ch.arms {} k
def ChanState.setArm (ch : ChanState) (k : Nat) (a : Arm) : ChanState := { ch with arms := Tab.set ch.arms {} k a }
def ChanState.joint (ch : ChanState) (j : Nat) : Joint := Tab.get ch.joints {} j
def ChanState.setJoint (ch : ChanState) (j : Nat) (x : Joint) : ChanState := { ch with joints := Tab.set ch.joints {} j x }
def ChanState.engine (ch : ChanState) (n : Nat) : Engine := Tab.get ch.engines {} n
def ChanState.setEngine (ch : ChanState) (n : Nat) (e : Engine) : ChanState :=
  { ch with engines := Tab.set ch.engines {} n e }

/-- Whether joint `j` is bound (R16). -/
def ChanState.bound (ch : ChanState) (j : Nat) : Bool := ch.bit (Reg.JNT_BIND_KIND j)

/-- The arm a joint is bound to (R19). -/
def ChanState.armOf (ch : ChanState) (j : Nat) : Nat := ch.get (Reg.JNT_BIND_ARM j)

/-- The bound joints of arm `k` in ordinal order (R19). -/
def ChanState.armJoints (ch : ChanState) (k : Nat) : List Nat :=
  (List.range 10).flatMap fun o => (List.range 64).filter fun j =>
    ch.bound j && ch.armOf j == k && ch.get (Reg.JNT_BIND_ORD j) == o

/-- The arms that have a bound joint. -/
def ChanState.boundArms (ch : ChanState) : List Nat :=
  (List.range 8).filter fun k => (List.range 64).any fun j => ch.bound j && ch.armOf j == k

/-- Takes a fresh number for a free value. -/
def ChanState.nextFresh (ch : ChanState) : ChanState := { ch with fresh := ch.fresh + 1 }

/-- Whether block `b` accepts nothing new: it is asked to go idle, or held, for a block-alone reset (R410). -/
def ChanState.blockQuiet (ch : ChanState) (b : Nat) : Bool := ch.rst.blk == some b

/-- Whether block `b` is held in a block-alone reset (R410, R411). -/
def ChanState.blockDown (ch : ChanState) (b : Nat) : Bool := ch.rst.blkInRst && ch.rst.blk == some b

/-! ### Time (R21, R22, R320) -/

/-- Cell time in whole ns. -/
def ChanState.now (ch : ChanState) : Nat := ch.ct / 2 ^ 16

/-- Whether an earlier tick of CLK_SYS had already reached the instant `t` ns: an instant belongs to the first tick at or past it. -/
def ChanState.past (ch : ChanState) (t : Nat) : Bool := decide (t * 2 ^ 16 + ch.get Reg.CBUS_INC_INC ≤ ch.ct)

/-- The basic cycle. -/
def ChanState.cycle (ch : ChanState) : Nat := ch.now / 16000

/-- The basic-cycle index b (R22). -/
def ChanState.bIdx (ch : ChanState) : Nat := ch.cycle % 16

/-- The matrix cycle, unreduced. -/
def ChanState.matrix (ch : ChanState) : Nat := ch.now / 256000

/-- The matrix cycle counter MCC (R22). -/
def ChanState.mcc (ch : ChanState) : Nat := ch.matrix % 2 ^ 32

/-- One tick of CLK_SYS for every domain, `n` times (R320). -/
def ChanState.ticks (ch : ChanState) (n : Nat) : ChanState :=
  { ch with
    ct := (ch.ct + n * ch.get Reg.CBUS_INC_INC) % 2 ^ 80
    pt1 := (ch.pt1 + n * ch.get (Reg.TIM_PINC 0)) % 2 ^ 88
    pt2 := (ch.pt2 + n * ch.get (Reg.TIM_PINC 1)) % 2 ^ 88
    mono := (ch.mono + 4 * n) % 2 ^ 64 }

/-- Moves time on to the first tick at which cell time has reached `t` ns. -/
def ChanState.advanceTo (ch : ChanState) (t : Nat) : ChanState :=
  let inc := ch.get Reg.CBUS_INC_INC
  if ch.ct < t * 2 ^ 16 ∧ inc ≠ 0 then ch.ticks ((t * 2 ^ 16 - ch.ct + inc - 1) / inc) else ch

/-- Moves time on to `ofs` ns into the present basic cycle, or of the next one where that has passed. -/
def ChanState.advanceInCycle (ch : ChanState) (ofs : Nat) : ChanState :=
  let t := ch.cycle * 16000 + ofs
  if ch.now ≤ t then ch.advanceTo t else ch.advanceTo (t + 16000)

/-! ### Trace FIFO (R368 to R374) -/

/-- The counters of the trace FIFO that registers show. -/
def ChanState.trcShow (ch : ChanState) : ChanState :=
  let w := ch.trc.store.length
  let by_ := (ch.trc.store.map fun x => x.bytes.length).sum + ch.trc.staging.length
  ((((ch.put Reg.TRC_WORDS_WORDS w).put Reg.TRC_CNT_BYTES by_).put Reg.TRC_STS_STAGED ch.trc.staging.length).putb
    Reg.TRC_STS_FULL (w == 8192))

/-- Free space of the trace FIFO in bytes (R368). -/
def ChanState.trcFree (ch : ChanState) : Nat := 65536 - 8 * ch.trc.store.length - ch.trc.staging.length

/-- One byte into the staging word; the eighth commits it (R368). -/
def ChanState.trcByte (ch : ChanState) (b : Byte) : ChanState :=
  let st := ch.trc.staging ++ [b]
  if st.length = 8 then
    ({ ch with trc := { ch.trc with staging := [], store := ch.trc.store ++ [TrcWord.mk st] } }).add Reg.TRC_PTR_WP 1
  else { ch with trc := { ch.trc with staging := st } }

/-- Writes a whole record into the FIFO, counted as offered and accepted (R371). -/
def ChanState.trcWrite (ch : ChanState) (bs : List Byte) : ChanState :=
  (((bs.foldl ChanState.trcByte ch).add Reg.TRC_OFFER bs.length).add Reg.TRC_ACC bs.length).trcShow

/-- The record of a source: header of R369 and body. -/
def ChanState.trcRecord (ch : ChanState) (src : Nat) (body : List Byte) : List Byte :=
  leBytes 1 src ++ leBytes 1 body.length ++ leBytes 2 (Tab.get ch.trc.seq 0 src) ++ leBytes 4 ch.now ++ body

/-- Offers a record of source `src` (R369 to R371): sources 1, 5 and 6 hold a record that does not fit, the others
withhold it. -/
def ChanState.trcOffer (ch : ChanState) (src : Nat) (body : List Byte) : ChanState :=
  if ch.get Reg.TRC_SRCEN / 2 ^ src % 2 = 0 then ch else
  let r := ch.trcRecord src body
  let ch := { ch with trc := { ch.trc with seq := Tab.set ch.trc.seq 0 src ((Tab.get ch.trc.seq 0 src + 1) % 2 ^ 16) } }
  let held := src == 1 || src == 5 || src == 6
  if r.length ≤ ch.trcFree ∧ (!held || ch.trc.waiting.isEmpty) then ch.trcWrite r
  else if held then { ch with trc := { ch.trc with waiting := ch.trc.waiting ++ [TrcRec.mk src r] } }
  else (ch.add Reg.TRC_OFFER r.length).add (Reg.TRC_WHELD src) r.length

/-! ### Events (R366, R367, R87) -/

/-- The tasks of event release `e` that are queued or running. -/
def ChanState.evtPending (ch : ChanState) (e : Nat) : Bool :=
  ch.sch.queues.any (fun q => q.2.any fun t => t.evt == some e) ||
  ch.engines.any fun x => match x.2.task with | some t => t.evt == some e | none => false

/-- Whether releases take place in the present state (R86). -/
def ChanState.releasing (ch : ChanState) : Bool :=
  let c := ch.get Reg.CHN_STATE_CODE
  c == 3 || c == 4 || c == 5 || c == 6 || c == 7 || c == 8 || (c == 2 && !ch.sch.table.isEmpty)

def ChanState.queue (ch : ChanState) (q : Nat) : List Task := Tab.get ch.sch.queues [] q

/-- Replaces a ready queue and shows its depth (R88). -/
def ChanState.setQueue (ch : ChanState) (q : Nat) (l : List Task) : ChanState :=
  let st := Tab.get ch.sch.stat {} q
  let st := { st with dmax := max st.dmax l.length }
  ({ ch with sch := { ch.sch with queues := Tab.set ch.sch.queues [] q l, stat := Tab.set ch.sch.stat {} q st } }).put
    (Reg.SCH_QDEPTH_DEPTH q) l.length

/-- SCH_PEND from the three counts (R91). -/
def ChanState.schPend (ch : ChanState) : ChanState :=
  ch.puti Reg.SCH_PEND ((ch.get Reg.SCH_REL : Int) - ch.get Reg.SCH_CMPL - ch.get Reg.SCH_ABRT)

/-- Releases the task of event release `e` (R87). -/
def ChanState.eventTask (ch : ChanState) (e : Nat) : ChanState :=
  let q := ch.get (Reg.SCH_EVT_Q e)
  if ch.evtPending e || (ch.queue q).length ≥ 128 then ch.add Reg.SCH_EVTOVR 1 else
  let t : Task := {
    kind := if q == 1 then 2 else 4
    joint := ch.get (Reg.SCH_EVT_JOINT e)
    rel := ch.now
    dl := ch.now + 4 * ch.get (Reg.SCH_EVTT_DL e)
    clim := ch.get (Reg.SCH_EVTT_CLIM e)
    entry := ch.get (Reg.SCH_EVT_ENTRY e)
    evt := some e }
  ((ch.setQueue q (ch.queue q ++ [t])).add Reg.SCH_REL 1).schPend

/-- Sends MSI-X vector `v`, or sets its pending bit while it is masked or the function may send nothing (R367, PCI Express). -/
def ChanState.sendMsix (ch : ChanState) (v : Nat) : ChanState :=
  if ch.bit (Reg.HOST_MSIXC_MASK v) || !ch.fn.bme then ch.setBit Reg.HOST_MSIXP v true
  else { ch with sent := ch.sent ++ [.msix v] }

/-- Sends the pending vectors that nothing holds back any more (PCI Express). -/
def ChanState.msixRelease (ch : ChanState) : ChanState :=
  forUpto 32 ch fun v ch =>
    if tbit (ch.get Reg.HOST_MSIXP) v then (ch.setBit Reg.HOST_MSIXP v false).sendMsix v else ch

/-- An occurrence of event `e`: its trace record, its MSI-X message, its event tasks (R367, R87). -/
def ChanState.event (ch : ChanState) (e : Nat) : ChanState :=
  let ch := if ch.bit (Reg.HOST_EVRT_SUP e) then ch.trcOffer 2 (leBytes 4 e) else ch
  let ch := if ch.bit (Reg.HOST_EVRT_MSIX e) then
      if tbit (ch.get64 Reg.HOST_EVPEND) e then ch.add Reg.HOST_EVOVR 1
      else (ch.put64 Reg.HOST_EVPEND (ch.get64 Reg.HOST_EVPEND + 2 ^ e)).sendMsix (ch.get (Reg.HOST_EVRT_VEC e))
    else ch
  forUpto 16 ch fun i ch =>
    if ch.releasing && ch.bit (Reg.SCH_EVT_EN i) && ch.get (Reg.SCH_EVT_SRC i) == e then ch.eventTask i else ch

/-! ### Torque and brakes (R161 to R163, R269) -/

/-- The STO group of joint `j` (R269). -/
def ChanState.groupOf (ch : ChanState) (j : Nat) : Nat := ch.get (Reg.SAF_JGRP (j / 16)) / 2 ^ (2 * (j % 16)) % 4

/-- The channel state in which torque may be on: READY, RUN, STOPPING, or GO_READY being carried out (R28, R269). -/
def ChanState.torqueState (ch : ChanState) : Bool :=
  let c := ch.get Reg.CHN_STATE_CODE
  c == 4 || c == 5 || c == 6 || ch.goingReady

/-- Whether joint `j`'s torque is on as the channel commands it (R161, R269, R92). -/
def ChanState.torqueWanted (ch : ChanState) (j : Nat) : Bool :=
  ch.bound j && ch.torqueState && !(ch.arm (ch.armOf j)).torqueOff && !ch.bit (Reg.JNT_STS_GOFF j)
    && ch.bit (Reg.SAF_STOSTS_ENG (ch.groupOf j))

/-- The local brakes of joint `j` and its remote brake bit, released or engaged (R161, R163). -/
def ChanState.setBrakes (ch : ChanState) (j : Nat) (rel : Bool) : ChanState :=
  let ch := forUpto 16 ch fun i ch =>
    if ch.bit (Reg.BRK_CFG_EN i) && ch.get (Reg.BRK_CFG_JOINT i) == j then
      ch.setBit Reg.BRK_STS_REL i (rel && ch.bit (Reg.SAF_STOSTS_ENG (ch.get (Reg.BRK_CFG_GRP i))))
    else ch
  if ch.get (Reg.JNT_BIND_KIND j) ≥ 3 then
    ch.put64 Reg.BRK_RREL (insertBits (ch.get64 Reg.BRK_RREL) j 1 (b2n rel))
  else ch

def ChanState.pwmU (ch : ChanState) (u : Nat) : Pwm := Tab.get ch.pwm {} u
def ChanState.setPwm (ch : ChanState) (u : Nat) (p : Pwm) : ChanState := { ch with pwm := Tab.set ch.pwm {} u p }
def ChanState.stpU (ch : ChanState) (n : Nat) : Stp := Tab.get ch.stp {} n
def ChanState.setStp (ch : ChanState) (n : Nat) (p : Stp) : ChanState := { ch with stp := Tab.set ch.stp {} n p }

/-- The joint that names local unit `n` of binding kind `kind` (R16). -/
def ChanState.unitJoint (ch : ChanState) (kind n : Nat) : Option Nat :=
  (List.range 64).find? fun j => ch.get (Reg.JNT_BIND_KIND j) == kind && ch.get (Reg.JNT_BIND_UNIT j) == n

/-- The first instant at or after `t` that is `ph` modulo `p`. -/
def nextAt (t p ph : Nat) : Nat := t + (ph % p + p - t % p) % p

/-- Half a carrier period of unit `u` in ns (R132). -/
def ChanState.pwmHalf (ch : ChanState) (u : Nat) : Nat := 8000 * 2 ^ ch.get (Reg.PWM_STS_PERA u)

/-- The instant of unit `u`'s valleys modulo its period (R132, R139). -/
def ChanState.pwmPhase (ch : ChanState) (u : Nat) : Nat := 4 * ch.get (Reg.PWM_PHOFS_OFS u) % (2 * ch.pwmHalf u)

/-- Dead time of unit `u` in ns (R134). -/
def ChanState.pwmDead (ch : ChanState) (u : Nat) : Nat := 4 * ch.get (Reg.PWM_DT_DT u)

/-- The conditions under which unit `u`'s gates switch (R140). -/
def ChanState.unitOk (ch : ChanState) (u : Nat) : Bool :=
  ch.bit (Reg.PWM_CTL_EN u) && !ch.bit (Reg.PWM_TRIPSTS_TRIP u) && ch.bit (Reg.SAF_STOSTS_ENG (u / 4)) &&
    (ch.bit (Reg.PWM_CFG_MODE u) || match ch.unitJoint 1 u with
      | some j => !ch.bit (Reg.JNT_STS_TOFF j) && !ch.bit (Reg.JNT_STS_GOFF j)
      | none => false)

/-- Turns unit `u`'s six gates off; a turn-on in progress is cancelled (R130, R140, R142, R164). -/
def ChanState.gatesOff (ch : ChanState) (u : Nat) : ChanState :=
  let p := ch.pwmU u
  let off := p.ph.map fun e => (e.1, { e.2 with due := none })
  ((ch.setPwm u { p with resume := none, ph := off.filter fun e => decide (e.2 ≠ {}) }).put (Reg.PWM_STS_GATES u) 0).put
    (Reg.PWM_STS_ON u) 0

/-- Lets unit `u` switch again from its next half-period boundary, each low side after its dead time; a phase that is inside
its high interval there waits for its off-edge (R140). -/
def ChanState.gatesOn (ch : ChanState) (u : Nat) : ChanState :=
  let p := ch.pwmU u
  let t := nextAt ch.now (ch.pwmHalf u) (ch.pwmPhase u)
  let ph := forUpto 3 p.ph fun i l =>
    let x := Tab.get l {} i
    Tab.set l {} i { x with due := if x.hi then none else some (t + ch.pwmDead u) }
  (ch.setPwm u { p with resume := some t, ph }).put (Reg.PWM_STS_ON u) 1

/-- Sets unit `u`'s gates as R140's conditions stand. -/
def ChanState.unitReview (ch : ChanState) (u : Nat) : ChanState :=
  if ch.unitOk u then (if ch.bit (Reg.PWM_STS_ON u) then ch else ch.gatesOn u)
  else if ch.bit (Reg.PWM_STS_ON u) then ch.gatesOff u else ch

/-- The conditions under which chopper unit `n` drives its coils (R159). -/
def ChanState.stpOk (ch : ChanState) (n : Nat) : Bool :=
  ch.bit (Reg.STP_CFG_EN n) && ch.bit (Reg.SAF_STOSTS_ENG (ch.get (Reg.STP_CFG_GRP n))) &&
    match ch.unitJoint 2 n with
    | some j => !ch.bit (Reg.JNT_STS_TOFF j)
    | none => false

/-- The threshold code of a coil at microstep index `i`, from 0 at a zero of its function: zero or not (R156). -/
def coilZero (i : Nat) : Bool := i % 512 == 0

/-- Index of a coil's function: coil A is the cosine, coil B the sine (R156). -/
def coilIdx (i : Nat) : Coil → Nat
  | .A => (i + 256) % 1024
  | .B => i % 1024

def Stp.coil (x : Stp) : Coil → CoilSt
  | .A => x.a
  | .B => x.b

def Stp.setCoil (x : Stp) (c : Coil) (v : CoilSt) : Stp :=
  match c with
  | .A => { x with a := v }
  | .B => { x with b := v }

/-- The status field of a coil (STP_STS). -/
def coilField (n : Nat) : Coil → RF
  | .A => Reg.STP_STS_CSA n
  | .B => Reg.STP_STS_CSB n

/-- Starts drive of a coil in the direction of its function, or leaves it off at code 0 (R156, R157). -/
def ChanState.coilStart (ch : ChanState) (n : Nat) (c : Coil) : ChanState :=
  let i := coilIdx (ch.get (Reg.STP_STS_IDX n)) c
  if coilZero i then (ch.setStp n ((ch.stpU n).setCoil c .off)).put (coilField n c) 0
  else (ch.setStp n ((ch.stpU n).setCoil c (.drive ch.now))).put (coilField n c) (if i < 512 then 1 else 2)

/-- All four bridge outputs of unit `n` high (R159). -/
def ChanState.coilsOff (ch : ChanState) (n : Nat) : ChanState :=
  ((ch.setStp n { ch.stpU n with a := .off, b := .off }).put (Reg.STP_STS_CSA n) 0).put (Reg.STP_STS_CSB n) 0

/-- Whether a coil of unit `n` is driven or in its off phase. -/
def ChanState.coilsLive (ch : ChanState) (n : Nat) : Bool := (ch.stpU n).a != .off || (ch.stpU n).b != .off

/-- Sets unit `n`'s coils as R159's conditions stand. -/
def ChanState.stpReview (ch : ChanState) (n : Nat) : ChanState :=
  if ch.stpOk n then (if ch.coilsLive n then ch else (ch.coilStart n .A).coilStart n .B)
  else if ch.coilsLive n then ch.coilsOff n else ch

/-- Every local unit as its conditions stand. -/
def ChanState.unitsReview (ch : ChanState) : ChanState :=
  forUpto 8 (forUpto 16 ch fun u ch => ch.unitReview u) fun n ch => ch.stpReview n

/-- Takes joint `j`'s torque off with its gates, its brake in the same cycle (R163). -/
def ChanState.torqueDrop (ch : ChanState) (j : Nat) : ChanState :=
  let x := ch.joint j
  let ch := (ch.setJoint j { x with tfirstC := true, tfirstS := true }).put (Reg.JNT_STS_TOFF j) 1
  let u := ch.get (Reg.JNT_BIND_UNIT j)
  let ch := if ch.get (Reg.JNT_BIND_KIND j) == 1 then ch.gatesOff u
    else if ch.get (Reg.JNT_BIND_KIND j) == 2 then ch.coilsOff u else ch
  ch.setBrakes j false

/-- Sets every joint's torque and brake as the state, its group, its arm and its gates decide, and the local units with
them. -/
def ChanState.torqueReview (ch : ChanState) : ChanState :=
  ChanState.unitsReview (forUpto 64 ch fun j ch =>
    if !ch.bound j then ch
    else if ch.torqueWanted j then
      if ch.bit (Reg.JNT_STS_TOFF j) then (ch.put (Reg.JNT_STS_TOFF j) 0).setBrakes j true else ch
    else if ch.bit (Reg.JNT_STS_TOFF j) then ch else ch.torqueDrop j)

/-- De-energises STO group `g`: the brakes that name it engage, the torque of its joints goes off (R163, R164). -/
def ChanState.groupOff (ch : ChanState) (g : Nat) : ChanState :=
  let ch := forUpto 16 (ch.put (Reg.SAF_STOSTS_ENG g) 0) fun i ch =>
    if ch.get (Reg.BRK_CFG_GRP i) == g then ch.setBit Reg.BRK_STS_REL i false else ch
  ch.torqueReview

/-! ### Segments at a stop (R59, R61) -/

/-- Segments an arm holds that are not yet executed or discarded (R59). -/
def ChanState.segPending (ch : ChanState) (k : Nat) : Nat :=
  ofInt 32 ((ch.get (Reg.PRF_SAPP k) : Int) + ch.get (Reg.PRF_SPLAY k) - ch.get (Reg.PRF_SEXE k) - ch.get (Reg.PRF_SDIS k))

/-- Discards every pending segment of arm `k`: SDIS takes them, RCON passes the ring's (R59). -/
def ChanState.discardSegments (ch : ChanState) (k : Nat) : ChanState :=
  let a := ch.arm k
  let n := ch.segPending k
  let ring := a.pend.length + (if a.seg.isSome && a.table.isNone then 1 else 0)
  let ch := (ch.add (Reg.PRF_SDIS k) n).add (Reg.PRF_RCON k) ring
  ch.setArm k { a with pend := [], seg := none, table := none, running := false, broken := false }

/-- Ends every joint-mode motion of arm `k` at once. -/
def ChanState.jointsRest (ch : ChanState) (k : Nat) : ChanState :=
  forUpto 64 ch fun j ch =>
    if ch.bound j && ch.armOf j == k then
      let x := ch.joint j
      (ch.setJoint j { x with active := false, decel := false, geared := false, waiting := false }).put (Reg.PRF_STS_PHASE j) 0
    else ch

/-- The stop of an arm under F3: no ramp, segments discarded, STOPPED (R61). -/
def ChanState.armCut (ch : ChanState) (k : Nat) : ChanState :=
  if ch.get (Reg.PRF_ACFG_NJ k) = 0 then ch else
  let ch := (ch.discardSegments k).jointsRest k
  let a := ch.arm k
  (ch.setArm k { a with s := 0, rate := 0, stopping := none, stopL := none, running := false, cmd := {}, smp := {},
                        torqueOff := true, engaging := none, f2Since := none }).put (Reg.PRF_ASTS_ASTATE k) 5

/-! ### Host work of the solver (R206 to R214) -/

/-- A byte of solver memory (R194). -/
def ChanState.sByte (ch : ChanState) (a : Nat) : Nat := (Tab.get ch.smem 0 a).toNat

/-- `n` bytes of solver memory, and their value. -/
def ChanState.sBytes (ch : ChanState) (a n : Nat) : List Byte := (List.range n).map fun i => Tab.get ch.smem 0 (a + i)
def ChanState.sLe (ch : ChanState) (a n : Nat) : Nat := leNat (ch.sBytes a n)

/-- Bytes into a memory, from address `a`. -/
def storeBytes (t : Tab Byte) (a : Nat) (bs : List Byte) : Tab Byte :=
  (bs.zip (List.range bs.length)).foldl (fun t x => Tab.set t 0 (a + x.2) x.1) t

/-- Bytes into solver memory. -/
def ChanState.sStore (ch : ChanState) (a : Nat) (bs : List Byte) : ChanState := { ch with smem := storeBytes ch.smem a bs }

/-- The problems of a descriptor, up to 256 (R196, R206). -/
def descCount (d : List Byte) : Nat := min (leAt d 8 2) 256

/-- Whether `len` bytes from `a` lie in the host area, aligned (R196). -/
def hostArea (a len : Nat) : Bool := a % 4 == 0 && decide (0x40000 ≤ a) && decide (a + len ≤ 0x200000)

/-- Whether a descriptor's status area is valid (R196). -/
def statusArea (d : List Byte) : Bool := hostArea (leAt d 48 4) (8 * descCount d)

/-- Writes the status record of problem `p` (R208). -/
def ChanState.statusPut (ch : ChanState) (d : List Byte) (p status info iter sflg res : Nat) : ChanState :=
  if statusArea d then
    ch.sStore (leAt d 48 4 + 8 * p) (leBytes 1 status ++ leBytes 1 info ++ leBytes 1 iter ++ leBytes 1 sflg ++ leBytes 4 res)
  else ch

/-- SLV_HINPR from the four counts (R210). -/
def ChanState.slvPend (ch : ChanState) : ChanState :=
  ch.puti Reg.SLV_HINPR ((ch.get Reg.SLV_HSUB : Int) - ch.get Reg.SLV_HCMPL - ch.get Reg.SLV_HFAIL - ch.get Reg.SLV_HNRUN)

/-- A final status of problem `p`: written and counted (R208, R210). -/
def ChanState.slvFinal (ch : ChanState) (idx : Nat) (d : List Byte) (p status info iter sflg res : Nat) : ChanState :=
  let ch := ch.statusPut d p status info iter sflg res
  let ch := (ch.add (if status = 0 then Reg.SLV_HCMPL else if status = 7 then Reg.SLV_HNRUN else Reg.SLV_HFAIL) 1).slvPend
  { ch with slv := { ch.slv with batches := ch.slv.batches.map fun b => if b.idx = idx then { b with fin := b.fin + 1 } else b } }

/-- Passes SLV_HDONE over the leading batches whose problems are all final and released, each with its event (R207). -/
def ChanState.slvDone : Nat → ChanState → ChanState
  | 0, ch => ch
  | n + 1, ch =>
    match ch.slv.batches with
    | b :: rest =>
      if b.fin < b.n ∨ b.rel < b.n then ch else
      let ch := { ch with slv := { ch.slv with batches := rest } }.put Reg.SLV_HDONE (b.idx + 1)
      ChanState.slvDone n (if leAt b.desc 1 1 % 2 = 1 then ch.event 0x30 else ch)
    | [] => ch

/-- Takes the descriptor at SLV_HCONS: its problems pending and counted (R207). -/
def ChanState.slvTake (ch : ChanState) : ChanState :=
  let i := ch.get Reg.SLV_HCONS
  let d := ch.sBytes (64 * ch.get Reg.SLV_HRBASE_BASE + 64 * (i % max 1 (ch.get Reg.SLV_HRSIZE_SIZE))) 64
  let n := descCount d
  let ch := forUpto n ch fun p ch => ch.statusPut d p 0xFF 0 0 0 0
  let ch := (ch.add Reg.SLV_HSUB n).slvPend
  { ch with slv := { ch.slv with batches := ch.slv.batches ++ [{ idx := i, desc := d, n }] } }

/-- Reports every problem of the latest batch that is not released NOT_RUN, and passes its descriptor (R196, R207, R214). -/
def ChanState.slvRefuse (ch : ChanState) (reason : Nat) : ChanState :=
  match ch.slv.batches.getLast? with
  | none => ch
  | some b =>
    let ch := (List.range (b.n - b.rel)).foldl (fun ch i => ch.slvFinal b.idx b.desc (b.rel + i) 7 reason 0 0 0) ch
    let ch := { ch with slv := { ch.slv with batches := ch.slv.batches.map fun (x : SBatch) => if x.idx = b.idx then { x with rel := x.n } else x } }
    ch.put Reg.SLV_HCONS (b.idx + 1)

/-- Whether a descriptor has been taken whose problems are not all released. -/
def ChanState.slvOpen (ch : ChanState) : Bool :=
  match ch.slv.batches.getLast? with
  | some b => b.idx == ch.get Reg.SLV_HCONS && decide (b.rel < b.n)
  | none => false

/-- Takes and refuses every descriptor up to SLV_HPROD (R214). -/
def ChanState.slvDrain (reason : Nat) : Nat → ChanState → ChanState
  | 0, ch => ch
  | n + 1, ch =>
    if ch.get Reg.SLV_HCONS = ch.get Reg.SLV_HPROD then ch else ChanState.slvDrain reason n (ch.slvTake.slvRefuse reason)

/-- Ends host work: what waits in Q3, what is not released and what is not taken is reported NOT_RUN for `reason`; the running problem
goes on under R209 (R214). -/
def ChanState.hostAbort (ch : ChanState) (reason : Nat) : ChanState :=
  let q := ch.queue 3
  let ch := if q.isEmpty then ch else ch.setQueue 3 []
  let ch := q.foldl (fun ch t => match ch.slv.batches.find? (·.idx == t.entry) with
    | some b => (((ch.add Reg.SCH_ABRT 1).schPend).slvFinal b.idx b.desc t.joint 7 reason 0 0 0)
    | none => ch) ch
  let ch := if ch.slvOpen then ch.slvRefuse reason else ch
  ChanState.slvDone 4097 (ChanState.slvDrain reason 4096 ch)

/-- The states in which host descriptors are taken (R207). -/
def hostWork (code : Nat) : Bool := code == 3 || code == 4 || code == 5 || code == 6 || code == 8

/-! ### The channel state (R28, R29) -/

/-- Enters state `code` with `cause` (R29): PREV, event 0x33, torque and safe outputs as the new state allows (R269, R274). -/
def ChanState.goState (ch : ChanState) (code cause : Nat) : ChanState :=
  let old := ch.get Reg.CHN_STATE_CODE
  let ch := ((((ch.put Reg.CHN_STATE_PREV old).put Reg.CHN_STATE_CODE code).put Reg.CHN_STATE_CAUSE cause).put
    Reg.CHN_STATE_TARGET 0).putb Reg.CHN_STATE_BUSY (ch.cfg.job.any (·.write))
  let ch := { ch with goingReady := false }
  let ch := if code == 3 || code == 4 || code == 5 || code == 6 then ch else ch.put Reg.SAF_SOSTS_ENG 0
  let ch := if code == 4 || code == 5 || code == 6 then ch
    else (forUpto 4 ch fun g ch => ch.put (Reg.SAF_STOSTS_ENG g) 0).torqueReview
  let ch := if hostWork old && !hostWork code then ch.hostAbort 6 else ch
  if old == code then ch else ch.event 0x33

/-! ### Surge (R213, R438) -/

/-- The conditions of R438; with no valid reading no Tj is below SLIM. -/
def ChanState.surgeOk (ch : ChanState) : Bool :=
  ch.bit Reg.SLV_CFG_SURGE && !ch.lehr.slim && (List.range 4).any (fun n => ch.bit (Reg.LEHR_TJ_VALID n)) &&
    !ch.bit Reg.LEHR_STS_DROOP && !(ch.flt.active.any fun a => decide (2 ≤ a.cls) && (a.scope == none || a.cls == 3)) &&
    (match ch.lehr.rest with | some t => decide (t ≤ ch.mono) | none => true)

/-- Grants or withdraws surge as its conditions stand; a period, and the clock, change only between solver tasks (R213, R401, R438). -/
def ChanState.surgeReview (ch : ChanState) : ChanState :=
  let ok := ch.surgeOk
  let idle := ch.slv.run.isNone
  let ch := ch.putb Reg.LEHR_STS_SURGEOK ok
  let ch := match ch.lehr.since with
    | none =>
      if ok then
        ({ ch with lehr := { ch.lehr with since := some ch.mono, rest := none, limit := false } }.put Reg.LEHR_STS_SURGEON 1).event 0x37
      else ch
    | some t =>
      if idle && (!ok || ch.lehr.limit) then
        let len := min (ch.mono - t) 8000000000
        let ch := { ch with lehr := { ch.lehr with since := none, rest := some (ch.mono + len), limit := false, total := ch.lehr.total + (ch.mono - t) } }
        ((ch.put Reg.LEHR_STS_SURGEON 0).put Reg.LEHR_STS_REST 1).event 0x37
      else ch
  if idle then (ch.putb Reg.SLV_STS_SURGEON ch.lehr.since.isSome).putb Reg.CLK_STS_SURGE ch.lehr.since.isSome else ch

/-! ### Faults (R428 to R434) -/

/-- The highest class active for a scope or for the channel (R430). -/
def ChanState.classInForce (ch : ChanState) (scope : Option Nat) : Nat :=
  ch.flt.active.foldl (fun m a => if a.scope == scope || a.scope == none then max m a.cls else m) 0

/-- The highest class active in any scope. -/
def ChanState.classAny (ch : ChanState) : Nat := ch.flt.active.foldl (fun m a => max m a.cls) 0

/-- FLT_ACT from the active faults; F2TO falls when no F2 is left (R429, R442). -/
def ChanState.fltShow (ch : ChanState) : ChanState :=
  let f2 := ch.flt.active.filter fun a => a.cls == 2
  let arms := (List.range 8).foldl (fun m k => if f2.any (fun a => a.scope == some k) then m + 2 ^ k else m) 0
  let ch := ((((ch.put Reg.FLT_ACT_ARMF2 arms).putb Reg.FLT_ACT_CHF2 (f2.any fun a => a.scope == none)).putb
    Reg.FLT_ACT_F3 (ch.flt.active.any fun a => a.cls == 3)).putb Reg.FLT_ACT_F1 (ch.flt.active.any fun a => a.cls == 1))
  if f2.isEmpty then ch.put Reg.FLT_ACT_F2TO 0 else ch

/-- The 32 bytes of a record (R432). -/
def FaultRec.toBytes (r : FaultRec) : List Byte :=
  leBytes 2 r.code ++ leBytes 1 (r.cls + 4 * b2n r.pre) ++ leBytes 1 (match r.scope with | none => 128 | some k => k) ++
  leBytes 2 r.count ++ leBytes 2 r.index ++ leBytes 8 r.first ++ leBytes 8 r.last ++ leBytes 4 r.info ++
  leBytes 2 r.rseq ++ leBytes 1 r.st ++ leBytes 1 0

/-- Shows the oldest record in FLT_QREC and the depth in FLT_QCNT (R433). -/
def ChanState.qShow (ch : ChanState) : ChanState :=
  let bs := match ch.flt.queue with | [] => [] | r :: _ => r.toBytes
  forUpto 8 (ch.put Reg.FLT_QCNT_CNT ch.flt.queue.length) fun w ch => ch.put (Reg.FLT_QREC w) (leAt bs (4 * w) 4)

/-- Whether two occurrences merge: same CODE, SCOPE and INDEX (R432). -/
def FaultRec.same (r : FaultRec) (code : Nat) (scope : Option Nat) (index : Nat) : Bool :=
  r.code == code && r.scope == scope && r.index == index

/-- Whether a slot write or an update writes the flash, or its port is held in reset (R411, R434). -/
def ChanState.flashBusy (ch : ChanState) : Bool := ch.cfg.job.isSome || ch.cfg.upd.isSome || ch.blockDown 4

/-- The flash ring's entry of a merged record: rewritten at once after a second, else marked (R434). -/
def ChanState.ringMerge (ch : ChanState) (r : FaultRec) : ChanState :=
  { ch with
    flt := { ch.flt with toRing := ch.flt.toRing.map fun q => if q.rseq = r.rseq ∧ q.first = r.first then r else q }
    ring := ch.ring.map fun e =>
      if e.body.rseq = r.rseq ∧ e.body.first = r.first ∧ e.body.code = r.code then
        if e.wtime + 1000000000 ≤ ch.mono ∧ !ch.flashBusy then { body := r, wtime := ch.mono, pend := none }
        else { e with pend := some r }
      else e }

/-- Replaces the youngest F0 record of a full queue, if there is one (R433). -/
def replaceF0 : List FaultRec → Option (FaultRec × List FaultRec)
  | [] => none
  | r :: q =>
    match replaceF0 q with
    | some (l, q') => some (l, r :: q')
    | none => if r.cls = 0 then some (r, q) else none

/-- Records an occurrence: merged, queued, or dropped and counted; offered to the trace and to the ring (R432 to R434). -/
def ChanState.recordFault (ch : ChanState) (code cls : Nat) (pre : Bool) (scope : Option Nat) (index info : Nat) :
    ChanState :=
  let ch := ch.add Reg.FLT_TOTAL 1
  match ch.flt.queue.find? (·.same code scope index) with
  | some r =>
    let r' := { r with count := min (r.count + 1) 0xFFFF, last := ch.now }
    let q := ch.flt.queue.map fun x => if x.same code scope index then r' else x
    let ch := ({ ch with flt := { ch.flt with queue := q } }).qShow
    if 2 ≤ r.cls then ch.ringMerge r' else ch
  | none =>
    let r : FaultRec := { code, cls, pre, scope, count := 1, index, first := ch.now, last := ch.now, info := info % 2 ^ 32,
                          rseq := ch.flt.rseq, st := ch.get Reg.CHN_STATE_CODE }
    let ch := { ch with flt := { ch.flt with rseq := (ch.flt.rseq + 1) % 2 ^ 16 } }
    let ch := if 2 ≤ cls then { ch with flt := { ch.flt with toRing := ch.flt.toRing ++ [r] } } else ch
    let ch := ch.trcOffer 1 r.toBytes
    if ch.flt.queue.length < 32 then
      (({ ch with flt := { ch.flt with queue := ch.flt.queue ++ [r] } }).qShow).event 0x31
    else match (if 2 ≤ cls then replaceF0 ch.flt.queue else none) with
      | some (l, q) =>
        ((({ ch with flt := { ch.flt with queue := q ++ [r] } }).qShow).add (Reg.FLT_OVF (l.code / 256 % 16)) 1).event 0x31
      | none => ch.add (Reg.FLT_OVF (code / 256 % 16)) 1

/-- Marks a fault active, or its cause present again in this matrix cycle (R428). -/
def ChanState.activate (ch : ChanState) (code cls : Nat) (scope : Option Nat) (index : Nat) (held : Bool) : ChanState :=
  if cls = 0 then ch else
  let key := fun a : Active => a.code == code && a.scope == scope && a.index == index
  let new : Active := { code, cls, scope, index, lastMc := ch.matrix, held }
  let l := if ch.flt.active.any key then ch.flt.active.map fun a => if key a then new else a
    else ch.flt.active ++ [new]
  ({ ch with flt := { ch.flt with active := l } }).fltShow

/-- The reaction of an F2 for arm `k`: the stop of R61, taken at the next evaluation. -/
def ChanState.reactArm (ch : ChanState) (k : Nat) : ChanState :=
  let a := ch.arm k
  ch.setArm k { a with stopL := some .f2, f2Since := match a.f2Since with | none => some ch.mono | t => t }

/-- The reaction of an F2 for the channel: every arm stops, through STOPPING with target SAFE_IDLE (R29, R33, R428). -/
def ChanState.reactChannel (ch : ChanState) : ChanState :=
  let ch := ch.boundArms.foldl ChanState.reactArm ch
  let c := ch.get Reg.CHN_STATE_CODE
  if c == 4 || c == 5 then (ch.goState 6 5).put Reg.CHN_STATE_TARGET 3
  else if c == 6 then (ch.put Reg.CHN_STATE_TARGET 3)
  else if ch.goingReady then
    let ch := { (ch.put Reg.CHN_STATE_BUSY 0) with goingReady := false }
    (forUpto 4 ch fun g ch => ch.put (Reg.SAF_STOSTS_ENG g) 0).torqueReview
  else ch

/-- The reaction of an F3: torque off and brakes at once, every arm cut, LOCKOUT with its marker (R277, R424, R428). -/
def ChanState.reactLockout (ch : ChanState) : ChanState :=
  let c := ch.get Reg.CHN_STATE_CODE
  if c == 0xB then ch else
  let ch := forUpto 8 ch fun k ch => ch.armCut k
  let ch := ch.put Reg.SAF_SOSTS_ENG 0
  let ch := { ch with lockMark := true }
  if c == 7 then ch.torqueReview else ch.goState 7 6

/-- Raises a fault (R428, R430, R432): recorded in every case; its class reaction starts when its class is above the class in
force. `held` marks a lasting cause. -/
def ChanState.raise (ch : ChanState) (code cls : Nat) (scope : Option Nat) (index info : Nat) (held : Bool) : ChanState :=
  let rises := decide (2 ≤ cls) && decide (ch.classInForce scope < cls)
  let running := match scope with | none => ch.classAny | some _ => ch.classInForce scope
  let ch := ch.recordFault code cls (rises && decide (1 ≤ running)) scope index info
  let ch := ch.activate code cls scope index held
  if !rises then ch else
  let ch := match cls, scope with
    | 2, some k => ch.reactArm k
    | 2, none => ch.reactChannel
    | _, _ => ch.reactLockout
  ch.surgeReview.event 0x32

/-- Raises a fault without a lasting cause. -/
def ChanState.fault (ch : ChanState) (code cls : Nat) (scope : Option Nat) (index info : Nat) : ChanState :=
  ch.raise code cls scope index info false

/-- Raises an F2 for a set of arms by one occurrence: for the channel where the set holds every bound arm (R428). -/
def ChanState.faultArms (ch : ChanState) (code : Nat) (arms : List Nat) (index : Nat) : ChanState :=
  if ch.boundArms.all (fun k => arms.contains k) ∧ arms ≠ [] then ch.fault code 2 none index 0
  else arms.foldl (fun ch k => ch.fault code 2 (some k) index 0) ch

/-- A lasting cause is gone: the fault stays active until it is cleared or ends (R428). -/
def ChanState.causeGone (ch : ChanState) (code : Nat) (scope : Option Nat) (index : Nat) : ChanState :=
  { ch with flt := { ch.flt with active := ch.flt.active.map fun a =>
      if a.code == code && a.scope == scope && a.index == index then { a with held := false, lastMc := ch.matrix } else a } }

/-- Whether the cause of an active fault is present: lasting, or occurring within the last whole matrix cycle (R428). -/
def ChanState.causePresent (ch : ChanState) (a : Active) : Bool := a.held || decide (ch.matrix < a.lastMc + 2)

/-! ### Channels of the package -/

/-- The channel a command names. -/
def State.chan (s : State) (c : Chan) : ChanState :=
  match c with
  | .A => s.chA
  | .B => s.chB

/-- Whether the package has the channel (R4, R5). -/
def State.present (s : State) (c : Chan) : Bool :=
  match c, s.variant with
  | .B, .EV7208 => false
  | _, _ => true

/-- Replaces a channel. -/
def State.setChan (s : State) (c : Chan) (ch : ChanState) : State :=
  match c with
  | .A => { s with chA := ch }
  | .B => { s with chB := ch }

/-- Acts on a channel; a channel the package does not have stays as it is (R5). -/
def State.onChan (s : State) (c : Chan) (f : ChanState → ChanState) : State :=
  if s.present c then s.setChan c (f { s.chan c with sent := [] }) else s

/-- Acts on a channel that is not held in reset; one that is does nothing (R365, R405). -/
def State.onLive (s : State) (c : Chan) (f : ChanState → ChanState) : State :=
  s.onChan c fun ch => if ch.rst.held then ch else f ch

end Sys2Proof.Machine
end

