-- ==== Sys2Proof/Machine/Operands.lean ====
section
/-!
DEFINITION. The operand forms of the loop engines: registers, the data memory with the task window, pointer operands, the
5-bit register numbers of MOV (R81, R109 to R112, R119).
-/
namespace Sys2Proof.Machine

open Sys2Proof

/-- Data register `i`. -/
def Engine.dreg (e : Engine) (i : Fin 8) : Half := Tab.get e.d 0 i.val
def Engine.setD (e : Engine) (i : Nat) (v : Half) : Engine := { e with d := Tab.set e.d 0 (i % 8) v }

/-- A data register as a signed value. -/
def Engine.dx (e : Engine) (i : Fin 8) : Int := (e.dreg i).toInt

def Engine.acc (e : Engine) : AccSel → Acc
  | .ac0 => e.ac0
  | .ac1 => e.ac1

def Engine.setAcc (e : Engine) (a : AccSel) (v : Acc) : Engine :=
  match a with
  | .ac0 => { e with ac0 := v }
  | .ac1 => { e with ac1 := v }

/-- An accumulator as a signed value. -/
def Engine.ax (e : Engine) (a : AccSel) : Int := (e.acc a).toInt

/-- The other accumulator. -/
def otherAcc : AccSel → AccSel
  | .ac0 => .ac1
  | .ac1 => .ac0

def Engine.ptr (e : Engine) (i : Fin 4) : Ptr := Tab.get e.p 0 i.val
def Engine.setPtr (e : Engine) (i : Nat) (v : Ptr) : Engine := { e with p := Tab.set e.p 0 i v }
def Engine.modr (e : Engine) (i : Fin 4) : Half := Tab.get e.m 0 i.val
def Engine.setMod (e : Engine) (i : Nat) (v : Half) : Engine := { e with m := Tab.set e.m 0 i v }

/-- Window words a task may read (R81). -/
def winReadable (a : Nat) : Bool :=
  decide (0x7C00 ≤ a ∧ a < 0x7C20) || decide (0x7C40 ≤ a ∧ a < 0x7C50) || decide (0x7C80 ≤ a ∧ a < 0x7D38)

/-- Window words a task may write: outputs and joint state (R81). -/
def winWritable (a : Nat) : Bool := decide (0x7C40 ≤ a ∧ a < 0x7C50) || decide (0x7C80 ≤ a ∧ a < 0x7D00)

/-- A word of data memory: a reserved window word reads 0, a word below the window that the task has not written is
undefined (R80, R111). -/
def Engine.load (e : Engine) (a : Ptr) : Half :=
  if a.toNat < 0x7C00 then
    match Tab.get e.loc none a.toNat with
    | some v => v
    | none => Config.undefMem e.epoch a.toNat
  else if winReadable a.toNat then Tab.get e.win 0 a.toNat else 0

/-- A write to data memory; a read-only or reserved window word discards it (R82, R111). -/
def Engine.store (e : Engine) (a : Ptr) (v : Half) : Engine :=
  if a.toNat < 0x7C00 then { e with loc := Tab.set e.loc none a.toNat (some v) }
  else if winWritable a.toNat then { e with win := Tab.set e.win 0 a.toNat v } else e

/-- The step m of a modifier: bits 11:0, signed (R109). -/
def modStep (m : Half) : Int := wrapS 12 (m.toNat % 4096)

/-- The pointer after one access (R112). -/
def nextPtr (p : Ptr) (m : Half) : PMode → Ptr
  | .plain => p
  | .inc => p + 1
  | .linear => BitVec.ofInt 15 ((p.toNat : Int) + modStep m)
  | .circular =>
    let k := m.toNat / 4096
    BitVec.ofNat 15 (p.toNat / 2 ^ k * 2 ^ k + ofInt k ((p.toNat : Int) + modStep m))

/-- Modifies a pointer operand after its access. -/
def Engine.advance (e : Engine) (o : PtrOp) : Engine := e.setPtr o.p.val (nextPtr (e.ptr o.p) (e.modr o.p) o.m)

/-- The word a pointer operand reads. -/
def Engine.at (e : Engine) (o : PtrOp) : Half := e.load (e.ptr o.p)

/-- The 32-bit value of the two words at a pointer operand, low word first (R111). -/
def Engine.at2 (e : Engine) (o : PtrOp) : BitVec 32 := (e.load (e.ptr o.p + 1)) ++ (e.load (e.ptr o.p))

/-- Low word, high word or guard byte of an accumulator (R119); the guard reads sign-extended. -/
def accPart (a : Acc) (i : Nat) : Half :=
  if i = 0 then a.extractLsb' 0 16 else if i = 1 then a.extractLsb' 16 16 else (a.extractLsb' 32 8).signExtend 16

def setAccPart (a : Acc) (i : Nat) (v : Half) : Acc :=
  let g := a.extractLsb' 32 8
  let h := a.extractLsb' 16 16
  let l := a.extractLsb' 0 16
  if i = 0 then g ++ h ++ v else if i = 1 then g ++ v ++ l else v.extractLsb' 0 8 ++ h ++ l

/-- The register a MOV number names as a source; none where the number is reserved (R119). -/
def Engine.movSrc (e : Engine) (n : Nat) : Option Half :=
  if n < 8 then some (Tab.get e.d 0 n)
  else if n < 0xC then some ((Tab.get e.p 0 (n - 8)).setWidth 16)
  else if n < 0x10 then some (Tab.get e.m 0 (n - 0xC))
  else if n < 0x13 then some (Tab.get e.lc 0 (n - 0x10))
  else if n = 0x13 then some e.fl
  else if n < 0x17 then some (accPart e.ac0 (n - 0x14))
  else if n < 0x1A then some (accPart e.ac1 (n - 0x17))
  else none

/-- Writes the register a MOV number names; none where it is a source only or reserved (R119). -/
def Engine.movDst (e : Engine) (n : Nat) (v : Half) : Option Engine :=
  if n < 8 then some (e.setD n v)
  else if n < 0xC then some (e.setPtr (n - 8) (v.setWidth 15))
  else if n < 0x10 then some (e.setMod (n - 0xC) v)
  else if n < 0x14 then none
  else if n < 0x17 then some { e with ac0 := setAccPart e.ac0 (n - 0x14) v }
  else if n < 0x1A then some { e with ac1 := setAccPart e.ac1 (n - 0x17) v }
  else none

end Sys2Proof.Machine
end

