-- ==== Sys2Proof/Machine/Flags.lean ====
section
/-!
DEFINITION. The flags of a loop engine: results with their range rule, conditions (R113 to R116).
-/
namespace Sys2Proof.Machine

open Sys2Proof

def Engine.fZ (e : Engine) : Bool := e.fl.getLsbD 0
def Engine.fN (e : Engine) : Bool := e.fl.getLsbD 1
def Engine.fV (e : Engine) : Bool := e.fl.getLsbD 2

/-- The condition codes of R116; none where the code is reserved. -/
def Engine.cond (e : Engine) (c : BitVec 4) : Option Bool :=
  match c.toNat with
  | 0 => some true
  | 1 => some e.fZ
  | 2 => some (!e.fZ)
  | 3 => some e.fN
  | 4 => some (!e.fN)
  | 5 => some (!e.fZ && !e.fN)
  | 6 => some (e.fZ || e.fN)
  | 7 => some e.fV
  | 8 => some (!e.fV)
  | _ => none

/-- FL with Z, N and V written; `sticky` are the sticky bits set on top (R115). -/
def Engine.flags (e : Engine) (z n v : Bool) (sticky : Half) : Engine :=
  { e with fl := (e.fl &&& 0xFFF8#16) ||| BitVec.ofNat 16 (b2n z + 2 * b2n n + 4 * b2n v) ||| sticky }

/-- Whether an exact result fits signed `w` bits. -/
def fits (w : Nat) (r : Int) : Bool := decide (-(2 ^ (w - 1) : Nat) ≤ r ∧ r ≤ (2 ^ (w - 1) : Nat) - 1)

/-- The range rule of R113: the nearest limit with S = 1, the low bits with S = 0. -/
def ranged (w : Nat) (sat : Bool) (r : Int) : Int := if fits w r then r else if sat then satS w r else wrapS w r

/-- The sticky flag of an accumulator (R115). -/
def accSticky : AccSel → Half
  | .ac0 => 0x100
  | .ac1 => 0x200

/-- Writes an exact result into an accumulator, flags ZNV (R113, R115). -/
def Engine.accResult (e : Engine) (sat : Bool) (a : AccSel) (r : Int) : Engine :=
  let v := ranged 40 sat r
  (e.setAcc a (BitVec.ofInt 40 v)).flags (v == 0) (decide (v < 0)) (!fits 40 r) (if fits 40 r then 0 else accSticky a)

/-- Writes an exact result into a data register, flags ZNV (R113, R115). -/
def Engine.dResult (e : Engine) (sat : Bool) (z : Fin 8) (r : Int) : Engine :=
  let v := ranged 16 sat r
  (e.setD z.val (BitVec.ofInt 16 v)).flags (v == 0) (decide (v < 0)) (!fits 16 r) (if fits 16 r then 0 else 0x400)

/-- Writes a result that always fits, flags ZN, V cleared (R115). -/
def Engine.dPlain (e : Engine) (z : Fin 8) (v : Int) : Engine :=
  (e.setD z.val (BitVec.ofInt 16 v)).flags (v == 0) (decide (v < 0)) false 0

/-- Rounding of RND and MULD: half added, then an arithmetic right shift (R114). -/
def rndShift (v : Int) (sh : Nat) : Int := if sh = 0 then v else (v + 2 ^ (sh - 1)) / 2 ^ sh

end Sys2Proof.Machine
end

