-- ==== Sys2Proof/Machine/Geom.lean ====
section
/-!
DEFINITION. Exact distances between segments and convex prisms, in µm, rounded down (R228 to R231).
-/
namespace Sys2Proof.Machine

open Sys2Proof

def V3.sub (a b : V3) : V3 := ⟨a.x - b.x, a.y - b.y, a.z - b.z⟩
def V3.dot (a b : V3) : Int := a.x * b.x + a.y * b.y + a.z * b.z
def V3.cross (a b : V3) : V3 := ⟨a.y * b.z - a.z * b.y, a.z * b.x - a.x * b.z, a.x * b.y - a.y * b.x⟩
def V3.sq (a : V3) : Int := a.dot a

/-- Square of the distance from `p` to segment `ab`, rounded down. -/
def pointSegSq (p a b : V3) : Int :=
  let u := b.sub a
  let w := p.sub a
  let c := w.dot u
  let n := u.sq
  if c ≤ 0 then w.sq else if n ≤ c then (p.sub b).sq else (w.sq * n - c * c) / n

/-- Square of the distance between segments `ab` and `cd`, rounded down: at an end of one, or between the lines where both
feet lie inside. -/
def segSegSq (a b c d : V3) : Int :=
  let u := b.sub a
  let v := d.sub c
  let w := c.sub a
  let n := u.cross v
  let nn := n.sq
  let s := (w.cross v).dot n
  let t := (w.cross u).dot n
  let ends := min (min (pointSegSq a c d) (pointSegSq b c d)) (min (pointSegSq c a b) (pointSegSq d a b))
  if 0 < nn ∧ 0 ≤ s ∧ s ≤ nn ∧ 0 ≤ t ∧ t ≤ nn then min ends (w.dot n * w.dot n / nn) else ends

/-- Distance from a square, rounded down. -/
def distOf (sq : Int) : Int := isqrtBits 40 sq.toNat 0

/-- Distance between the axes of two capsules. -/
def axisDist (a b : Cap) : Int := distOf (segSegSq a.p a.q b.p b.q)

/-- The edges of a polygon, in order. -/
def edges (vs : List (Int × Int)) : List ((Int × Int) × (Int × Int)) := vs.zip (vs.drop 1 ++ vs.take 1)

/-- How far `p` lies inside the half plane of an edge: positive to its left. -/
def edgeSide (e : (Int × Int) × (Int × Int)) (p : V3) : Int :=
  (e.2.1 - e.1.1) * (p.y - e.1.2) - (e.2.2 - e.1.2) * (p.x - e.1.1)

/-- Where segment `ab` lies in the half space whose function takes `f` at `a` and `g` at `b`: the interval `lo` to `hi` of
fractions cut by it; none where nothing is left. -/
def clip (i : Option ((Int × Int) × (Int × Int))) (f g : Int) : Option ((Int × Int) × (Int × Int)) :=
  match i with
  | none => none
  | some (lo, hi) =>
    let r := if f < 0 ∧ g < 0 then none
      else if 0 ≤ f ∧ 0 ≤ g then some (lo, hi)
      else if f < 0 then (if lo.1 * (g - f) < -f * lo.2 then some ((-f, g - f), hi) else some (lo, hi))
      else (if f * hi.2 < hi.1 * (f - g) then some (lo, (f, f - g)) else some (lo, hi))
    match r with
    | some (lo, hi) => if lo.1 * hi.2 ≤ hi.1 * lo.2 then some (lo, hi) else none
    | none => none

/-- Whether segment `ab` meets the prism. -/
def Zone.meets (zn : Zone) (a b : V3) : Bool :=
  let i := (edges zn.verts).foldl (fun i e => clip i (edgeSide e a) (edgeSide e b)) (some ((0, 1), (1, 1)))
  (clip (clip i (a.z - zn.zlo) (b.z - zn.zlo)) (zn.zhi - a.z) (zn.zhi - b.z)).isSome

/-- Square of the distance from a point to the prism, rounded down. -/
def Zone.pointSq (zn : Zone) (p : V3) : Int :=
  let dz := max 0 (max (zn.zlo - p.z) (p.z - zn.zhi))
  let flat := fun q : Int × Int => V3.mk q.1 q.2 0
  let es := edges zn.verts
  let dxy := if es.all fun e => decide (0 ≤ edgeSide e p) then 0
    else match es.map fun e => pointSegSq ⟨p.x, p.y, 0⟩ (flat e.1) (flat e.2) with
      | [] => 0
      | d :: ds => ds.foldl min d
  dxy + dz * dz

/-- Distance from a capsule's axis to the prism; 0 where they meet (R229, R230). -/
def prismDist (zn : Zone) (c : Cap) : Int :=
  if zn.meets c.p c.q then 0 else
  let up := fun (q : Int × Int) z => V3.mk q.1 q.2 z
  let rims := (edges zn.verts).map fun e =>
    min (segSegSq c.p c.q (up e.1 zn.zlo) (up e.2 zn.zlo))
      (min (segSegSq c.p c.q (up e.1 zn.zhi) (up e.2 zn.zhi)) (segSegSq c.p c.q (up e.1 zn.zlo) (up e.1 zn.zhi)))
  distOf (rims.foldl min (min (zn.pointSq c.p) (zn.pointSq c.q)))

end Sys2Proof.Machine
end

