-- ==== Sys2Proof/Machine/Crc.lean ====
section
/-!
DEFINITION. Check values over bytes: CRC-32C (R280), CRC-32 (R447).
-/
namespace Sys2Proof.Machine

open Sys2Proof

/-- One bit of the reflected CRC-32C register. -/
def crcBit (r : Nat) : Nat := if r % 2 = 1 then Nat.xor (r / 2) 0x82F63B78 else r / 2

/-- One byte into the reflected CRC-32C register. -/
def crcByte (r : Nat) (b : Byte) : Nat := crcBit (crcBit (crcBit (crcBit (crcBit (crcBit (crcBit (crcBit (Nat.xor r b.toNat))))))))

/-- CRC-32C of `bs` from initial value `init`: polynomial 0x1EDC6F41 reflected, final XOR 0xFFFF_FFFF (R280). -/
def crc32cFrom (init : Nat) (bs : List Byte) : Nat := Nat.xor (bs.foldl crcByte init) 0xFFFFFFFF

/-- CRC-32C with initial value 0xFFFF_FFFF. -/
def crc32c (bs : List Byte) : Nat := crc32cFrom 0xFFFFFFFF bs

/-- CRC-32 in the IEEE 802.3 form: polynomial 0x04C11DB7 reflected, initial value and final XOR 0xFFFF_FFFF (R447). -/
def crc32 (bs : List Byte) : Nat :=
  let bit := fun r : Nat => if r % 2 = 1 then Nat.xor (r / 2) 0xEDB88320 else r / 2
  Nat.xor (bs.foldl (fun r b => bit (bit (bit (bit (bit (bit (bit (bit (Nat.xor r b.toNat))))))))) 0xFFFFFFFF) 0xFFFFFFFF

end Sys2Proof.Machine
end

