-- ==== Sys2Proof/Machine/FbOps.lean ====
section
/-!
DEFINITION. Where joints take their positions from: encoder ports, remote records, their own command (R18, R170 to R184).
-/
namespace Sys2Proof.Machine

open Sys2Proof

def ChanState.encU (ch : ChanState) (p : Nat) : Enc := Tab.get ch.enc {} p
def ChanState.setEnc (ch : ChanState) (p : Nat) (e : Enc) : ChanState := { ch with enc := Tab.set ch.enc {} p e }
def ChanState.remU (ch : ChanState) (j : Nat) : Rem := Tab.get ch.rem {} j
def ChanState.setRem (ch : ChanState) (j : Nat) (e : Rem) : ChanState := { ch with rem := Tab.set ch.rem {} j e }

/-- The joints whose control feedback is local port `p` (R18). -/
def ChanState.portJoints (ch : ChanState) (p : Nat) : List Nat :=
  (List.range 64).filter fun j => ch.bound j && ch.get (Reg.JNT_FB_SRC j) == 0 && ch.get (Reg.JNT_FB_PORT j) == p

/-- The arms of a list of joints, each once. -/
def ChanState.armsOf (ch : ChanState) (js : List Nat) : List Nat :=
  (List.range 8).filter fun k => js.any fun j => ch.armOf j == k

/-- A feedback fault of a local port: F2 for the arms it serves, F1 for the channel where it serves no joint (R190). -/
def ChanState.portFault (ch : ChanState) (p code : Nat) : ChanState :=
  match ch.portJoints p with
  | [] => ch.fault code 1 none p 0
  | js => ch.faultArms code (ch.armsOf js) p

/-- An F1 of a local port: for the arms it serves, else for the channel. -/
def ChanState.portWarn (ch : ChanState) (p code : Nat) : ChanState :=
  match ch.portJoints p with
  | [] => ch.fault code 1 none p 0
  | js => (ch.armsOf js).foldl (fun ch k => ch.fault code 1 (some k) p 0) ch

/-- Whether joint `j`'s remote count is valid (R184). -/
def ChanState.remValid (ch : ChanState) (j : Nat) : Bool := (ch.remU j).acq && decide ((ch.remU j).scons < 2)

/-- The position of joint `j` as latched at 0 ns, and whether it is valid (R43, R170, R184). -/
def ChanState.feedback (ch : ChanState) (j : Nat) : Int × Bool :=
  let p := ch.get (Reg.JNT_FB_PORT j)
  match ch.get (Reg.JNT_FB_SRC j) with
  | 0 => (ch.geti64 (Reg.ENC_LAT p), ch.bit (Reg.ENC_STS_VALID p))
  | 1 => ((ch.remU j).pos + (ch.remU j).diff, ch.remValid j)
  | 2 => (ch.geti64 (Reg.STP_EMIT (ch.get (Reg.JNT_BIND_UNIT j))) * 65536, true)
  | _ => (0, false)

/-- The position the electrical angle of R99 is taken from: the valley of a LOCAL3 unit with a phase offset lies later than
the latch (R170), the current task of an EDGE joint uses its record's own count (R184). -/
def ChanState.anglePos (ch : ChanState) (j : Nat) : Int :=
  let x := ch.joint j
  let p := ch.get (Reg.JNT_FB_PORT j)
  if ch.get (Reg.JNT_BIND_KIND j) = 1 ∧ ch.get (Reg.JNT_FB_SRC j) = 0 then
    let d := ch.geti64 (Reg.ENC_LAT p) - (ch.encU p).lat1
    x.act + rdiv (d * ch.get (Reg.PWM_PHOFS_OFS (ch.get (Reg.JNT_BIND_UNIT j)))) 4000
  else if ch.get (Reg.JNT_BIND_KIND j) = 3 ∧ ch.get (Reg.JNT_FB_SRC j) = 1 then (ch.remU j).pos
  else x.act

/-! ### Remote feedback (R183, R184) -/

/-- A failed remote sample: substituted once, then invalid; before the first valid record nothing happens (R180, R184).
`own` is the value of a record with FBOK = 1 and EXTR = 1. -/
def ChanState.remFail (ch : ChanState) (j : Nat) (own : Option (Int × Int)) : ChanState :=
  let r := ch.remU j
  if !r.acq then ch else
  let ch := ch.setRem j (if r.scons = 0 then
      match own with
      | some (raw, d) => { r with raw, diff := d, pos := r.pos + d, scons := 1 }
      | none => { r with raw := r.raw + r.diff / (if ch.get (Reg.JNT_BIND_KIND j) = 3 then 65536 else 1)
                         pos := r.pos + r.diff, scons := 1 }
    else { r with scons := 2, diff := 0 })
  if r.scons = 0 then ch.fault 0x070A 1 (some (ch.armOf j)) j 0
  else if r.scons = 1 then
    if ch.get (Reg.JNT_FB_SRC j) = 1 then ch.fault 0x0702 2 (some (ch.armOf j)) j 0
    else ch.fault 0x0702 1 (some (ch.armOf j)) j 0
  else ch

/-- The feedback of a valid record: `raw` is FBCNT of a brick or APOS of a drive, `unit` its weight in 2^-16 count, `wrap` the
width it is unwrapped over (R183). -/
def ChanState.remSample (ch : ChanState) (j : Nat) (raw : Int) (unit wrap fbaux : Nat) : ChanState :=
  let r := ch.remU j
  let ch := ch.setRem j { r with lastK := some ch.cycle }
  let r := ch.remU j
  let d := wrapS wrap (raw - r.raw)
  if tbit fbaux 0 && !tbit fbaux 1 then
    if !r.acq then ch.setRem j { r with acq := true, raw, pos := raw * unit, diff := 0, scons := 0 }
    else ch.setRem j { r with raw, pos := r.pos + d * unit, diff := d * unit, scons := 0 }
  else ch.remFail j (if tbit fbaux 0 then some (raw, d * unit) else none)

end Sys2Proof.Machine
end

