-- ==== Sys2Proof/Machine/Cascade.lean ====
section
/-!
DEFINITION. The Standard Cascade: the servo task of R98 and the current task of R99, with the saturations of R97, the
anti-windup of R100 and the torque-off rule of R103. Both read the frozen inputs of the task window (R83).
-/
namespace Sys2Proof.Machine

open Sys2Proof

/-- A window word as a signed value. -/
def winS (w : Tab Half) (a : Nat) : Int := (Tab.get w 0 a).toInt
/-- A window word as a number. -/
def winU (w : Tab Half) (a : Nat) : Nat := (Tab.get w 0 a).toNat
/-- `n` window words from `a`, low word first, signed. -/
def winWide (w : Tab Half) (a n : Nat) : Int :=
  wrapS (16 * n) ((List.range n).foldl (fun (m : Nat) i => m + winU w (a + i) * 2 ^ (16 * i)) 0 : Nat)

/-- A value saturated to `w` bits, with `flag` set where that changed it (R97, R100). -/
def satF (w flag : Nat) (fl : Nat) (v : Int) : Int × Nat :=
  (satS w v, if satS w v = v then fl else fl ||| flag)

/-- One biquad of R98: b0, b1, b2, a1, a2 in Q14, over x1, x2, y1, y2. -/
def biquad (b0 b1 b2 a1 a2 : Int) (st : List Int) (x : Int) : Int :=
  rdiv (b0 * x + b1 * st.getD 0 0 + b2 * st.getD 1 0 - a1 * st.getD 2 0 - a2 * st.getD 3 0) (2 ^ 14)

/-- A notch: its output saturated, its states moved on (R98). -/
def notch (b0 b1 b2 a1 a2 : Int) (st : List Int) (fl : Nat) (x : Int) : Int × List Int × Nat :=
  let (y, fl) := satF 16 0x08 fl (biquad b0 b1 b2 a1 a2 st x)
  (y, [x, st.getD 0 0, y, st.getD 2 0], fl)

/-- The states of the cascade at zero (R103). -/
def Joint.zeroLoop (x : Joint) : Joint := { x with vint := 0, ylp := 0, n0 := [], n1 := [], dint := 0, qint := 0 }

/-- The servo task of R98: the joint with its states moved on, the set-points OIQ and OID, vref, and the flags of
LPE_SAT; `lim` tells whether IMAX limited the set-point, `sum` what it limited. -/
structure ServoOut where
  x : Joint
  oiq : Int
  oid : Int
  vref : Int
  flags : Nat
  lim : Bool
  sum : Int
deriving DecidableEq, Repr

def servoTask (ch : ChanState) (j : Nat) (w : Tab Half) (x : Joint) : ServoOut :=
  let ep := satS 64 (winWide w 0x7C10 4 - winWide w 0x7C14 4)
  let cvel := winWide w 0x7C18 2
  let cacc := winWide w 0x7C1A 2
  let avel := winWide w 0x7C1C 2
  let (pt, fl) := satF 32 0x01 0 (rdiv (ep * ch.get (Reg.JNT_KP j)) (2 ^ 24))
  let (vref, fl) := satF 32 0x01 fl (pt + rdiv (cvel * ch.get (Reg.JNT_KVFF_KVFF j)) (2 ^ 14))
  let (ev, fl) := satF 32 0x01 fl (vref - avel)
  let (du, fl) := satF 16 0x02 fl (rdiv (ev * ch.get (Reg.JNT_KVI j)) (2 ^ 32))
  let (u, fl) := satF 16 0x02 fl (rdiv (ev * ch.get (Reg.JNT_KVP j)) (2 ^ 32) + x.vint)
  let alpha := ch.get (Reg.JNT_VLPF_ALPHA j)
  let (y, fly) := satF 16 0x08 fl (x.ylp + rdiv (alpha * (u - x.ylp)) (2 ^ 15))
  let (u, ylp, fl) := if alpha = 0 then (u, x.ylp, fl) else (y, y, fly)
  let r0 := notch (ch.geti (Reg.JNT_N0A_B0 j)) (ch.geti (Reg.JNT_N0A_B1 j)) (ch.geti (Reg.JNT_N0B_B2 j))
    (ch.geti (Reg.JNT_N0B_A1 j)) (ch.geti (Reg.JNT_N0C_A2 j)) x.n0 fl u
  let (u, n0, fl) := if ch.bit (Reg.JNT_CFG_N0EN j) then r0 else (u, x.n0, fl)
  let r1 := notch (ch.geti (Reg.JNT_N1A_B0 j)) (ch.geti (Reg.JNT_N1A_B1 j)) (ch.geti (Reg.JNT_N1B_B2 j))
    (ch.geti (Reg.JNT_N1B_A1 j)) (ch.geti (Reg.JNT_N1C_A2 j)) x.n1 fl u
  let (u, n1, fl) := if ch.bit (Reg.JNT_CFG_N1EN j) then r1 else (u, x.n1, fl)
  let aff := ch.get (Reg.JNT_CFG_AFF j)
  let iff : Int := if aff = 1 then rdiv (cacc * ch.get (Reg.JNT_KAFF j)) (2 ^ 32) else if aff = 2 then winS w 0x7C1E else 0
  let imax : Int := ch.get (Reg.JNT_ILIM_IMAX j)
  let oiq := clampI (u + iff) (-imax) imax
  let lim := oiq != u + iff
  let fl := if lim then fl ||| 0x04 else fl
  let (oiq, fl) := satF 16 0x04 fl oiq
  let hold := (oiq == imax && decide (0 < du)) || (oiq == -imax && decide (du < 0))
  let (vi, flv) := satF 16 0x02 fl (x.vint + du)
  let (vint, fl) := if hold then (x.vint, fl ||| 0x02) else (vi, flv)
  { x := { x with vint, ylp, n0, n1 }, oiq, oid := ch.geti (Reg.JNT_ILIM_IDREF j), vref, flags := fl, lim, sum := u + iff }

/-- What the current task of R99 computes: duties, the values JNT_IDQ, JNT_VDQ and JNT_ELEC show, and the flags. -/
structure CurrentOut where
  x : Joint
  da : Nat
  db : Nat
  dc : Nat
  iD : Int
  iQ : Int
  vD : Int
  vQ : Int
  flags : Nat
  lim : Bool
  vdcLow : Bool
deriving DecidableEq, Repr

/-- A duty of R99, clamped to 0 to 32,768. -/
def dutyOf (px vo vdcx : Int) (fl : Nat) : Nat × Nat :=
  let d := 16384 + rdiv ((px + vo) * 32768) vdcx.toNat
  let c := clampI d 0 32768
  (c.toNat, if c = d then fl else fl ||| 0x80)

/-- An integrator of R99 under R100: held where its output is at a limit and the update pushes further. -/
def integrate (old inc out lim : Int) (flag fl : Nat) : Int × Nat :=
  if (lim ≤ out ∧ 0 < inc) ∨ (out ≤ -lim ∧ inc < 0) then (old, fl ||| flag) else satF 16 flag fl (old + inc)

def currentTask (ch : ChanState) (j : Nat) (w : Tab Half) (x : Joint) : CurrentOut :=
  let ia := winS w 0x7C00
  let ib := winS w 0x7C01
  let vdc := winS w 0x7C03
  let the := winU w 0x7C04
  let we := winS w 0x7C05
  let c := cosTurn the
  let s := sinTurn the
  let (ibe, fl) := satF 16 0x10 0 (rdiv ((ia + 2 * ib) * 18919) (2 ^ 15))
  let (iD, fl) := satF 16 0x10 fl (rdiv (ia * c + ibe * s) (2 ^ 15))
  let (iQ, fl) := satF 16 0x20 fl (rdiv (ibe * c - ia * s) (2 ^ 15))
  let (ed, fl) := satF 16 0x10 fl (winS w 0x7C06 - iD)
  let (eq, fl) := satF 16 0x20 fl (winS w 0x7C07 - iQ)
  let dec := ch.bit (Reg.JNT_CFG_DECPL j)
  let bemf := ch.bit (Reg.JNT_CFG_BEMF j)
  let td : Int := if dec then rdiv (we * ch.get (Reg.JNT_LDQ_LQ j) * iQ) (2 ^ 24) else 0
  let tq : Int := if dec then rdiv (we * ch.get (Reg.JNT_LDQ_LD j) * iD) (2 ^ 24) else 0
  let tb : Int := if bemf then rdiv (we * ch.get (Reg.JNT_PSI_PSI j)) (2 ^ 8) else 0
  let (vd, fl) := satF 16 0x40 fl (rdiv (ed * ch.get (Reg.JNT_KIP_KDP j)) (2 ^ 12) + x.dint - td)
  let (vq, fl) := satF 16 0x40 fl (rdiv (eq * ch.get (Reg.JNT_KIP_KQP j)) (2 ^ 12) + x.qint + tq + tb)
  let (vmax, fl) := satF 16 0x40 fl (rdiv (rdiv (vdc * ch.get (Reg.JNT_VLIM_VMAXF j)) (2 ^ 15) * 18919) (2 ^ 15))
  let vdl := clampI vd (-vmax) vmax
  let room : Int := isqrt (vmax * vmax - vdl * vdl).toNat
  let vql := clampI vq (-room) room
  let lim := vdl != vd || vql != vq
  let fl := if lim then fl ||| 0x40 else fl
  let (dint, fl) := integrate x.dint (rdiv (ed * ch.get (Reg.JNT_KII_KDI j)) (2 ^ 20)) vdl vmax 0x10 fl
  let (qint, fl) := integrate x.qint (rdiv (eq * ch.get (Reg.JNT_KII_KQI j)) (2 ^ 20)) vql room 0x20 fl
  let (va, fl) := satF 16 0x40 fl (rdiv (vdl * c - vql * s) (2 ^ 15))
  let (vb2, fl) := satF 16 0x40 fl (rdiv (rdiv (vdl * s + vql * c) (2 ^ 15) * 28378) (2 ^ 14))
  let (pb, fl) := satF 16 0x40 fl (rdiv (vb2 - va) 2)
  let (pc, fl) := satF 16 0x40 fl (rdiv (-va - vb2) 2)
  let (vo, fl) := satF 16 0x40 fl ((-(max (max va pb) pc + min (min va pb) pc)) / 2)
  let vmin : Int := ch.get (Reg.JNT_VLIM_VDCMIN j)
  let vdcx := max vdc vmin
  let (da, fl) := dutyOf va vo vdcx fl
  let (db, fl) := dutyOf pb vo vdcx fl
  let (dc, fl) := dutyOf pc vo vdcx fl
  { x := { x with dint, qint }, da, db, dc, iD, iQ, vD := vdl, vQ := vql, flags := fl, lim, vdcLow := decide (vdc < vmin) }

end Sys2Proof.Machine
end

