-- ==== Sys2Proof/Machine/Power.lean ====
section
/-!
DEFINITION. The power outputs: local PWM units, current samples, edge and drive records, stepper choppers (R130 to R168).
-/
namespace Sys2Proof.Machine

open Sys2Proof

/-! ### Shadow, reload and edges (R132 to R139) -/

/-- Half a carrier period in ticks (R132). -/
def ChanState.pwmH (ch : ChanState) (u : Nat) : Nat := ch.pwmHalf u / 4

/-- A duty as ticks, ties upwards (R133). -/
def dutyTicks (d h : Nat) : Nat := (d * h + 16384) / 32768

/-- The shadow duties of unit `u`. -/
def ChanState.shadow (ch : ChanState) (u : Nat) : List Nat :=
  [ch.get (Reg.PWM_DUTYA_DUTY u), ch.get (Reg.PWM_DUTYB_DUTY u), ch.get (Reg.PWM_DUTYC_DUTY u)]

/-- A committing current task writes the shadow of its LOCAL3 joint's unit (R82, R137); a reload in the same CLK_SYS cycle
still takes the set before it. -/
def ChanState.commitShadow (ch : ChanState) (j : Nat) : ChanState :=
  if ch.get (Reg.JNT_BIND_KIND j) = 1 ∧ !ch.bit (Reg.PWM_CFG_MODE (ch.get (Reg.JNT_BIND_UNIT j))) then
    let u := ch.get (Reg.JNT_BIND_UNIT j)
    let p := ch.pwmU u
    let p := if p.comCt = some ch.ct then p else { p with comCt := some ch.ct, old := ch.shadow u }
    let x := ch.joint j
    let d := fun a => min (Tab.get x.out 0 a).toNat 0x8000
    (((ch.setPwm u p).put (Reg.PWM_DUTYA_DUTY u) (d 0x7C40)).put (Reg.PWM_DUTYB_DUTY u) (d 0x7C41)).put
      (Reg.PWM_DUTYC_DUTY u) (d 0x7C42)
  else ch

/-- The gate bit of a phase's side: phase U at bits 5 and 4, V at 3 and 2, W at 1 and 0 (PWM_STS). -/
def gateBit (ph : Nat) (high : Bool) : Nat := 4 - 2 * ph + b2n high

/-- Turns on the gates of unit `u` whose dead time has ended before `t` (R134). -/
def ChanState.pwmSettle (ch : ChanState) (u t : Nat) : ChanState :=
  forUpto 3 ch fun i ch =>
    let p := ch.pwmU u
    let x := Tab.get p.ph {} i
    match x.due with
    | some d =>
      if d < t then (ch.setPwm u { p with ph := Tab.set p.ph {} i { x with due := none } }).setBit (Reg.PWM_STS_GATES u)
        (gateBit i x.hi) true
      else ch
    | none => ch

/-- Commands phase `i` of unit `u` to a side at the present instant: the other side turns off at once, this one after the
dead time; with the unit off, or before it resumes, only the level is kept (R134, R140). -/
def ChanState.pwmCommand (ch : ChanState) (u i : Nat) (high : Bool) : ChanState :=
  let ch := ch.pwmSettle u ch.now
  let p := ch.pwmU u
  let x := Tab.get p.ph {} i
  match p.resume with
  | none => ch.setPwm u { p with ph := Tab.set p.ph {} i { x with hi := high, due := none } }
  | some r =>
    let due := if ch.now < r then (if high then none else some (r + ch.pwmDead u)) else some (ch.now + ch.pwmDead u)
    let ch := (ch.setPwm u { p with ph := Tab.set p.ph {} i { x with hi := high, due } }).setBit (Reg.PWM_STS_GATES u)
      (gateBit i (!high)) false
    ch.pwmSettle u (ch.now + 1)

/-- The edge offsets of a phase (R135). -/
def ChanState.edgeOfs (ch : ChanState) (u i : Nat) : Int × Int :=
  match i with
  | 0 => (ch.geti (Reg.PWM_EOFSA_ON u), ch.geti (Reg.PWM_EOFSA_OFF u))
  | 1 => (ch.geti (Reg.PWM_EOFSB_ON u), ch.geti (Reg.PWM_EOFSB_OFF u))
  | _ => (ch.geti (Reg.PWM_EOFSC_ON u), ch.geti (Reg.PWM_EOFSC_OFF u))

/-- On-edge and off-edge of a phase in ticks from the valley, by the active duties (R133, R135). -/
def ChanState.phaseEdges (ch : ChanState) (u i : Nat) : Nat × Nat :=
  let h := ch.pwmH u
  let c := dutyTicks ((ch.pwmU u).act.getD i 0) h
  if ch.bit (Reg.PWM_CFG_EXP u) then
    let o := ch.edgeOfs u i
    ((clampI ((h : Int) - c + o.1) 0 (2 * h)).toNat, (clampI ((h : Int) + c + o.2) 0 (2 * h)).toNat)
  else (h - c, h + c)

/-- The last valley of unit `u` at or before `t`. -/
def ChanState.valleyAt (ch : ChanState) (u t : Nat) : Nat :=
  t - (t + 2 * ch.pwmHalf u - ch.pwmPhase u) % (2 * ch.pwmHalf u)

/-- The next commanded edge of a phase: time moves there and the gates switch. Each period's on-edge is decided once; with
expert offsets an on-edge not before its off-edge is left out (R133 to R135). -/
def ChanState.pwmEdge (ch : ChanState) (u i : Nat) (on : Bool) : ChanState :=
  let p := ch.pwmU u
  let x := Tab.get p.ph {} i
  let v := ch.valleyAt u ch.now
  let e := ch.phaseEdges u i
  let ticks := if on then e.1 else e.2
  let v := if v + 4 * ticks < ch.now ∨ (on ∧ x.onV = some v) then v + 2 * ch.pwmHalf u else v
  let ch := ch.advanceTo (v + 4 * ticks)
  if on then
    let ch := ch.setPwm u { p with ph := Tab.set p.ph {} i { x with onV := some v } }
    if ch.bit (Reg.PWM_CFG_EXP u) ∧ e.2 ≤ e.1 then ch else ch.pwmCommand u i true
  else if x.hi then ch.pwmCommand u i false else ch

/-- Off-edges that the duties now in force put before this instant turn the high side off here (R133). -/
def ChanState.passedOff (ch : ChanState) (u : Nat) : ChanState :=
  forUpto 3 ch fun i ch =>
    if (Tab.get (ch.pwmU u).ph {} i).hi && decide (ch.valleyAt u ch.now + 4 * (ch.phaseEdges u i).2 < ch.now) then
      ch.pwmCommand u i false
    else ch

/-- The count h of a half-period boundary at `t`, from the unit's first valley of the matrix cycle (R136). -/
def ChanState.halfCount (ch : ChanState) (u t : Nat) : Nat :=
  (t + 256000 - ch.pwmPhase u) % 256000 / ch.pwmHalf u

/-- Whether a boundary is a reload: (h - 1) mod N = 0 (R136). -/
def ChanState.isReload (ch : ChanState) (u t : Nat) : Bool :=
  (ch.halfCount u t + ch.get (Reg.PWM_CFG_N u)) % (ch.get (Reg.PWM_CFG_N u) + 1) == 0

/-- The first reload of unit `u` at or after `t`, searched over `n` boundaries. -/
def ChanState.reloadFrom (ch : ChanState) (u : Nat) : Nat → Nat → Nat
  | 0, t => t
  | n + 1, t =>
    let b := nextAt t (ch.pwmHalf u) (ch.pwmPhase u)
    if ch.isReload u b then b else ch.reloadFrom u n (b + 1)

/-- Ends the LOADALL mark of a unit (R138). -/
def ChanState.loadDone (ch : ChanState) (u : Nat) : ChanState :=
  (ch.put (Reg.PWM_STS_PEND u) 0).setBit Reg.PWM_LDSTS_PEND u false

/-- Puts duties in force at this instant. -/
def ChanState.takeDuties (ch : ChanState) (u : Nat) (d : List Nat) : ChanState :=
  (ch.setPwm u { ch.pwmU u with act := d }).passedOff u

/-- The next reload of unit `u`, or the common valley at which its pending period change is due: time moves there and the
shadow set becomes the active set (R136 to R139). -/
def ChanState.pwmReload (ch : ChanState) (u : Nat) : ChanState :=
  let p := ch.pwmU u
  let from_ := match p.lastB with
    | some b => max ch.now (b + 1)
    | none => ch.now
  let b := ch.reloadFrom u 32 from_
  let open_ := ch.bit (Reg.PWM_CFG_MODE u)
  let newHalf := 8000 * 2 ^ ch.get (Reg.PWM_PERSH_PER u)
  let change := open_ && ch.bit (Reg.PWM_STS_PEND u) && newHalf != ch.pwmHalf u
  let long := 2 * max newHalf (ch.pwmHalf u)
  let common := nextAt from_ long (4 * ch.get (Reg.PWM_PHOFS_OFS u))
  let t := if change ∧ p.perDue then min b common else b
  let ch := ch.advanceTo t
  let ch := ch.setPwm u { ch.pwmU u with lastB := some t }
  if !open_ then ch.takeDuties u (if p.comCt = some ch.ct then p.old else ch.shadow u)
  else if !ch.bit (Reg.PWM_STS_PEND u) then ch
  else if !change then
    if p.ldCt = some ch.ct then ch else (ch.takeDuties u (ch.shadow u)).loadDone u
  else if t = common ∧ (p.perDue ∨ p.ldCt ≠ some ch.ct) then
    let ch := (ch.setPwm u { ch.pwmU u with perDue := false }).put (Reg.PWM_STS_PERA u) (ch.get (Reg.PWM_PERSH_PER u))
    (ch.takeDuties u (ch.shadow u)).loadDone u
  else if p.ldCt = some ch.ct then ch
  else ch.setPwm u { ch.pwmU u with perDue := true }

/-- A write of PWM_LOADALL: open-mode units are marked pending (R138). -/
def ChanState.loadall (ch : ChanState) (units : Nat) : ChanState :=
  forUpto 16 ch fun u ch =>
    if tbit units u && ch.bit (Reg.PWM_CFG_MODE u) && !ch.bit (Reg.PWM_STS_PEND u) then
      ((ch.setPwm u { ch.pwmU u with ldCt := some ch.ct }).put (Reg.PWM_STS_PEND u) 1).setBit Reg.PWM_LDSTS_PEND u true
    else ch

/-- A host write of a shadow register: kept only in open mode and while no transfer is pending; a duty above 0x8000 is stored
as 0x8000, a period of 3 is discarded (R138, R168). -/
def ChanState.shadowWrite (ch : ChanState) (u : Nat) (f : RF) (v : Nat) : ChanState :=
  if !ch.bit (Reg.PWM_CFG_MODE u) ∨ ch.bit (Reg.PWM_STS_PEND u) then ch else ch.put f (min (v % 65536) 0x8000)

def ChanState.pershWrite (ch : ChanState) (u v : Nat) : ChanState :=
  if !ch.bit (Reg.PWM_CFG_MODE u) ∨ ch.bit (Reg.PWM_STS_PEND u) ∨ v % 4 = 3 then ch else ch.put (Reg.PWM_PERSH_PER u) v

/-! ### Enable and trip (R140 to R143) -/

/-- A write of PWM_CTL.EN; disabling a loop-mode unit whose joint has torque on is F2 0x060C (R141). -/
def ChanState.pwmEnable (ch : ChanState) (u v : Nat) : ChanState :=
  let ton := match ch.unitJoint 1 u with
    | some j => if ch.bit (Reg.JNT_STS_TOFF j) then none else some j
    | none => none
  let ch := (ch.put (Reg.PWM_CTL_EN u) v).unitReview u
  match ton with
  | some j => if v % 2 = 0 ∧ !ch.bit (Reg.PWM_CFG_MODE u) then ch.fault 0x060C 2 (some (ch.armOf j)) u 0 else ch
  | none => ch

/-- Whether a turn-on waits for the end of its dead time now (R142). -/
def ChanState.inDeadTime (ch : ChanState) (u : Nat) : Bool :=
  (List.range 3).any fun i => match (Tab.get (ch.pwmU u).ph {} i).due with
    | some d => decide (ch.now < d) && decide (d ≤ ch.now + ch.pwmDead u)
    | none => false

/-- The filtered trip input asserts (R142). -/
def ChanState.trip (ch : ChanState) (u : Nat) : ChanState :=
  if ch.bit (Reg.PWM_TRIPSTS_TRIPIN u) then ch else
  let ch := ch.put (Reg.PWM_TRIPSTS_TRIPIN u) 1
  if !ch.bit (Reg.PWM_CFG_TRPEN u) then ch else
  let ch := if ch.inDeadTime u then ch.put (Reg.PWM_TRIPSTS_DTCAN u) 1 else ch
  let ch := ((ch.put (Reg.PWM_TRIPSTS_TRIP u) 1).incSat (Reg.PWM_TRIPSTS_CNT u)).gatesOff u
  match (if ch.bit (Reg.PWM_CFG_MODE u) then none else ch.unitJoint 1 u) with
  | some j => ch.fault 0x0601 2 (some (ch.armOf j)) u 0
  | none => ch.fault 0x0602 1 none u 0

/-- PWM_TRIPCLR.CLR: clears the trip, or is refused while the filtered input is asserted (R143). -/
def ChanState.tripClear (ch : ChanState) (u : Nat) : ChanState :=
  if ch.bit (Reg.PWM_TRIPSTS_TRIPIN u) then ch.put (Reg.PWM_TRIPSTS_CLRREF u) 1
  else (ch.put (Reg.PWM_TRIPSTS_TRIP u) 0).unitReview u

/-! ### Current sensing (R144, R145) -/

/-- The calibration of R145. -/
def calibrate (x ofs : Int) (gain : Nat) : Int := satS 16 (rdiv ((x - ofs) * gain) (2 ^ 13))

/-- Marks a data input valid or not. -/
def ChanState.sdMark (ch : ChanState) (u i : Nat) (ok : Bool) : ChanState :=
  let v := insertBits (ch.pwmU u).sdv i 1 (b2n ok)
  (ch.setPwm u { ch.pwmU u with sdv := v }).putb (Reg.PWM_STS_SDVAL u) (v == 7)

/-- The instant a unit's sample is ready: 2.4 µs after its valley at ratio 32, 4.8 µs at ratio 64 (R144). -/
def ChanState.sdReady (ch : ChanState) (u : Nat) : Nat :=
  nextAt ch.now (2 * ch.pwmHalf u) (ch.pwmPhase u + 2400 * (1 + ch.get (Reg.PWM_CFG_SDOSR u)))

/-- A sample of a phase current: kept, calibrated, where the unit's inputs are in use (R144, R145). -/
def ChanState.sdPhase (ch : ChanState) (u i : Nat) (x : Int) : ChanState :=
  if !ch.bit (Reg.PWM_CFG_SDEN u) then ch else
  let ch := (ch.advanceTo (ch.sdReady u)).sdMark u i true
  match i with
  | 0 => ch.puti (Reg.PWM_ISMP0_IA u) (calibrate x (ch.geti (Reg.PWM_SDCALA_OFS u)) (ch.get (Reg.PWM_SDCALA_GAIN u)))
  | 1 => ch.puti (Reg.PWM_ISMP0_IB u) (calibrate x (ch.geti (Reg.PWM_SDCALB_OFS u)) (ch.get (Reg.PWM_SDCALB_GAIN u)))
  | _ => ch.puti (Reg.PWM_ISMP1_IC u) (calibrate x (ch.geti (Reg.PWM_SDCALC_OFS u)) (ch.get (Reg.PWM_SDCALC_GAIN u)))

/-- A sample of a group's DC-link voltage (R144, R145). -/
def ChanState.sdVdc (ch : ChanState) (g : Nat) (x : Int) : ChanState :=
  let ch := ch.advanceTo (ch.sdReady (4 * g))
  (ch.puti (Reg.PWM_VDC_VDC g) (calibrate x (ch.geti (Reg.PWM_VDCCAL_OFS g)) (ch.get (Reg.PWM_VDCCAL_GAIN g)))).put
    (Reg.PWM_VDC_VAL g) 1

def ChanState.sdSample (ch : ChanState) (src : SdInput) (x : Int) : ChanState :=
  match src with
  | .phase u i => ch.sdPhase u.val i.val x
  | .vdc g => ch.sdVdc g.val x

def ChanState.sdInvalid (ch : ChanState) (src : SdInput) : ChanState :=
  match src with
  | .phase u i => ch.sdMark u.val i.val false
  | .vdc g => ch.put (Reg.PWM_VDC_VAL g.val) 0

/-- What the task window of joint `j` shows of its samples: currents, DC-link voltage, and whether they are present
(R83, R94, R145, R150). -/
def ChanState.currentSample (ch : ChanState) (j : Nat) : Int × Int × Int × Int × Bool :=
  let u := ch.get (Reg.JNT_BIND_UNIT j)
  if ch.get (Reg.JNT_BIND_KIND j) = 1 then
    (ch.geti (Reg.PWM_ISMP0_IA u), ch.geti (Reg.PWM_ISMP0_IB u), ch.geti (Reg.PWM_ISMP1_IC u),
      ch.geti (Reg.PWM_VDC_VDC (u / 4)),
      ch.bit (Reg.PWM_CFG_SDEN u) && ch.bit (Reg.PWM_STS_SDVAL u) && ch.bit (Reg.PWM_VDC_VAL (u / 4)))
  else
    let b := Tab.get ch.bricks {} j
    (b.smp.getD 0 0, b.smp.getD 1 0, b.smp.getD 2 0, b.smp.getD 3 0, decide (b.smpK = some ch.cycle) && b.smpOk)

/-! ### Edge bricks and drives (R146 to R154) -/

def ChanState.brick (ch : ChanState) (j : Nat) : Brick := Tab.get ch.bricks {} j
def ChanState.setBrick (ch : ChanState) (j : Nat) (b : Brick) : ChanState := { ch with bricks := Tab.set ch.bricks {} j b }

/-- The edges of a set of duties: H = 2,000 (R147). -/
def edgesOf (d : List Nat) : List Nat := d.flatMap fun x => [2000 - dutyTicks x 2000, 2000 + dutyTicks x 2000]

/-- A committing task of a remote joint leaves the values its next record sends (R147, R151). -/
def ChanState.commitBrick (ch : ChanState) (j kind : Nat) (tfirst : Bool) : ChanState :=
  let b := ch.brick j
  let x := ch.joint j
  if ch.get (Reg.JNT_BIND_KIND j) = 3 ∧ kind = 1 then
    ch.setBrick j { b with comK := ch.cycle, fresh := true, rearm := b.rearm || tfirst
                           edges := edgesOf ([0x7C40, 0x7C41, 0x7C42].map fun a => min (Tab.get x.out 0 a).toNat 0x8000) }
  else if ch.get (Reg.JNT_BIND_KIND j) = 4 ∧ kind = 2 then
    ch.setBrick j { b with dFresh := true, rearm := b.rearm || tfirst }
  else ch

/-- Whether joint `j`'s power stage is told to switch: torque on and its gates not disabled. -/
def ChanState.stageOn (ch : ChanState) (j : Nat) : Bool := !ch.bit (Reg.JNT_STS_TOFF j) && !ch.bit (Reg.JNT_STS_GOFF j)

/-- The brick joint slot or drive axis of a remote joint (R16). -/
def ChanState.slotOf (ch : ChanState) (j : Nat) : Nat := ch.get (Reg.JNT_BIND_SLOT j)

/-- Builds the edge record of joint `j`: 16 bytes, and the joint's state after sending it (R146, R147). -/
def ChanState.edgeRecord (ch : ChanState) (j : Nat) : List Byte × ChanState :=
  let b := ch.brick j
  let on := ch.stageOn j
  let rpt := on && !b.fresh
  let esid := if rpt then b.esid else b.comK % 65536
  let flags := (if on then 7 else 0) + 8 * b2n (tbit (ch.get64 Reg.BRK_RREL) j) + 16 * b2n rpt + 32 * b2n b.rearm + 64 * b2n b.tclr
  let edges := if on then (List.range 6).map fun i => b.edges.getD i 0 else [0, 0, 0, 0, 0, 0]
  let body := leBytes 1 (ch.slotOf j) ++ leBytes 1 flags ++ leBytes 2 esid ++ edges.flatMap (leBytes 2)
  (body, ch.setBrick j { b with fresh := false, tclr := false, esid, sentE := (ch.cycle, esid) :: b.sentE.take 3 })

/-- Builds the drive record of joint `j`: 24 bytes (R151). -/
def ChanState.driveRecord (ch : ChanState) (j : Nat) : List Byte × ChanState :=
  let b := ch.brick j
  let x := ch.joint j
  let on := ch.stageOn j
  let rpt := !b.dFresh && !b.dRec.isEmpty
  let seq := if rpt then leAt b.dRec 2 2 else ch.cycle / 4 % 65536
  let flags := b2n on + 2 * b2n (tbit (ch.get64 Reg.BRK_RREL) j) + 4 * ch.get (Reg.JNT_CFG_SPM j) + 16 * b2n rpt +
    32 * b2n b.rearm + 64 * b2n ((Config.driveAck ch.fresh).toNat % 2 == 1)
  let setpt := if rpt then (b.dRec.drop 4).take 16 else (List.range 8).flatMap fun i => leBytes 2 (Tab.get x.out 0 (0x7C46 + i)).toNat
  let body := leBytes 1 (ch.slotOf j) ++ leBytes 1 flags ++ leBytes 2 seq ++ setpt ++ leBytes 4 0
  (body, (ch.nextFresh).setBrick j { b with dFresh := false, dRec := body })

/-- A sample record of joint `j` (R148, R150): currents for the task window, the ESID compared with the one sent two cycles
earlier, the status byte's faults while torque is on. -/
def ChanState.sampleRecord (ch : ChanState) (j : Nat) (bs : List Byte) : ChanState :=
  let b := ch.brick j
  let st := leAt bs 1 1
  let esid := leAt bs 2 2
  let arm := some (ch.armOf j)
  let ch := ch.setBrick j { b with
    smpK := some ch.cycle, smpOk := tbit st 6
    smp := [wrapS 16 (leAt bs 4 2), wrapS 16 (leAt bs 6 2), wrapS 16 (leAt bs 8 2), wrapS 16 (leAt bs 10 2)]
    rearm := b.rearm && tbit st 1 }
  let ch := (ch.put (Reg.BRK_ESTS_ST j) st).put (Reg.BRK_ESTS_ESID j) esid
  let ch := match b.sentE.find? fun e => e.1 + 2 == ch.cycle with
    | some e => if e.2 = esid then ch else (ch.incSat (Reg.BRK_ESTS_EMM j)).fault 0x0606 1 arm j 0
    | none => ch
  if ch.bit (Reg.JNT_STS_TOFF j) then ch else
  let ch := if tbit st 0 then ch.fault 0x0603 2 arm j 0 else ch
  let ch := if tbit st 1 && !b.rearm then ch.fault 0x0605 2 arm j 0 else ch
  if tbit st 2 then ch.fault 0x0604 1 arm j 0 else ch

/-- A drive status record of joint `j` (R152, R154). -/
def ChanState.driveStatus (ch : ChanState) (j : Nat) (bs : List Byte) : ChanState :=
  let b := ch.brick j
  let st := leAt bs 1 1
  let ch := ch.setBrick j { b with dstK := some ch.cycle, dAbs := 0, rearm := b.rearm && !tbit st 0 }
  if ch.bit (Reg.JNT_STS_TOFF j) then ch
  else if tbit st 1 || (!tbit st 0 && !b.rearm) then ch.fault 0x0609 2 (some (ch.armOf j)) j 0 else ch

/-- The drive status record of this servo cycle is absent (R154). -/
def ChanState.driveAbsent (ch : ChanState) (j : Nat) : ChanState :=
  let b := ch.brick j
  let ch := ch.setBrick j { b with dAbs := b.dAbs + 1 }
  if ch.bit (Reg.JNT_STS_TOFF j) then ch else
  let ch := ch.fault 0x060A 1 (some (ch.armOf j)) j 0
  if 1 ≤ b.dAbs then ch.fault 0x060B 2 (some (ch.armOf j)) j 0 else ch

/-- A write of BRK_ETCLR: TRIPCLR once in the next record of each EDGE joint named (R147). -/
def ChanState.brickClear (ch : ChanState) (mask : Nat) : ChanState :=
  forUpto 64 ch fun j ch =>
    if tbit mask j && ch.get (Reg.JNT_BIND_KIND j) == 3 then ch.setBrick j { ch.brick j with tclr := true } else ch

/-! ### Stepper choppers (R155 to R160) -/

/-- Threshold codes over a quarter period: 255 times the sine of 2π i over 1,024, rounded, i = 0 to 256 (R156). -/
def coilCodes : List Nat :=
    [0, 2, 3, 5, 6, 8, 9, 11, 13, 14, 16, 17, 19, 20, 22, 23, 25, 27, 28, 30, 31, 33, 34, 36, 37, 39, 41, 42, 44,
   45, 47, 48, 50, 51, 53, 54, 56, 57, 59, 60, 62, 63, 65] ++
    [67, 68, 70, 71, 73, 74, 76, 77, 79, 80, 81, 83, 84, 86, 87, 89, 90, 92, 93, 95, 96, 98, 99, 100, 102, 103, 105,
   106, 108, 109, 110, 112, 113, 115, 116, 117, 119, 120, 122, 123, 124, 126, 127] ++
    [128, 130, 131, 132, 134, 135, 136, 138, 139, 140, 142, 143, 144, 146, 147, 148, 149, 151, 152, 153, 154, 156,
   157, 158, 159, 161, 162, 163, 164, 165, 167, 168, 169, 170, 171, 172, 174, 175, 176, 177, 178, 179, 180] ++
    [181, 183, 184, 185, 186, 187, 188, 189, 190, 191, 192, 193, 194, 195, 196, 197, 198, 199, 200, 201, 202, 203,
   204, 205, 206, 207, 208, 208, 209, 210, 211, 212, 213, 214, 215, 215, 216, 217, 218, 219, 220, 220, 221] ++
    [222, 223, 223, 224, 225, 226, 226, 227, 228, 228, 229, 230, 231, 231, 232, 232, 233, 234, 234, 235, 236, 236,
   237, 237, 238, 238, 239, 240, 240, 241, 241, 242, 242, 243, 243, 244, 244, 244, 245, 245, 246, 246, 247] ++
    [247, 247, 248, 248, 248, 249, 249, 249, 250, 250, 250, 251, 251, 251, 252, 252, 252, 252, 252, 253, 253, 253,
   253, 253, 254, 254, 254, 254, 254, 254, 254, 255, 255, 255, 255, 255, 255, 255, 255, 255, 255, 255]

/-- The threshold code of a coil at microstep index `i` (R156). -/
def coilCode (i : Nat) (c : Coil) : Nat :=
  let q := coilIdx i c % 512
  coilCodes.getD (if q ≤ 256 then q else 512 - q) 0

/-- STP_PEND from its two counts (R158). -/
def ChanState.stpPend (ch : ChanState) (n : Nat) : ChanState :=
  ch.puti (Reg.STP_PEND n) (ch.geti64 (Reg.STP_CMD n) - ch.geti64 (Reg.STP_EMIT n))

/-- The step rate of a joint, from SETPT (R104). -/
def ChanState.stepRate (ch : ChanState) (j : Nat) : Int :=
  wrapS 32 ((Tab.get (ch.joint j).out 0 0x7C4A).toNat + 65536 * (Tab.get (ch.joint j).out 0 0x7C4B).toNat)

/-- The step rate joins the command accumulator of unit `n`; whole microsteps go to STP_CMD (R158). -/
def ChanState.stepAccumulate (ch : ChanState) (n : Nat) : ChanState :=
  match ch.unitJoint 2 n with
  | none => ch
  | some j =>
    let x := ch.stpU n
    let v : Int := x.acc + ch.stepRate j
    let ch := ch.setStp n { x with acc := ofInt 16 v }
    let ch := (ch.puti64 (Reg.STP_CMD n) (ch.geti64 (Reg.STP_CMD n) + v / 65536)).stpPend n
    if (ch.get (Reg.STP_PLIM_PLIM n) : Int) < (ch.geti (Reg.STP_PEND n)).natAbs then
      (ch.put (Reg.STP_STS_POVF n) 1).fault 0x0608 1 (some (ch.armOf j)) n 0
    else ch

/-- The indexer emits one microstep towards STP_CMD, at most STP_MAXR per basic cycle (R156, R158, R159). -/
def ChanState.microstep (ch : ChanState) (n : Nat) : ChanState :=
  let x := ch.stpU n
  let cnt := if x.cyc = ch.cycle then x.n else 0
  let pend := ch.geti64 (Reg.STP_CMD n) - ch.geti64 (Reg.STP_EMIT n)
  if !ch.stpOk n ∨ pend = 0 ∨ ch.get (Reg.STP_MAXR_MAXR n) ≤ cnt then ch else
  let d : Int := if 0 < pend then 1 else -1
  let ch := ch.setStp n { x with last := ch.now, cyc := ch.cycle, n := cnt + 1 }
  let ch := (ch.puti64 (Reg.STP_EMIT n) (ch.geti64 (Reg.STP_EMIT n) + d)).stpPend n
  let inc := 256 / 2 ^ ch.get (Reg.STP_CFG_MRES n)
  let ch := (ch.put (Reg.STP_STS_IDX n) (ofInt 10 (ch.get (Reg.STP_STS_IDX n) + d * inc))).put (Reg.STP_STS_HOLD n) 0
  [Coil.A, Coil.B].foldl (fun ch c =>
    let zero := coilZero (coilIdx (ch.get (Reg.STP_STS_IDX n)) c)
    match (ch.stpU n).coil c with
    | .off => if zero then ch else ch.coilStart n c
    | _ => if zero then ch.coilStart n c else ch) ch

/-- A coil goes to its off phase, decaying as STP_CFG.DECAY says (R157). -/
def ChanState.coilRest (ch : ChanState) (n : Nat) (c : Coil) : ChanState :=
  let dir := ch.get (coilField n c)
  let d := ch.get (Reg.STP_CFG_DECAY n)
  let fast := d = 1 ∨ (d = 2 ∧ 0 < ch.get (Reg.STP_CFG_FFRAC n))
  (ch.setStp n ((ch.stpU n).setCoil c (.rest ch.now))).put (coilField n c) (if fast then 3 - dir else 3)

/-- The comparator reports the threshold; it is ignored while blanked (R157). -/
def ChanState.coilThreshold (ch : ChanState) (n : Nat) (c : Coil) : ChanState :=
  match (ch.stpU n).coil c with
  | .drive t => if ch.now < t + 128 * (ch.get (Reg.STP_CFG_BLANK n) + 1) then ch else ch.coilRest n c
  | _ => ch

/-- The off time of a coil in ns (R157). -/
def ChanState.coilOffTime (ch : ChanState) (n : Nat) : Nat := 250 * (ch.get (Reg.STP_CFG_TOFF n) + 1)

/-- The end of the off phase: drive starts again (R157). -/
def ChanState.coilOffEnd (ch : ChanState) (n : Nat) (c : Coil) : ChanState :=
  match (ch.stpU n).coil c with
  | .rest t => (ch.advanceTo (t + ch.coilOffTime n)).coilStart n c
  | _ => ch

/-- The fast part of a mixed decay ends: FFRAC sixteenths of the off time (R157). -/
def ChanState.fastEnd (ch : ChanState) (n : Nat) (c : Coil) : ChanState :=
  match (ch.stpU n).coil c with
  | .rest t =>
    let e := t + ch.coilOffTime n * ch.get (Reg.STP_CFG_FFRAC n) / 16
    if ch.get (Reg.STP_CFG_DECAY n) = 2 then (ch.advanceTo e).put (coilField n c) 3 else ch
  | _ => ch

/-- A coil has driven for 64 µs without reaching its threshold (R157). -/
def ChanState.coilNoTrip (ch : ChanState) (n : Nat) (c : Coil) : ChanState :=
  match (ch.stpU n).coil c, ch.unitJoint 2 n with
  | .drive t, some j =>
    let ch := (ch.advanceTo (t + 64000)).coilRest n c
    let ch := ch.put (match c with | .A => Reg.STP_STS_NOTRIPA n | .B => Reg.STP_STS_NOTRIPB n) 1
    ch.fault 0x0607 1 (some (ch.armOf j)) n 0
  | _, _ => ch

/-- HDLY basic cycles without a microstep: the REF duty becomes HOLD (R156). -/
def ChanState.holdDelay (ch : ChanState) (n : Nat) : ChanState :=
  (ch.advanceTo ((ch.stpU n).last + 16000 * ch.get (Reg.STP_REF_HDLY n))).put (Reg.STP_STS_HOLD n) 1

end Sys2Proof.Machine
end

