-- ==== Sys2Proof/Machine/LoopOps.lean ====
section
/-!
DEFINITION. What the scheduler and the engines do with a task: missing, aborting and committing it, halting an engine, and
one instruction cycle with its repeats (R82, R91 to R95, R123, R125).
-/
namespace Sys2Proof.Machine

open Sys2Proof

/-- Disables joint `j`'s gates and applies its brake, F2 for its arm (R92 to R94). -/
def ChanState.disableGates (ch : ChanState) (j code : Nat) : ChanState :=
  let ch := (ch.put (Reg.JNT_STS_GOFF j) 1).torqueDrop j
  ch.fault code 2 (some (ch.armOf j)) j 0

/-- A current task of joint `j` aborted: the duty held once, the gates disabled at the second in a row (R92). -/
def ChanState.missCurrent (ch : ChanState) (j : Nat) : ChanState :=
  let again := decide (1 ≤ ch.get (Reg.JNT_STS_CCONS j))
  let ch := ((ch.put (Reg.JNT_STS_CMISS j) 1).incSat (Reg.JNT_MISS_CUR j)).incSat (Reg.JNT_STS_CCONS j)
  let ch := ch.fault 0x0401 1 (some (ch.armOf j)) j 0
  if again then ch.disableGates j 0x0402 else ch

/-- A servo task of joint `j` aborted (R93). -/
def ChanState.missServo (ch : ChanState) (j : Nat) : ChanState :=
  let again := decide (1 ≤ ch.get (Reg.JNT_STS_SCONS j))
  let ch := ((ch.put (Reg.JNT_STS_SMISS j) 1).incSat (Reg.JNT_MISS_SRV j)).incSat (Reg.JNT_STS_SCONS j)
  let ch := ch.fault 0x0403 1 (some (ch.armOf j)) j 0
  if again then ch.disableGates j 0x0404 else ch

/-- SLV_IINPR from the four counts (R210). -/
def ChanState.modelPend (ch : ChanState) : ChanState :=
  ch.puti Reg.SLV_IINPR ((ch.get Reg.SLV_ISUB : Int) - ch.get Reg.SLV_ICMPL - ch.get Reg.SLV_IFAIL - ch.get Reg.SLV_INRUN)

/-- A model task of arm `k` aborted, queued or running: the previous results stay (R205, R210). -/
def ChanState.missModel (ch : ChanState) (k : Nat) (running : Bool) : ChanState :=
  let ch := (ch.add (if running then Reg.SLV_IFAIL else Reg.SLV_INRUN) 1).modelPend
  (ch.add Reg.SLV_MDLMISS 1).fault 0x0801 1 (some k) k 0

/-- Counts an aborted task and handles a miss by its kind; an event task is no current or servo task (R91 to R93). -/
def ChanState.taskAborted (ch : ChanState) (t : Task) : ChanState :=
  let ch := (ch.add Reg.SCH_ABRT 1).schPend
  if t.evt.isSome then ch
  else if t.kind = 1 then ch.missCurrent t.joint
  else if t.kind = 2 then ch.missServo t.joint
  else if t.kind = 3 then ch.missModel t.joint false
  else ch

/-- The busy cycles of the solver's task; the solver is idle again (R192, SCH_LOAD8). -/
def ChanState.solverIdle (ch : ChanState) (cyc : Nat) : ChanState :=
  let ch := { ch with slv := { ch.slv with run := none }, sch := { ch.sch with busy := Tab.upd ch.sch.busy 0 8 (· + cyc) } }
  ((ch.put Reg.SLV_STS_STATE 0).put Reg.SLV_STS_OP 0).surgeReview

/-- Engine cycles of the solver since cell time `t`: 2 ns each, 1.6 ns in surge (R192). -/
def ChanState.solverCycles (ch : ChanState) (t : Nat) : Nat :=
  if ch.bit Reg.SLV_STS_SURGEON then (ch.now - t) * 5 / 8 else (ch.now - t) / 2

/-- Aborts the model task the solver runs; it commits nothing (R91, R205). -/
def ChanState.abortModel (ch : ChanState) : ChanState :=
  match ch.slv.run with
  | some (.model t _ since) => (((ch.solverIdle (ch.solverCycles since)).add Reg.SCH_ABRT 1).schPend).missModel t.joint true
  | _ => ch

/-- The ROM address of the dispatch loop's ASK, somewhere in 0x8000 to 0x8FFF (LPE_PC). -/
def askAddr : Nat := 0x8000 + Config.askAddr.toNat % 0x1000

/-- The cycles of the engine's last task: LPE_CYC, SCH_LOAD (R91, R125). -/
def ChanState.countCycles (ch : ChanState) (n cyc : Nat) : ChanState :=
  let tot := cyc + 12
  let ch := ch.put (Reg.LPE_CYC_LAST n) (min tot 0xFFFF)
  let ch := if ch.get (Reg.LPE_CYC_MAX n) < tot then ch.put (Reg.LPE_CYC_MAX n) (min tot 0xFFFF) else ch
  { ch with sch := { ch.sch with busy := Tab.upd ch.sch.busy 0 n (· + tot) } }

/-- The engine leaves its task: back to ASK, or halted where EN = 0 (R95, R125). -/
def ChanState.engineIdle (ch : ChanState) (n : Nat) : ChanState :=
  let e := ch.engine n
  let ch := ch.setEngine n { e with task := none, reps := [], stack := [], cyc := 0 }
  let ch := ((ch.put (Reg.LPE_STS_JOINT n) 0).put (Reg.LPE_STS_KIND n) 0).put (Reg.LPE_PC_PC n) askAddr
  ch.put (Reg.LPE_STS_STATE n) (if ch.bit (Reg.LPE_CFG_EN n) then 1 else 0)

/-- Aborts the task engine `n` runs; it commits nothing (R91). -/
def ChanState.abortRunning (ch : ChanState) (n : Nat) : ChanState :=
  match (ch.engine n).task with
  | none => ch
  | some t => ((ch.countCycles n (ch.engine n).cyc).engineIdle n).taskAborted t

/-- Halts engine `n` on a fault: its task aborted, F1 0x0405 for the channel (R95). -/
def ChanState.engineHalt (ch : ChanState) (n flt : Nat) : ChanState :=
  let pc := ch.get (Reg.LPE_PC_PC n)
  let ch := ch.abortRunning n
  let ch := ((((ch.put (Reg.LPE_STS_STATE n) 3).put (Reg.LPE_STS_FLT n) flt).put (Reg.LPE_STS_FLTS n) 1).put
    (Reg.LPE_PC_PC n) pc)
  ch.fault 0x0405 1 none n 0

/-- Writes the committed output words of a joint. -/
def Joint.putOut (x : Joint) (a : Nat) (v : Int) (n : Nat) : Joint :=
  { x with out := forUpto n x.out fun i o => Tab.set o 0 (a + i) (BitVec.ofInt 16 (v / (2 ^ (16 * i) : Nat))) }

/-- A committed output word, as a number and signed. -/
def Joint.outU (x : Joint) (a : Nat) : Nat := (Tab.get x.out 0 a).toNat
def Joint.outS (x : Joint) (a : Nat) : Int := (Tab.get x.out 0 a).toInt
/-- `n` output words, signed. -/
def Joint.outWide (x : Joint) (a n : Nat) : Int := winWide x.out a n

/-- The first servo task of a joint after a takeover: vint such that oiq equals the measured iq, which JNT_IDQ shows; behind a
filter that does not fix vint, which is free (R346). -/
def ChanState.seedServo (ch : ChanState) (j : Nat) (w : Tab Half) (x : Joint) : ServoOut :=
  let iq := ch.geti (Reg.JNT_IDQ_IQ j)
  let imax : Int := ch.get (Reg.JNT_ILIM_IMAX j)
  if ch.get (Reg.JNT_VLPF_ALPHA j) = 0 ∧ !ch.bit (Reg.JNT_CFG_N0EN j) ∧ !ch.bit (Reg.JNT_CFG_N1EN j) then
    servoTask ch j w { x with vint := satS 16 (iq - (servoTask ch j w { x with vint := 0 }).sum) }
  else
    let o := servoTask ch j w { x with vint := wrapS 16 (Config.free ch.fresh).toInt }
    { o with oiq := clampI iq (-imax) imax }

/-- Commits a servo task of the Standard Cascade (R98, R103, R104, R346). -/
def ChanState.commitServo (ch : ChanState) (j : Nat) (w : Tab Half) : ChanState :=
  let kind := ch.get (Reg.JNT_BIND_KIND j)
  let ton := tbit (winU w 0x7C1F) 1
  let x := ch.joint j
  let seed := tbit ch.red.seedS j && ton
  let o := if seed then ch.seedServo j w x else servoTask ch j w (if ton then x else x.zeroLoop)
  let ch := { ch with red := { ch.red with seedS := insertBits ch.red.seedS j 1 0 } }
  let ch := if seed then ch.nextFresh else ch
  let x1 := if ton then o.x else o.x.zeroLoop
  let kp : Int := ch.get (Reg.JNT_KP j)
  let cvel := winWide w 0x7C18 2
  if kind = 4 then
    let mode := ch.get (Reg.JNT_CFG_SPM j)
    let x1 := x1.putOut 0x7C46 0 8
    let x1 := if mode = 0 then ((x1.putOut 0x7C46 (winWide w 0x7C10 4) 4).putOut 0x7C4A cvel 2).putOut 0x7C4C
        (winWide w 0x7C1A 2) 2
      else if mode = 1 then x1.putOut 0x7C4A o.vref 2
      else x1.putOut 0x7C4C o.oiq 1
    (ch.setJoint j x1).put (Reg.LPE_SAT j) (ch.get (Reg.LPE_SAT j) ||| o.flags)
  else if kind = 2 then
    let ep := satS 64 (winWide w 0x7C10 4 - winWide w 0x7C14 4)
    let ep := if ch.get (Reg.JNT_FB_SRC j) = 2 then 0 else ep
    ch.setJoint j ((x1.putOut 0x7C46 0 8).putOut 0x7C4A (satS 32 (cvel + rdiv (kp * ep) (2 ^ 24))) 2)
  else
    let x1 := { (x1.putOut 0x7C44 o.oiq 1).putOut 0x7C45 o.oid 1 with
                refNext := some (BitVec.ofInt 16 o.oid, BitVec.ofInt 16 o.oiq) }
    ((ch.setJoint j x1).put (Reg.LPE_SAT j) (ch.get (Reg.LPE_SAT j) ||| o.flags)).putb (Reg.JNT_STS_LIMI j) o.lim

/-- Commits a current task of the Standard Cascade (R94, R99, R102, R103). -/
def ChanState.commitCurrent (ch : ChanState) (j : Nat) (w : Tab Half) : ChanState :=
  if !tbit (winU w 0x7C08) 0 then ch else
  let ton := tbit (winU w 0x7C08) 2
  let x := ch.joint j
  let o := currentTask ch j w (if ton then x else x.zeroLoop)
  let x1 := if ton then o.x else o.x.zeroLoop
  let x1 := ((x1.putOut 0x7C40 o.da 1).putOut 0x7C41 o.db 1).putOut 0x7C42 o.dc 1
  let ch := (ch.setJoint j x1).put (Reg.LPE_SAT j) (ch.get (Reg.LPE_SAT j) ||| o.flags)
  let ch := (((ch.puti (Reg.JNT_IDQ_ID j) o.iD).puti (Reg.JNT_IDQ_IQ j) o.iQ).puti (Reg.JNT_VDQ_VD j) o.vD).puti
    (Reg.JNT_VDQ_VQ j) o.vQ
  let ch := ((ch.put (Reg.JNT_ELEC_VDC j) (winU w 0x7C03)).put (Reg.JNT_ELEC_THE j) (winU w 0x7C04)).putb
    (Reg.JNT_STS_LIMV j) o.lim
  if o.vdcLow then (ch.put (Reg.JNT_STS_VDCLO j) 1).fault 0x0407 1 (some (ch.armOf j)) j 0 else ch

/-- Commits a task of user microcode: the working copy into the joint's block, sticky flags into LPE_SAT.OVF (R82, R115). -/
def ChanState.commitUser (ch : ChanState) (t : Task) (e : Engine) : ChanState :=
  let x := ch.joint t.joint
  let x := { x with
    out := forUpto 16 x.out fun i o => Tab.set o 0 (0x7C40 + i) (Tab.get e.win 0 (0x7C40 + i))
    st := forUpto 128 x.st fun i o => Tab.set o 0 (0x7C80 + i) (Tab.get e.win 0 (0x7C80 + i)) }
  let x := if t.kind = 2 ∧ t.evt.isNone then
      { x with refNext := some (Tab.get e.win 0 0x7C45, Tab.get e.win 0 0x7C44) } else x
  let ch := ch.setJoint t.joint x
  if e.fl.toNat / 256 % 16 = 0 then ch else ch.put (Reg.LPE_SAT_OVF t.joint) 1

/-- Whether a task runs user microcode: event and background tasks do, and the tasks of a joint at expert level (R97). -/
def ChanState.userTask (ch : ChanState) (t : Task) : Bool :=
  t.evt.isSome || t.kind == 4 || ch.bit (Reg.JNT_CFG_LEVEL t.joint)

/-- The effects of a completed task beside its commit: miss counts, torque-on marks, absent samples (R92 to R94). -/
def ChanState.taskDone (ch : ChanState) (t : Task) (w : Tab Half) : ChanState :=
  if t.evt.isSome then ch else
  let x := ch.joint t.joint
  if t.kind = 2 then
    (ch.setJoint t.joint (if tbit (winU w 0x7C1F) 1 then { x with tfirstS := false } else x)).put (Reg.JNT_STS_SCONS t.joint) 0
  else if t.kind = 1 then
    let x := if tbit (winU w 0x7C08) 2 then { x with tfirstC := false } else x
    let ivalid := tbit (winU w 0x7C08) 0
    let ch := (ch.setJoint t.joint { x with absCons := if ivalid then 0 else x.absCons + 1 }).put
      (Reg.JNT_STS_CCONS t.joint) 0
    if ivalid then ch else
    let ch := ((ch.put (Reg.JNT_STS_SABS t.joint) 1).add (Reg.JNT_ABS t.joint) 1).fault 0x0408 1
      (some (ch.armOf t.joint)) t.joint 0
    if 1 ≤ x.absCons then ch.disableGates t.joint 0x0409 else ch
  else ch

/-- DONE: the commit in one CLK_SYS cycle, the engine back to ASK (R82, R91, R125). A task past its deadline or over its
cycle limit is aborted instead. -/
def ChanState.taskCommit (ch : ChanState) (n : Nat) : ChanState :=
  match (ch.engine n).task with
  | none => ch
  | some t =>
    let e := ch.engine n
    let user := ch.userTask t
    let cyc := if user then e.cyc + 1 else if t.kind = 1 then 150 else 110
    if ch.past t.dl = true ∨ cyc > 8 * t.clim then (ch.setEngine n { e with cyc := min cyc (8 * t.clim) }).abortRunning n else
    let ch := if user then ch.commitUser t e
      else if t.kind = 1 then ch.commitCurrent t.joint e.win else ch.commitServo t.joint e.win
    let ch := if t.evt.isSome then ch
      else (if t.kind = 1 then ch.commitShadow t.joint else ch).commitBrick t.joint t.kind
        (if t.kind = 1 then tbit (winU e.win 0x7C08) 3 else tbit (winU e.win 0x7C1F) 2)
    let ch := (((ch.countCycles n cyc).engineIdle n).add (Reg.LPE_TASKS n) 1)
    ((ch.add Reg.SCH_CMPL 1).schPend).taskDone t e.win

/-! ### One instruction (R118, R123) -/

/-- Where an instruction leads. -/
inductive Flow where
  /-- To the next address. -/
  | fall
  /-- To a taken branch target. -/
  | jump (t : Nat)
  /-- Past the body of a repeat with count 0. -/
  | skip (len : Nat)
  /-- To the engine's halt (R126). -/
  | halt
deriving DecidableEq, Repr

/-- The loop-back of R123 after the instruction at `pc`: the innermost active body that ends there counts down first. -/
def loopBack (pc : Nat) : List Rep → Tab Half → Nat × List Rep × Tab Half
  | [], lc => (pc + 1, [], lc)
  | r :: rs, lc =>
    if r.last = pc then
      let v := Tab.get lc 0 r.lc - 1
      let lc := Tab.set lc 0 r.lc v
      if v = 0 then loopBack pc rs lc else (r.first, r :: rs, lc)
    else (pc + 1, r :: rs, lc)

/-- The repeats a branch to `t` leaves, innermost first: their counters are cleared (R123). -/
def leaveBodies (t : Nat) : List Rep → Tab Half → List Rep × Tab Half
  | [], lc => ([], lc)
  | r :: rs, lc => if r.first ≤ t ∧ t ≤ r.last then (r :: rs, lc) else leaveBodies t rs (Tab.set lc 0 r.lc 0)

/-- The engine after an instruction's flow, and its next address; none where it halts. -/
def Engine.follow (e : Engine) (pc : Nat) : Flow → Option (Engine × Nat)
  | .fall => let (p, r, l) := loopBack pc e.reps e.lc; some ({ e with reps := r, lc := l }, p)
  | .jump t => let (r, l) := leaveBodies t e.reps e.lc; some ({ e with reps := r, lc := l }, t)
  | .skip len => let (p, r, l) := loopBack (pc + len) e.reps e.lc; some ({ e with reps := r, lc := l }, p)
  | .halt => none

/-- Runs one instruction on engine `n`: it acts only while the engine runs a task; a fetch outside user memory or an
illegal form halts the engine, reaching the cycle limit aborts the task (R91, R95, R125, R126). -/
def ChanState.leRun (ch : ChanState) (n : Nat) (cost : Nat → Engine → Nat) (f : Nat → Engine → Engine × Flow) : ChanState :=
  let e := ch.engine n
  let pc := ch.get (Reg.LPE_PC_PC n)
  match e.task with
  | none => ch
  | some t =>
    if ch.userTask t ∧ 0x1FFF < pc then ch.engineHalt n 1 else
    match (f pc e).1.follow pc (f pc e).2 with
    | none => ch.engineHalt n 1
    | some (e', pc') =>
      let c := e.cyc + cost pc e
      if 8 * t.clim ≤ c then (ch.setEngine n { e with cyc := 8 * t.clim }).abortRunning n
      else (ch.setEngine n { e' with cyc := c }).put (Reg.LPE_PC_PC n) pc'

/-- An instruction of one cycle that only computes. -/
def ChanState.leOp (ch : ChanState) (n : Nat) (f : Engine → Engine) : ChanState :=
  ch.leRun n (fun _ _ => 1) fun _ e => (f e, .fall)

/-- A computing instruction of `c` cycles with forms that halt. -/
def ChanState.leOpIf (ch : ChanState) (n c : Nat) (legal : Bool) (f : Engine → Engine) : ChanState :=
  ch.leRun n (fun _ _ => c) fun _ e => if legal then (f e, .fall) else (e, .halt)

end Sys2Proof.Machine
end

