-- ==== Sys2Proof/Machine/LoopIsa.lean ====
section
/-!
DEFINITION. The loop engines' instructions, one meaning per row of R118. Each acts on the engine it names while that engine
runs a task; the sender supplies the instruction that stands at the engine's program counter.
-/
namespace Sys2Proof.Machine

open Sys2Proof

/-- The answer of a meaning that goes on in one channel which is not held in reset. -/
def live (s : State) (c : Chan) (f : ChanState → ChanState) : Host.Outcome State Fault Refusal := .next (s.onLive c f)

/-- Whether `pc` lies in an active repeat body (R124). -/
def Engine.inBody (e : Engine) (pc : Nat) : Bool := e.reps.any fun r => decide (r.first ≤ pc ∧ pc ≤ r.last)

/-- BR (R118): a taken branch goes to its target. -/
def branch (cond : BitVec 4) (t : Nat) (_pc : Nat) (e : Engine) : Engine × Flow :=
  match e.cond cond with
  | none => (e, .halt)
  | some true => (e, .jump t)
  | some false => (e, .fall)

/-- CALL (R118, R124, R126): not inside an active repeat body, not with a full stack. -/
def call (cond : BitVec 4) (t : Nat) (pc : Nat) (e : Engine) : Engine × Flow :=
  if e.inBody pc then (e, .halt) else
  match e.cond cond with
  | none => (e, .halt)
  | some false => (e, .fall)
  | some true => if 4 ≤ e.stack.length then (e, .halt) else ({ e with stack := (pc + 1) :: e.stack }, .jump t)

/-- RET (R118, R124, R126). -/
def ret (cond : BitVec 4) (pc : Nat) (e : Engine) : Engine × Flow :=
  if e.inBody pc then (e, .halt) else
  match e.cond cond with
  | none => (e, .halt)
  | some false => (e, .fall)
  | some true => match e.stack with
    | [] => (e, .halt)
    | r :: st => ({ e with stack := st }, .jump r)

/-- REP and REPR (R123, R126): the counter must be inactive and the body not empty; a count of 0 skips the body. -/
def repeatBody (lc : Fin 3) (count : Engine → Nat) (len : Nat) (pc : Nat) (e : Engine) : Engine × Flow :=
  if len = 0 ∨ Tab.get e.lc 0 lc.val ≠ 0 then (e, .halt)
  else if count e = 0 then (e, .skip len)
  else ({ e with lc := Tab.set e.lc 0 lc.val (BitVec.ofNat 16 (count e)), reps := ⟨lc.val, pc + 1, pc + len⟩ :: e.reps }, .fall)

/-- Cycles of a conditional control instruction: 2 when taken (R118). -/
def takenCost (cond : BitVec 4) (_pc : Nat) (e : Engine) : Nat := if e.cond cond = some true then 2 else 1

/-- Cycles of REP and REPR: 2 with a count of 0 (R118). -/
def repCost (count : Engine → Nat) (_pc : Nat) (e : Engine) : Nat := if count e = 0 then 2 else 1

/-- The multiplication of two memory words into an accumulator, pointers modified (R118). -/
def Engine.memMul (e : Engine) (sat : Bool) (a : AccSel) (p q : PtrOp) (base : Int) : Engine :=
  ((e.accResult sat a (base + (e.at p).toInt * (e.at q).toInt)).advance p).advance q

/-- DIV (R114, R122): nearest, ties away from zero; by 0 the limit of ACa's sign with V and SZ, S ignored. -/
def Engine.divide (e : Engine) (sat : Bool) (z : Fin 8) (a : AccSel) (y : Fin 8) : Engine :=
  let d := e.dx y
  if d = 0 then
    let v : Int := if 0 ≤ e.ax a then 0x7FFF else -0x8000
    (e.setD z.val (BitVec.ofInt 16 v)).flags false (decide (v < 0)) true 0x800
  else e.dResult sat z (if 0 < d then rdivAway (e.ax a) d.toNat else rdivAway (-(e.ax a)) (-d).toNat)

/-- SQRT (R114, R122): truncated; a negative radicand gives 0 with V and SD. -/
def Engine.root (e : Engine) (sat : Bool) (z : Fin 8) (a : AccSel) : Engine :=
  if e.ax a < 0 then (e.setD z.val 0).flags true false true 0x400 else e.dResult sat z (isqrt (e.ax a).toNat)

/-- TRIG (R120): cosine into Dz, sine into Dz+1. -/
def Engine.trig (e : Engine) (z x : Fin 8) : Engine :=
  let t := (e.dreg x).toNat
  (e.setD z.val (BitVec.ofInt 16 (cosTurn t))).setD (z.val + 1) (BitVec.ofInt 16 (sinTurn t))

/-- The scan of MINX and MAXX (R121): `n` words from index `i`, the best value and its index so far; `better` is strict, so
that a tie keeps the lowest index. -/
def Engine.scan (better : Int → Int → Bool) (p : PtrOp) : Nat → Nat → Int → Nat → Engine → Int × Nat × Engine
  | 0, _, b, bi, e => (b, bi, e)
  | n + 1, i, b, bi, e =>
    let v := (e.at p).toInt
    if i = 0 ∨ better v b then Engine.scan better p n (i + 1) v i (e.advance p)
    else Engine.scan better p n (i + 1) b bi (e.advance p)

/-- MINX and MAXX (R121): with n = 0 the limit `empty` and the index 0xFFFF, the pointer unchanged. -/
def Engine.extreme (e : Engine) (better : Int → Int → Bool) (empty : Int) (z x : Fin 8) (p : PtrOp) : Engine :=
  let n := (e.dreg x).toNat
  let (v, i, e') := Engine.scan better p n 0 0 0 e
  let (v, i) := if n = 0 then (empty, 0xFFFF) else (v, i)
  ((e'.setD z.val (BitVec.ofInt 16 v)).setD (z.val + 1) (BitVec.ofNat 16 i)).flags (v == 0) (decide (v < 0)) false 0

/-- Cycles of MINX and MAXX: 2 + ⌈n ÷ 2⌉ (R118). -/
def scanCost (x : Fin 8) (_pc : Nat) (e : Engine) : Nat := 2 + ((e.dreg x).toNat + 1) / 2

/-- STA (R113, R115): the low 32 bits, or the limit with S = 1; V alone is written. -/
def Engine.sta (e : Engine) (sat : Bool) (a : AccSel) (p : PtrOp) : Engine :=
  let v := BitVec.ofInt 32 (ranged 32 sat (e.ax a))
  let e' := (e.store (e.ptr p.p) (v.extractLsb' 0 16)).store (e.ptr p.p + 1) (v.extractLsb' 16 16)
  (e'.advance p).flags e.fZ e.fN (!fits 32 (e.ax a)) (if fits 32 (e.ax a) then 0 else 0x400)

/-- NOP. -/
def execLeNop (c : Chan) (n : Fin 8) (s : State) : Host.Outcome State Fault Refusal :=
  live s c fun ch => ch.leOp n fun e => e

/-- BR. -/
def execLeBr (c : Chan) (n : Fin 8) (cond : BitVec 4) (t : BitVec 16) (s : State) : Host.Outcome State Fault Refusal :=
  live s c fun ch => ch.leRun n (takenCost cond) (branch cond t.toNat)

/-- CALL. -/
def execLeCall (c : Chan) (n : Fin 8) (cond : BitVec 4) (t : BitVec 16) (s : State) : Host.Outcome State Fault Refusal :=
  live s c fun ch => ch.leRun n (takenCost cond) (call cond t.toNat)

/-- RET. -/
def execLeRet (c : Chan) (n : Fin 8) (cond : BitVec 4) (s : State) : Host.Outcome State Fault Refusal :=
  live s c fun ch => ch.leRun n (takenCost cond) (ret cond)

/-- REP. -/
def execLeRep (c : Chan) (n : Fin 8) (lc : Fin 3) (count : BitVec 12) (len : BitVec 10) (s : State) : Host.Outcome State Fault Refusal :=
  live s c fun ch => ch.leRun n (repCost fun _ => count.toNat) (repeatBody lc (fun _ => count.toNat) len.toNat)

/-- REPR. -/
def execLeRepr (c : Chan) (n : Fin 8) (lc : Fin 3) (x : Fin 8) (len : BitVec 10) (s : State) : Host.Outcome State Fault Refusal :=
  live s c fun ch => ch.leRun n (repCost fun e => (e.dreg x).toNat) (repeatBody lc (fun e => (e.dreg x).toNat) len.toNat)

/-- ASK: in user microcode it halts the engine (R126); in the dispatch loop the engine waits on. -/
def execLeAsk (c : Chan) (n : Fin 8) (s : State) : Host.Outcome State Fault Refusal :=
  live s c fun ch => match (ch.engine n).task with
    | some _ => ch.engineHalt n 1
    | none => ch

/-- DONE (R125). -/
def execLeDone (c : Chan) (n : Fin 8) (s : State) : Host.Outcome State Fault Refusal :=
  live s c fun ch => ch.taskCommit n

/-- LDI. -/
def execLeLdi (c : Chan) (n : Fin 8) (z : Fin 8) (imm : Half) (s : State) : Host.Outcome State Fault Refusal :=
  live s c fun ch => ch.leOp n fun e => e.setD z.val imm

/-- LDP: 0 to 3 select pointers, 4 to 7 modifiers (R117). -/
def execLeLdp (c : Chan) (n : Fin 8) (t : Fin 8) (imm : Half) (s : State) : Host.Outcome State Fault Refusal :=
  live s c fun ch => ch.leOp n fun e => if t.val < 4 then e.setPtr t.val (imm.setWidth 15) else e.setMod (t.val - 4) imm

/-- LD Dz, @a. -/
def execLeLdDirect (c : Chan) (n : Fin 8) (z : Fin 8) (a : Ptr) (s : State) : Host.Outcome State Fault Refusal :=
  live s c fun ch => ch.leOp n fun e => e.setD z.val (e.load a)

/-- ST Dx, @a. -/
def execLeStDirect (c : Chan) (n : Fin 8) (x : Fin 8) (a : Ptr) (s : State) : Host.Outcome State Fault Refusal :=
  live s c fun ch => ch.leOp n fun e => e.store a (e.dreg x)

/-- LD Dz, (Pp). -/
def execLeLdPointer (c : Chan) (n : Fin 8) (z : Fin 8) (p : PtrOp) (s : State) : Host.Outcome State Fault Refusal :=
  live s c fun ch => ch.leOp n fun e => (e.setD z.val (e.at p)).advance p

/-- ST Dx, (Pp). -/
def execLeStPointer (c : Chan) (n : Fin 8) (x : Fin 8) (p : PtrOp) (s : State) : Host.Outcome State Fault Refusal :=
  live s c fun ch => ch.leOp n fun e => (e.store (e.ptr p.p) (e.dreg x)).advance p

/-- LD2; with P = Q the engine halts (R126). -/
def execLeLd2 (c : Chan) (n : Fin 8) (z y : Fin 8) (p : PtrOp) (q : PtrOp) (s : State) : Host.Outcome State Fault Refusal :=
  live s c fun ch => ch.leOpIf n 1 (p.p != q.p) fun e => (((e.setD z.val (e.at p)).setD y.val (e.at q)).advance p).advance q

/-- MOV (R119); a reserved number or a source-only destination halts the engine (R126). -/
def execLeMov (c : Chan) (n : Fin 8) (dst src : BitVec 5) (s : State) : Host.Outcome State Fault Refusal :=
  live s c fun ch => ch.leRun n (fun _ _ => 1) fun _ e =>
    match e.movSrc src.toNat with
    | none => (e, .halt)
    | some v => match e.movDst dst.toNat v with
      | none => (e, .halt)
      | some e' => (e', .fall)

/-- LDA. -/
def execLeLda (c : Chan) (n : Fin 8) (a : AccSel) (p : PtrOp) (s : State) : Host.Outcome State Fault Refusal :=
  live s c fun ch => ch.leOp n fun e => (e.setAcc a ((e.at2 p).signExtend 40)).advance p

/-- STA. -/
def execLeSta (c : Chan) (n : Fin 8) (sat : Bool) (a : AccSel) (p : PtrOp) (s : State) : Host.Outcome State Fault Refusal :=
  live s c fun ch => ch.leOp n fun e => e.sta sat a p

/-- RND. -/
def execLeRnd (c : Chan) (n : Fin 8) (sat : Bool) (z : Fin 8) (a : AccSel) (sh : BitVec 5) (s : State) : Host.Outcome State Fault Refusal :=
  live s c fun ch => ch.leOp n fun e => e.dResult sat z (rndShift (e.ax a) sh.toNat)

/-- MPY. -/
def execLeMpy (c : Chan) (n : Fin 8) (sat : Bool) (a : AccSel) (x y : Fin 8) (s : State) : Host.Outcome State Fault Refusal :=
  live s c fun ch => ch.leOp n fun e => e.accResult sat a (e.dx x * e.dx y)

/-- MAC. -/
def execLeMac (c : Chan) (n : Fin 8) (sat : Bool) (a : AccSel) (x y : Fin 8) (s : State) : Host.Outcome State Fault Refusal :=
  live s c fun ch => ch.leOp n fun e => e.accResult sat a (e.ax a + e.dx x * e.dx y)

/-- MSU. -/
def execLeMsu (c : Chan) (n : Fin 8) (sat : Bool) (a : AccSel) (x y : Fin 8) (s : State) : Host.Outcome State Fault Refusal :=
  live s c fun ch => ch.leOp n fun e => e.accResult sat a (e.ax a - e.dx x * e.dx y)

/-- MPYM; with P = Q the engine halts (R126). -/
def execLeMpym (c : Chan) (n : Fin 8) (sat : Bool) (a : AccSel) (p : PtrOp) (q : PtrOp) (s : State) : Host.Outcome State Fault Refusal :=
  live s c fun ch => ch.leOpIf n 1 (p.p != q.p) fun e => e.memMul sat a p q 0

/-- MACM; with P = Q the engine halts (R126). -/
def execLeMacm (c : Chan) (n : Fin 8) (sat : Bool) (a : AccSel) (p : PtrOp) (q : PtrOp) (s : State) : Host.Outcome State Fault Refusal :=
  live s c fun ch => ch.leOpIf n 1 (p.p != q.p) fun e => e.memMul sat a p q (e.ax a)

/-- MACX. -/
def execLeMacx (c : Chan) (n : Fin 8) (sat : Bool) (a : AccSel) (x : Fin 8) (p : PtrOp) (s : State) : Host.Outcome State Fault Refusal :=
  live s c fun ch => ch.leOp n fun e => (e.accResult sat a (e.ax a + e.dx x * (e.at p).toInt)).advance p

/-- LDAC. -/
def execLeLdac (c : Chan) (n : Fin 8) (sat : Bool) (a : AccSel) (x : Fin 8) (sh : BitVec 5) (s : State) : Host.Outcome State Fault Refusal :=
  live s c fun ch => ch.leOp n fun e => e.accResult sat a (e.dx x * 2 ^ sh.toNat)

/-- ADDA. -/
def execLeAdda (c : Chan) (n : Fin 8) (sat : Bool) (a : AccSel) (x : Fin 8) (sh : BitVec 5) (s : State) : Host.Outcome State Fault Refusal :=
  live s c fun ch => ch.leOp n fun e => e.accResult sat a (e.ax a + e.dx x * 2 ^ sh.toNat)

/-- SUBA. -/
def execLeSuba (c : Chan) (n : Fin 8) (sat : Bool) (a : AccSel) (x : Fin 8) (sh : BitVec 5) (s : State) : Host.Outcome State Fault Refusal :=
  live s c fun ch => ch.leOp n fun e => e.accResult sat a (e.ax a - e.dx x * 2 ^ sh.toNat)

/-- ACC CLR. -/
def execLeAccClr (c : Chan) (n : Fin 8) (sat : Bool) (a : AccSel) (s : State) : Host.Outcome State Fault Refusal :=
  live s c fun ch => ch.leOp n fun e => e.accResult sat a 0

/-- ACC MOV. -/
def execLeAccMov (c : Chan) (n : Fin 8) (sat : Bool) (a : AccSel) (s : State) : Host.Outcome State Fault Refusal :=
  live s c fun ch => ch.leOp n fun e => e.accResult sat a (e.ax (otherAcc a))

/-- ACC ADD. -/
def execLeAccAdd (c : Chan) (n : Fin 8) (sat : Bool) (a : AccSel) (s : State) : Host.Outcome State Fault Refusal :=
  live s c fun ch => ch.leOp n fun e => e.accResult sat a (e.ax a + e.ax (otherAcc a))

/-- ACC SUB. -/
def execLeAccSub (c : Chan) (n : Fin 8) (sat : Bool) (a : AccSel) (s : State) : Host.Outcome State Fault Refusal :=
  live s c fun ch => ch.leOp n fun e => e.accResult sat a (e.ax a - e.ax (otherAcc a))

/-- ACC NEG. -/
def execLeAccNeg (c : Chan) (n : Fin 8) (sat : Bool) (a : AccSel) (s : State) : Host.Outcome State Fault Refusal :=
  live s c fun ch => ch.leOp n fun e => e.accResult sat a (-(e.ax a))

/-- ACC ABS. -/
def execLeAccAbs (c : Chan) (n : Fin 8) (sat : Bool) (a : AccSel) (s : State) : Host.Outcome State Fault Refusal :=
  live s c fun ch => ch.leOp n fun e => e.accResult sat a ((e.ax a).natAbs : Nat)

/-- ASH: left if positive, arithmetic right if negative, truncating (R114). -/
def execLeAsh (c : Chan) (n : Fin 8) (sat : Bool) (a : AccSel) (sh : BitVec 6) (s : State) : Host.Outcome State Fault Refusal :=
  live s c fun ch => ch.leOp n fun e => e.accResult sat a (if 0 ≤ sh.toInt then e.ax a * 2 ^ sh.toInt.toNat else e.ax a / 2 ^ (-sh.toInt).toNat)

/-- ADD. -/
def execLeAdd (c : Chan) (n : Fin 8) (sat : Bool) (z x y : Fin 8) (s : State) : Host.Outcome State Fault Refusal :=
  live s c fun ch => ch.leOp n fun e => e.dResult sat z (e.dx x + e.dx y)

/-- SUB. -/
def execLeSub (c : Chan) (n : Fin 8) (sat : Bool) (z x y : Fin 8) (s : State) : Host.Outcome State Fault Refusal :=
  live s c fun ch => ch.leOp n fun e => e.dResult sat z (e.dx x - e.dx y)

/-- ADDI. -/
def execLeAddi (c : Chan) (n : Fin 8) (sat : Bool) (z x : Fin 8) (imm : BitVec 12) (s : State) : Host.Outcome State Fault Refusal :=
  live s c fun ch => ch.leOp n fun e => e.dResult sat z (e.dx x + imm.toInt)

/-- AND. -/
def execLeAnd (c : Chan) (n : Fin 8) (z x y : Fin 8) (s : State) : Host.Outcome State Fault Refusal :=
  live s c fun ch => ch.leOp n fun e => e.dPlain z (e.dreg x &&& e.dreg y).toInt

/-- OR. -/
def execLeOr (c : Chan) (n : Fin 8) (z x y : Fin 8) (s : State) : Host.Outcome State Fault Refusal :=
  live s c fun ch => ch.leOp n fun e => e.dPlain z (e.dreg x ||| e.dreg y).toInt

/-- SHL. -/
def execLeShl (c : Chan) (n : Fin 8) (sat : Bool) (z x : Fin 8) (sh : BitVec 4) (s : State) : Host.Outcome State Fault Refusal :=
  live s c fun ch => ch.leOp n fun e => e.dResult sat z (e.dx x * 2 ^ sh.toNat)

/-- ASR. -/
def execLeAsr (c : Chan) (n : Fin 8) (z x : Fin 8) (sh : BitVec 4) (s : State) : Host.Outcome State Fault Refusal :=
  live s c fun ch => ch.leOp n fun e => e.dPlain z (e.dx x / 2 ^ sh.toNat)

/-- NEG. -/
def execLeNeg (c : Chan) (n : Fin 8) (sat : Bool) (z x : Fin 8) (s : State) : Host.Outcome State Fault Refusal :=
  live s c fun ch => ch.leOp n fun e => e.dResult sat z (-(e.dx x))

/-- ABS. -/
def execLeAbs (c : Chan) (n : Fin 8) (sat : Bool) (z x : Fin 8) (s : State) : Host.Outcome State Fault Refusal :=
  live s c fun ch => ch.leOp n fun e => e.dResult sat z ((e.dx x).natAbs : Nat)

/-- MIN. -/
def execLeMin (c : Chan) (n : Fin 8) (z x y : Fin 8) (s : State) : Host.Outcome State Fault Refusal :=
  live s c fun ch => ch.leOp n fun e => e.dPlain z (min (e.dx x) (e.dx y))

/-- MAX. -/
def execLeMax (c : Chan) (n : Fin 8) (z x y : Fin 8) (s : State) : Host.Outcome State Fault Refusal :=
  live s c fun ch => ch.leOp n fun e => e.dPlain z (max (e.dx x) (e.dx y))

/-- CLMP: L = max(Dy, 0); min(max(Dx, −L), L). -/
def execLeClmp (c : Chan) (n : Fin 8) (z x y : Fin 8) (s : State) : Host.Outcome State Fault Refusal :=
  live s c fun ch => ch.leOp n fun e => e.dPlain z (min (max (e.dx x) (-(max (e.dx y) 0))) (max (e.dx y) 0))

/-- CMP. -/
def execLeCmp (c : Chan) (n : Fin 8) (x y : Fin 8) (s : State) : Host.Outcome State Fault Refusal :=
  live s c fun ch => ch.leOp n fun e => e.flags (e.dx x == e.dx y) (decide (e.dx x < e.dx y)) false 0

/-- BTST. -/
def execLeBtst (c : Chan) (n : Fin 8) (x : Fin 8) (bit : BitVec 4) (s : State) : Host.Outcome State Fault Refusal :=
  live s c fun ch => ch.leOp n fun e => e.flags (!(e.dreg x).getLsbD bit.toNat) false false 0

/-- MULD. -/
def execLeMuld (c : Chan) (n : Fin 8) (sat : Bool) (z x y : Fin 8) (sh : BitVec 5) (s : State) : Host.Outcome State Fault Refusal :=
  live s c fun ch => ch.leOp n fun e => e.dResult sat z (rndShift (e.dx x * e.dx y) sh.toNat)

/-- DIV. -/
def execLeDiv (c : Chan) (n : Fin 8) (sat : Bool) (z : Fin 8) (a : AccSel) (y : Fin 8) (s : State) : Host.Outcome State Fault Refusal :=
  live s c fun ch => ch.leOpIf n 18 true fun e => e.divide sat z a y

/-- SQRT. -/
def execLeSqrt (c : Chan) (n : Fin 8) (sat : Bool) (z : Fin 8) (a : AccSel) (s : State) : Host.Outcome State Fault Refusal :=
  live s c fun ch => ch.leOpIf n 18 true fun e => e.root sat z a

/-- TRIG; an odd Dz halts the engine (R126). -/
def execLeTrig (c : Chan) (n : Fin 8) (z x : Fin 8) (s : State) : Host.Outcome State Fault Refusal :=
  live s c fun ch => ch.leOpIf n 2 (z.val % 2 == 0) fun e => e.trig z x

/-- MINX; an odd Dz halts the engine (R126). -/
def execLeMinx (c : Chan) (n : Fin 8) (z x : Fin 8) (p : PtrOp) (s : State) : Host.Outcome State Fault Refusal :=
  live s c fun ch => ch.leRun n (scanCost x) fun _ e =>
    if z.val % 2 = 0 then (e.extreme (fun v b => decide (v < b)) 0x7FFF z x p, .fall) else (e, .halt)

/-- MAXX; an odd Dz halts the engine (R126). -/
def execLeMaxx (c : Chan) (n : Fin 8) (z x : Fin 8) (p : PtrOp) (s : State) : Host.Outcome State Fault Refusal :=
  live s c fun ch => ch.leRun n (scanCost x) fun _ e =>
    if z.val % 2 = 0 then (e.extreme (fun v b => decide (b < v)) (-0x8000) z x p, .fall) else (e, .halt)

/-- CMOV; a reserved condition halts the engine (R126). -/
def execLeCmov (c : Chan) (n : Fin 8) (cond : BitVec 4) (z x : Fin 8) (s : State) : Host.Outcome State Fault Refusal :=
  live s c fun ch => ch.leRun n (fun _ _ => 1) fun _ e =>
    match e.cond cond with
    | none => (e, .halt)
    | some true => (e.setD z.val (e.dreg x), .fall)
    | some false => (e, .fall)

end Sys2Proof.Machine
end

