-- ==== Sys2Proof/Machine/LoopWord.lean ====
section
/-!
DEFINITION. Which instruction words a loop engine accepts: the formats of R117, the fields each row of R118 uses, and the
forms of R126 that a word shows by itself.
-/
namespace Sys2Proof.Machine

/-- Bits `hi` to `lo` of a word. -/
def bitsOf (w hi lo : Nat) : Nat := w / 2 ^ lo % 2 ^ (hi + 1 - lo)

/-- The mask of bits `hi` to `lo`. -/
def maskOf (hi lo : Nat) : Nat := 2 ^ (hi + 1) - 2 ^ lo

/-- The bits of 24:0 an opcode uses, and whether it takes S (R117, R118); none for an undefined opcode. -/
def opMask (op : Nat) : Option (Nat × Bool) :=
  let zxy := maskOf 24 16
  let zx := maskOf 24 19
  let xp := maskOf 23 21 ||| maskOf 17 14
  let pq := maskOf 17 10
  let a := 2 ^ 24
  match op with
  | 0x00 => some (0, false)
  | 0x01 => some (maskOf 24 21 ||| maskOf 15 0, false)
  | 0x02 => some (maskOf 24 21 ||| maskOf 15 0, false)
  | 0x03 => some (maskOf 24 21, false)
  | 0x04 => some (maskOf 24 11 ||| maskOf 9 0, false)
  | 0x05 => some (maskOf 24 20 ||| maskOf 9 0, false)
  | 0x06 => some (0, false)
  | 0x07 => some (0, false)
  | 0x08 => some (maskOf 24 22 ||| maskOf 15 0, false)
  | 0x09 => some (maskOf 24 22 ||| maskOf 15 0, false)
  | 0x0A => some (maskOf 24 22 ||| maskOf 14 0, false)
  | 0x0B => some (maskOf 24 22 ||| maskOf 14 0, false)
  | 0x0C => some (xp, false)
  | 0x0D => some (xp, false)
  | 0x0E => some (maskOf 23 18 ||| pq, false)
  | 0x0F => some (maskOf 24 15, false)
  | 0x10 => some (a ||| maskOf 17 14, false)
  | 0x11 => some (a ||| maskOf 17 14, true)
  | 0x12 => some (a ||| maskOf 23 21 ||| maskOf 16 12, true)
  | 0x13 => some (a ||| maskOf 23 18, true)
  | 0x14 => some (a ||| maskOf 23 18, true)
  | 0x15 => some (a ||| maskOf 23 18, true)
  | 0x16 => some (a ||| pq, true)
  | 0x17 => some (a ||| pq, true)
  | 0x18 => some (a ||| xp, true)
  | 0x19 => some (a ||| maskOf 23 21 ||| maskOf 16 12, true)
  | 0x1A => some (a ||| maskOf 23 21 ||| maskOf 16 12, true)
  | 0x1B => some (a ||| maskOf 23 21 ||| maskOf 16 12, true)
  | 0x1C => some (a ||| maskOf 11 9, true)
  | 0x1D => some (a ||| maskOf 17 12, true)
  | 0x1E => some (zxy, true)
  | 0x1F => some (zxy, true)
  | 0x20 => some (maskOf 24 7, true)
  | 0x21 => some (zxy, false)
  | 0x22 => some (zxy, false)
  | 0x23 => some (zx ||| maskOf 14 11, true)
  | 0x24 => some (zx ||| maskOf 14 11, false)
  | 0x25 => some (zx, true)
  | 0x26 => some (zx, true)
  | 0x27 => some (zxy, false)
  | 0x28 => some (zxy, false)
  | 0x29 => some (zxy, false)
  | 0x2A => some (zx, false)
  | 0x2B => some (maskOf 24 22 ||| maskOf 14 11, false)
  | 0x2C => some (zxy ||| maskOf 15 11, true)
  | 0x2D => some (a ||| maskOf 23 18, true)
  | 0x2E => some (a ||| maskOf 23 21, true)
  | 0x2F => some (zx, false)
  | 0x30 => some (maskOf 23 14, false)
  | 0x31 => some (maskOf 23 14, false)
  | 0x32 => some (zx ||| maskOf 10 7, false)
  | _ => none

/-- The forms of R126 beyond unused bits that a word shows by itself; `true` where the word stands. -/
def opForm (op w : Nat) : Bool :=
  match op with
  | 0x01 => decide (bitsOf w 24 21 ≤ 8)
  | 0x02 => decide (bitsOf w 24 21 ≤ 8)
  | 0x03 => decide (bitsOf w 24 21 ≤ 8)
  | 0x04 => bitsOf w 24 23 != 3 && bitsOf w 9 0 != 0
  | 0x05 => bitsOf w 24 23 != 3 && bitsOf w 9 0 != 0
  | 0x06 => false
  | 0x0E => bitsOf w 17 16 != bitsOf w 13 12
  | 0x0F => decide (bitsOf w 19 15 < 0x1A) && decide (bitsOf w 24 20 < 0x1A) &&
      !(decide (0x10 ≤ bitsOf w 24 20) && decide (bitsOf w 24 20 ≤ 0x13))
  | 0x16 => bitsOf w 17 16 != bitsOf w 13 12
  | 0x17 => bitsOf w 17 16 != bitsOf w 13 12
  | 0x1C => decide (bitsOf w 11 9 ≤ 5)
  | 0x2F => bitsOf w 24 22 % 2 == 0
  | 0x30 => bitsOf w 23 21 % 2 == 0
  | 0x31 => bitsOf w 23 21 % 2 == 0
  | 0x32 => decide (bitsOf w 10 7 ≤ 8)
  | _ => true

/-- Whether a word, decoded alone, would not halt an engine (R126, R127). -/
def leLegal (w : Nat) : Bool :=
  match opMask (w / 2 ^ 26 % 64) with
  | none => false
  | some (m, s) => (w % 2 ^ 25 &&& m) == w % 2 ^ 25 && (s || !tbit w 25) && opForm (w / 2 ^ 26 % 64) w

end Sys2Proof.Machine
end

