-- ==== Sys2Proof/Machine/Sched.lean ====
section
/-!
DEFINITION. The hardware scheduler: releases from the table, dispatch with the task window, deadlines, and the engine
registers (R80 to R95).
-/
namespace Sys2Proof.Machine

open Sys2Proof

/-! ### Host writes -/

/-- Counts a host write and names its path (R362). -/
def ChanState.hostW (ch : ChanState) (p : Path) : ChanState :=
  match p with
  | .pcie => (ch.add Reg.HOST_WCNTP 1).put Reg.HOST_LASTW_PORT 0
  | .spi => (ch.add Reg.HOST_WCNTS 1).put Reg.HOST_LASTW_PORT 1

/-- Whether RWL fields take a write: in COMMISSION and MAINTENANCE (R8). -/
def ChanState.unlocked (ch : ChanState) : Bool := ch.get Reg.CHN_STATE_CODE == 2 || ch.get Reg.CHN_STATE_CODE == 8

/-! ### Releases (R84 to R90) -/

/-- The queue of an entry's kind (R84). -/
def kindQueue (kind : Nat) : Nat := if kind = 4 then 4 else kind - 1

/-- The basic cycle in which an entry is due, at or after `cyc` (R86). -/
def dueCycle (cyc b : Nat) : Nat := cyc + (b + 16 - cyc % 16) % 16

/-- Computes the feed-forward current of joint `j` ahead of its servo release: 0 until a batch has completed, else the sum of
R101 in binary32, whose order the spec does not give. -/
def ChanState.takeTff (ch : ChanState) (j : Nat) : ChanState :=
  if ch.get (Reg.JNT_CFG_AFF j) ≠ 2 then ch
  else if tbit (ch.get Reg.SLV_MDLVAL_VAL) (ch.armOf j) then
    (ch.put (Reg.JNT_TFF_TFF j) (Config.tff ch.fresh).toNat).nextFresh
  else ch.put (Reg.JNT_TFF_TFF j) 0

/-- The entry pointer past its entry, in the same basic cycle or in the next matrix cycle (R86). -/
def ChanState.ptrNext (ch : ChanState) (cyc : Nat) : ChanState :=
  let i := ch.sch.ptr + 1
  let s := if i < ch.sch.table.length then { ch.sch with ptr := i, cyc } else { ch.sch with ptr := 0, cyc := (cyc / 16 + 1) * 16 }
  { ch with sch := s }

/-- What a model task of arm `k` computes from: the arm's record, its joints' command positions and their CRAD (R202, R203). -/
def ChanState.modelInput (ch : ChanState) (k : Nat) : List Nat :=
  ((ch.sBytes (0x800 * k) 0x800).map (·.toNat)) ++
    (ch.armJoints k).flatMap fun j => [ch.get64 (Reg.PRF_JCPOS j), ch.get (Reg.JNT_CRAD j)]

/-- The release of a model task: counted, its inputs latched, its descriptor in the internal ring, of which OP and ARM are given
(R203, R210). -/
def ChanState.releaseModel (ch : ChanState) (k : Nat) : ChanState :=
  let a := 0x4000 + 64 * (ch.get Reg.SLV_ISUB % 256)
  let ch := { ch with slv := { ch.slv with inp := Tab.set ch.slv.inp [] k (ch.modelInput k) } }
  let ch := forUpto 8 ch fun i ch => (ch.sStore (a + 8 * i) (leBytes 8 (Config.free ch.fresh).toNat)).nextFresh
  (((ch.sStore a [0x20]).sStore (a + 6) (leBytes 1 k)).add Reg.SLV_ISUB 1).modelPend

/-- Releases the entry at the pointer, due at `at_` ns, into its queue: late where an earlier tick of CLK_SYS had already reached its
instant, aborted past its deadline (R90). -/
def ChanState.releaseEntry (ch : ChanState) (e : RelEnt) (cyc : Nat) : ChanState :=
  let at_ := cyc * 16000 + 4 * e.ofs
  let t : Task := { kind := e.kind, joint := e.joint, rel := ch.now, dl := cyc * 16000 + 4 * e.dl, clim := e.clim,
                    entry := 0, evt := none }
  let ch := if e.kind = 2 then ch.takeTff e.joint else if e.kind = 3 then ch.releaseModel e.joint else ch
  let ch := ((ch.ptrNext cyc).add Reg.SCH_REL 1).schPend
  let late := ch.past at_
  let ch := if t.dl ≤ ch.now then ch.taskAborted t else ch.setQueue (kindQueue e.kind) (ch.queue (kindQueue e.kind) ++ [t])
  if late then ((ch.add Reg.SCH_LATE 1).put Reg.SCH_STS_LATE 1).fault 0x0406 0 none 0xFFFF 0 else ch

/-- Releases, in table order, every entry whose instant has come, until a queue is full (R86, R90). -/
def ChanState.releaseDue : Nat → ChanState → ChanState
  | 0, ch => ch
  | n + 1, ch =>
    match ch.sch.table[ch.sch.ptr]? with
    | none => ch
    | some e =>
      let cyc := dueCycle ch.sch.cyc e.b
      if ch.now < cyc * 16000 + 4 * e.ofs then ch.put Reg.SCH_STS_PTRB e.b
      else if !ch.releasing then ChanState.releaseDue n (ch.ptrNext cyc)
      else if 128 ≤ (ch.queue (kindQueue e.kind)).length then (ch.put Reg.SCH_STS_STALL 1).put Reg.SCH_STS_PTRB e.b
      else ChanState.releaseDue n (ch.releaseEntry e cyc)

/-- The scheduler at the instant of its next entry: time moves there and the entries due are released. -/
def ChanState.tableRelease (ch : ChanState) : ChanState :=
  if ch.bit Reg.SCH_STS_STALL then ch else
  match ch.sch.table[ch.sch.ptr]? with
  | none => ch
  | some e => ChanState.releaseDue 2048 (ch.advanceTo (dueCycle ch.sch.cyc e.b * 16000 + 4 * e.ofs))

/-- A stalled pointer goes on once its queue has space (R90). -/
def ChanState.releaseResume (ch : ChanState) : ChanState :=
  match ch.sch.table[ch.sch.ptr]? with
  | none => ch
  | some e =>
    if !ch.bit Reg.SCH_STS_STALL ∨ 128 ≤ (ch.queue (kindQueue e.kind)).length then ch
    else ChanState.releaseDue 2048 (ch.put Reg.SCH_STS_STALL 0)

/-! ### Dispatch (R80, R83, R88, R89, R94) -/

/-- Whether a task of joint `j` runs on an engine (R89). -/
def ChanState.jointBusy (ch : ChanState) (j : Nat) : Bool :=
  (List.range 8).any fun n => match (ch.engine n).task with | some t => t.joint == j | none => false

/-- The first task of a queue whose joint is free, and the queue without it (R88, R89). -/
def ChanState.pick (ch : ChanState) : List Task → Option (Task × List Task)
  | [] => none
  | t :: r =>
    if ch.jointBusy t.joint then
      match ch.pick r with
      | some (x, r') => some (x, t :: r')
      | none => none
    else some (t, r)

/-- The oldest eligible task of the highest queue engine `n` allows (R88). -/
def ChanState.eligible (ch : ChanState) (n : Nat) : Option (Nat × Task × List Task) :=
  [0, 1, 4].findSome? fun q =>
    if tbit (ch.get (Reg.LPE_CFG_CMASK n)) q then (ch.pick (ch.queue q)).map fun r => (q, r) else none

/-- Whether engine `n` waits at ASK. -/
def ChanState.asking (ch : ChanState) (n : Nat) : Bool :=
  ch.get (Reg.LPE_STS_STATE n) == 1 && (ch.engine n).task.isNone && !ch.blockQuiet (8 + n)

/-- The electrical angle of R99, from the whole-count part of the latched position; free where JNT_CPR was written 0. -/
def ChanState.elecAngle (ch : ChanState) (j : Nat) : Nat :=
  let cpr := ch.get (Reg.JNT_CPR j)
  if cpr = 0 then (Config.freeAngle j).toNat else
  let p := (ch.anglePos j / 65536) % (cpr : Int)
  (p.toNat * ch.get (Reg.JNT_POLE_PP j) * 65536 / cpr + ch.get (Reg.JNT_POLE_OFS j)) % 65536

/-- The electrical speed of R83 against the previous dispatched current task. -/
def ChanState.elecSpeed (ch : ChanState) (j the : Nat) : Int :=
  match (ch.joint j).thePrev with
  | none => 0
  | some (t, k) => if k < ch.cycle then rdivAway (wrapS 16 ((the : Int) - t)) (ch.cycle - k) else 0

/-- Writes `n` window words from `a`, low word first. -/
def putWin (w : Tab Half) (a n : Nat) (v : Int) : Tab Half :=
  forUpto n w fun i w => Tab.set w 0 (a + i) (BitVec.ofInt 16 (v / (2 ^ (16 * i) : Nat)))

/-- The current-task inputs of R83. -/
def ChanState.winCurrent (ch : ChanState) (j : Nat) (w : Tab Half) : Tab Half :=
  let x := ch.joint j
  let (ia, ib, ic, vdc, iv) := ch.currentSample j
  let the := ch.elecAngle j
  let w := putWin (putWin (putWin (putWin w 0x7C00 1 ia) 0x7C01 1 ib) 0x7C02 1 ic) 0x7C03 1 vdc
  let w := putWin (putWin w 0x7C04 1 the) 0x7C05 1 (ch.elecSpeed j the)
  let w := putWin (putWin w 0x7C06 1 (ch.get (Reg.JNT_REF_IDREF j))) 0x7C07 1 (ch.get (Reg.JNT_REF_IQREF j))
  let ton := !ch.bit (Reg.JNT_STS_TOFF j)
  let w := putWin w 0x7C08 1 (b2n iv + 2 * b2n x.actVal + 4 * b2n ton + 8 * b2n (ton && x.tfirstC) : Nat)
  putWin w 0x7C09 1 ch.bIdx

/-- The servo-task inputs of R83. -/
def ChanState.winServo (ch : ChanState) (j : Nat) (w : Tab Half) : Tab Half :=
  let x := ch.joint j
  let ton := !ch.bit (Reg.JNT_STS_TOFF j)
  let avel : Int := match x.actEv with
    | p :: q :: _ => rdiv (p - q) 4
    | _ => 0
  let w := putWin (putWin w 0x7C10 4 (ch.geti64 (Reg.PRF_JCPOS j))) 0x7C14 4 x.act
  let w := putWin (putWin w 0x7C18 2 (ch.get (Reg.PRF_JCVEL j))) 0x7C1A 2 (ch.get (Reg.PRF_JCACC j))
  let w := putWin (putWin w 0x7C1C 2 avel) 0x7C1E 1 (ch.get (Reg.JNT_TFF_TFF j))
  putWin w 0x7C1F 1 (b2n x.actVal + 2 * b2n ton + 4 * b2n (ton && x.tfirstS) : Nat)

/-- The task window as dispatch maps it: inputs, the joint's output and state words, the copy of its registers (R80, R81). -/
def ChanState.window (ch : ChanState) (j : Nat) : Tab Half :=
  let x := ch.joint j
  let w : Tab Half := forUpto 16 [] fun i w => Tab.set w 0 (0x7C40 + i) (Tab.get x.out 0 (0x7C40 + i))
  let w := forUpto 128 w fun i w => Tab.set w 0 (0x7C80 + i) (Tab.get x.st 0 (0x7C80 + i))
  let w := forUpto 28 w fun i w =>
    let v := (match rowAt (0x8000 + 256 * j + 4 * i) with
      | some r => ch.word ⟨0x8000 + 256 * j + 4 * i, r.rst, 0, 32⟩
      | none => 0).toNat
    putWin w (0x7D00 + 2 * i) 2 v
  ch.winServo j (ch.winCurrent j w)

/-- The program address at which a task starts (R84, R87, chapter 4's opening). -/
def ChanState.entryOf (ch : ChanState) (t : Task) : Nat :=
  if t.evt.isSome then t.entry
  else if t.kind = 4 then ch.get (Reg.JNT_UBG_BG t.joint)
  else if !ch.bit (Reg.JNT_CFG_LEVEL t.joint) then 0x8000
  else if t.kind = 1 then ch.get (Reg.JNT_UENT_CUR t.joint) else ch.get (Reg.JNT_UENT_SRV t.joint)

/-- The first current task of an EDGE joint after a takeover: its integrators from the kept edge set that the sample record reports,
its set-points from the measured currents; without such a set it starts from 0 (R346). -/
def ChanState.seedCurrent (ch : ChanState) (j : Nat) : ChanState :=
  if !tbit ch.red.seedC j then ch else
  let ch := { ch with red := { ch.red with seedC := insertBits ch.red.seedC j 1 0 } }
  let x := ch.joint j
  match (Tab.get ch.red.kept [] j).find? fun b => leAt b 2 2 == ch.get (Reg.BRK_ESTS_ESID j) with
  | none =>
    let ch := { ch.setJoint j x.zeroLoop with red := { ch.red with seedS := insertBits ch.red.seedS j 1 0 } }
    (ch.put Reg.RED_STS_SEEDMISS 1).fault 0x0D06 1 (some (ch.armOf j)) j 0
  | some b =>
    let (ia, ib, _, vdc, _) := ch.currentSample j
    let the := ch.elecAngle j
    let we := ch.elecSpeed j the
    let c := cosTurn the
    let s := sinTurn the
    let ibe := satS 16 (rdiv ((ia + 2 * ib) * 18919) (2 ^ 15))
    let iD := satS 16 (rdiv (ia * c + ibe * s) (2 ^ 15))
    let iQ := satS 16 (rdiv (ibe * c - ia * s) (2 ^ 15))
    let u := fun i => rdiv ((rdiv (((leAt b (6 + 4 * i) 2 : Int) - leAt b (4 + 4 * i) 2) * 8192) 1000 - 16384) * vdc) 32768
    let va := satS 16 (rdiv (2 * u 0 - u 1 - u 2) 3)
    let vb := satS 16 (rdiv ((u 1 - u 2) * 18919) (2 ^ 15))
    let vd := satS 16 (rdiv (va * c + vb * s) (2 ^ 15))
    let vq := satS 16 (rdiv (vb * c - va * s) (2 ^ 15))
    let dec := ch.bit (Reg.JNT_CFG_DECPL j)
    let td : Int := if dec then rdiv (we * ch.get (Reg.JNT_LDQ_LQ j) * iQ) (2 ^ 24) else 0
    let tq : Int := if dec then rdiv (we * ch.get (Reg.JNT_LDQ_LD j) * iD) (2 ^ 24) else 0
    let tb : Int := if ch.bit (Reg.JNT_CFG_BEMF j) then rdiv (we * ch.get (Reg.JNT_PSI_PSI j)) (2 ^ 8) else 0
    let dint := satS 16 (vd + td)
    let qint := satS 16 (vq - tq - tb)
    if ch.bit (Reg.JNT_CFG_LEVEL j) then
      ch.setJoint j { x with st := Tab.set (Tab.set x.st 0 0x7C80 (BitVec.ofInt 16 dint)) 0 0x7C81 (BitVec.ofInt 16 qint) }
    else
      ((ch.setJoint j { x with dint, qint }).puti (Reg.JNT_REF_IDREF j) iD).puti (Reg.JNT_REF_IQREF j) iQ

/-- Grants engine `n` its task (R88, R110, R125): the wait is counted, the registers cleared, the window mapped. -/
def ChanState.grant (ch : ChanState) (n q : Nat) (t : Task) (rest : List Task) : ChanState :=
  let wait := ch.now - t.rel
  let st := Tab.get ch.sch.stat {} q
  let st := { st with wmax := max st.wmax wait, wsum := st.wsum + wait, wn := st.wn + 1 }
  let ch := ch.setQueue q rest
  let ch := { ch with sch := { ch.sch with stat := Tab.set ch.sch.stat {} q { st with dmax := (Tab.get ch.sch.stat {} q).dmax } } }
  let ch := if t.kind = 1 ∧ t.evt.isNone then ch.seedCurrent t.joint else ch
  let the := ch.elecAngle t.joint
  let win := ch.window t.joint
  let x := ch.joint t.joint
  let ch := if t.kind = 1 ∧ t.evt.isNone then ch.setJoint t.joint { x with thePrev := some (the, ch.cycle) } else ch
  let e : Engine := { task := some t, win, epoch := ch.fresh, ran := true }
  let ch := (ch.nextFresh).setEngine n e
  ((((ch.put (Reg.LPE_STS_STATE n) 2).put (Reg.LPE_STS_JOINT n) t.joint).put (Reg.LPE_STS_KIND n) t.kind).put
    (Reg.LPE_PC_PC n) (ch.entryOf t))

/-- A waiting engine is granted a task, unless a lower-numbered one that waits is served first (R88). -/
def ChanState.dispatch (ch : ChanState) (n : Nat) : ChanState :=
  if !ch.asking n ∨ (List.range n).any (fun m => ch.asking m && (ch.eligible m).isSome) then ch else
  match ch.eligible n with
  | none => ch
  | some (q, t, rest) => ch.grant n q t rest

/-! ### Deadlines (R91) -/

/-- The tasks queued for, or running on, the loop engines. -/
def ChanState.liveTasks (ch : ChanState) : List Task :=
  ch.queue 0 ++ ch.queue 1 ++ ch.queue 2 ++ ch.queue 4 ++ ((List.range 8).filterMap fun n => (ch.engine n).task) ++
    match ch.slv.run with
    | some (.model t _ _) => [t]
    | _ => []

/-- Removes from queue `q` the tasks whose deadline has come, and aborts them (R91). -/
def ChanState.expireQueue (ch : ChanState) (q : Nat) : ChanState :=
  let out := (ch.queue q).filter fun t => decide (t.dl ≤ ch.now)
  let ch := if out.isEmpty then ch else ch.setQueue q ((ch.queue q).filter fun t => decide (ch.now < t.dl))
  out.foldl ChanState.taskAborted ch

/-- The next deadline: time moves there, and every task it finds queued or running is aborted (R91). -/
def ChanState.taskDeadline (ch : ChanState) : ChanState :=
  match (ch.liveTasks.map (·.dl)).min? with
  | none => ch
  | some d =>
    let ch := ch.advanceTo d
    let ch := [0, 1, 2, 4].foldl ChanState.expireQueue ch
    let ch := match ch.slv.run with
      | some (.model t _ _) => if t.dl ≤ ch.now then ch.abortModel else ch
      | _ => ch
    forUpto 8 ch fun n ch => match (ch.engine n).task with
      | some t => if t.dl ≤ ch.now then ch.abortRunning n else ch
      | none => ch

/-- A running task at its cycle limit (R91). -/
def ChanState.cycleLimit (ch : ChanState) (n : Nat) : ChanState :=
  match (ch.engine n).task with
  | none => ch
  | some t => (ch.setEngine n { ch.engine n with cyc := 8 * t.clim }).abortRunning n

/-- LPE_CTL.RESTART: an engine halted on a fault returns to ASK (R95). -/
def ChanState.engineRestart (ch : ChanState) (n : Nat) : ChanState :=
  if ch.get (Reg.LPE_STS_STATE n) = 3 then (ch.put (Reg.LPE_STS_FLT n) 0).engineIdle n else ch

/-- A write of LPE_CFG: locked outside COMMISSION and MAINTENANCE, discarded where it allows Q2 or Q3; EN = 0 halts the
engine at its next ASK (R8, R88, R95). -/
def ChanState.lpeCfgWrite (ch : ChanState) (n v : Nat) : ChanState :=
  if !ch.unlocked then ch.put Reg.HOST_ERR_LOCKW 1
  else if tbit v 6 ∨ tbit v 7 then ch
  else
    let ch := (ch.put (Reg.LPE_CFG_CMASK n) (v / 16)).put (Reg.LPE_CFG_EN n) v
    if (ch.engine n).task.isSome ∨ ch.get (Reg.LPE_STS_STATE n) = 3 then ch
    else ch.put (Reg.LPE_STS_STATE n) (v % 2)

/-! ### The commands -/

/-- TABLE_RELEASE (R86). -/
def execTableRelease (c : Chan) (s : State) : Host.Outcome State Fault Refusal := live s c ChanState.tableRelease

/-- RELEASE_RESUME (R90). -/
def execReleaseResume (c : Chan) (s : State) : Host.Outcome State Fault Refusal := live s c ChanState.releaseResume

/-- TASK_DISPATCH (R88). -/
def execTaskDispatch (c : Chan) (n : Fin 8) (s : State) : Host.Outcome State Fault Refusal :=
  live s c fun ch => ch.dispatch n.val

/-- TASK_DEADLINE (R91). -/
def execTaskDeadline (c : Chan) (s : State) : Host.Outcome State Fault Refusal := live s c ChanState.taskDeadline

/-- TASK_CYCLE_LIMIT (R91). -/
def execTaskCycleLimit (c : Chan) (n : Fin 8) (s : State) : Host.Outcome State Fault Refusal :=
  live s c fun ch => ch.cycleLimit n.val

/-- ENGINE_RESTART (R95): a write of LPE_CTL.RESTART. -/
def execEngineRestart (c : Chan) (n : Fin 8) (s : State) : Host.Outcome State Fault Refusal :=
  live s c fun ch => (ch.hostW .pcie).engineRestart n.val

/-- CLRMAX (R95): a write of LPE_CTL.CLRMAX. -/
def execClrmax (c : Chan) (n : Fin 8) (s : State) : Host.Outcome State Fault Refusal :=
  live s c fun ch => (ch.hostW .pcie).put (Reg.LPE_CYC_MAX n.val) 0

/-- ENGINE_ENABLE_WRITE (R95): a write of LPE_CFG. -/
def execEngineEnableWrite (c : Chan) (n : Fin 8) (v : Word) (s : State) : Host.Outcome State Fault Refusal :=
  live s c fun ch => (ch.hostW .pcie).lpeCfgWrite n.val v.toNat

/-- ILLEGAL_INSTRUCTION (R126): a word that does not stand halts the engine that meets it. -/
def execIllegalInstruction (c : Chan) (n : Fin 8) (w : Word) (s : State) : Host.Outcome State Fault Refusal :=
  live s c fun ch => if (ch.engine n.val).task.isSome && !leLegal w.toNat then ch.engineHalt n.val 1 else ch

end Sys2Proof.Machine
end

