-- ==== Sys2Proof/Machine/PowerOut.lean ====
section
/-!
DEFINITION. The commands of the power outputs (R132 to R160); the records of the bus are sent and taken in the Cell Bus
files.
-/
namespace Sys2Proof.Machine

open Sys2Proof

/-- PWM_RELOAD (R136). -/
def execPwmReload (c : Chan) (u : Fin 16) (s : State) : Host.Outcome State Fault Refusal :=
  live s c fun ch => ch.pwmReload u.val

/-- PWM_EDGE (R133, R134). -/
def execPwmEdge (c : Chan) (u : Fin 16) (ph : Fin 3) (on : Bool) (s : State) : Host.Outcome State Fault Refusal :=
  live s c fun ch => ch.pwmEdge u.val ph.val on

/-- LOADALL (R138): a write of PWM_LOADALL. -/
def execLoadall (c : Chan) (units : BitVec 16) (s : State) : Host.Outcome State Fault Refusal :=
  live s c fun ch => (ch.hostW .pcie).loadall units.toNat

/-- TRIP (R142). -/
def execTrip (c : Chan) (u : Fin 16) (s : State) : Host.Outcome State Fault Refusal := live s c fun ch => ch.trip u.val

/-- TRIP_INPUT_RELEASE (R142). -/
def execTripInputRelease (c : Chan) (u : Fin 16) (s : State) : Host.Outcome State Fault Refusal :=
  live s c fun ch => ch.put (Reg.PWM_TRIPSTS_TRIPIN u.val) 0

/-- TRIPCLR (R143): a write of PWM_TRIPCLR.CLR. -/
def execTripclr (c : Chan) (u : Fin 16) (s : State) : Host.Outcome State Fault Refusal :=
  live s c fun ch => (ch.hostW .pcie).tripClear u.val

/-- PWM_ENABLE_WRITE (R140, R141): a write of PWM_CTL. -/
def execPwmEnableWrite (c : Chan) (u : Fin 16) (v : Word) (s : State) : Host.Outcome State Fault Refusal :=
  live s c fun ch => (ch.hostW .pcie).pwmEnable u.val v.toNat

/-- SIGMA_DELTA_SAMPLE_READY (R144, R145). -/
def execSigmaDeltaSampleReady (c : Chan) (src : SdInput) (x : BitVec 16) (s : State) : Host.Outcome State Fault Refusal :=
  live s c fun ch => ch.sdSample src x.toInt

/-- SIGMA_DELTA_INPUT_INVALID (R145). -/
def execSigmaDeltaInputInvalid (c : Chan) (src : SdInput) (s : State) : Host.Outcome State Fault Refusal :=
  live s c fun ch => ch.sdInvalid src

/-- BRICK_TRIP_CLEAR (R147): a write of BRK_ETCLR. -/
def execBrickTripClear (c : Chan) (mask : BitVec 64) (s : State) : Host.Outcome State Fault Refusal :=
  live s c fun ch => (ch.hostW .pcie).brickClear mask.toNat

/-- MICROSTEP_EMIT (R158). -/
def execMicrostepEmit (c : Chan) (n : Fin 8) (s : State) : Host.Outcome State Fault Refusal :=
  live s c fun ch => ch.microstep n.val

/-- COIL_THRESHOLD_REACHED (R157). -/
def execCoilThresholdReached (c : Chan) (n : Fin 8) (coil : Coil) (s : State) : Host.Outcome State Fault Refusal :=
  live s c fun ch => ch.coilThreshold n.val coil

/-- COIL_OFF_END (R157). -/
def execCoilOffEnd (c : Chan) (n : Fin 8) (coil : Coil) (s : State) : Host.Outcome State Fault Refusal :=
  live s c fun ch => ch.coilOffEnd n.val coil

/-- COIL_NO_TRIP (R157). -/
def execCoilNoTrip (c : Chan) (n : Fin 8) (coil : Coil) (s : State) : Host.Outcome State Fault Refusal :=
  live s c fun ch => ch.coilNoTrip n.val coil

/-- MIXED_DECAY_FAST_END (R157). -/
def execMixedDecayFastEnd (c : Chan) (n : Fin 8) (coil : Coil) (s : State) : Host.Outcome State Fault Refusal :=
  live s c fun ch => ch.fastEnd n.val coil

/-- HOLD_DELAY_EXPIRY (R156). -/
def execHoldDelayExpiry (c : Chan) (n : Fin 8) (s : State) : Host.Outcome State Fault Refusal :=
  live s c fun ch => ch.holdDelay n.val

end Sys2Proof.Machine
end

