-- ==== Sys2Proof/Machine/Time.lean ====
section
/-!
DEFINITION. Time domains, time-event units and the plant domains' PTP instances (R320 to R334).
-/
namespace Sys2Proof.Machine

open Sys2Proof

/-! ### Domains -/

/-- A domain's raw count, its advance per tick and its fraction bits: 0 cell, 1 and 2 plant, 3 monotonic (R320). -/
def ChanState.domRaw (ch : ChanState) (d : Nat) : Nat × Nat × Nat :=
  match d with
  | 0 => (ch.ct, ch.get Reg.CBUS_INC_INC, 16)
  | 1 => (ch.pt1, ch.get (Reg.TIM_PINC 0), 24)
  | 2 => (ch.pt2, ch.get (Reg.TIM_PINC 1), 24)
  | _ => (ch.mono, 4, 0)

/-- A domain's value in whole ns. -/
def ChanState.dom (ch : ChanState) (d : Nat) : Nat := let (v, _, f) := ch.domRaw d; v / 2 ^ f

/-- The ticks after which domain `d` has advanced by `ns`. -/
def ChanState.domTicks (ch : ChanState) (d ns : Nat) : Nat :=
  let (v, inc, f) := ch.domRaw d
  let need := (v / 2 ^ f + ns) * 2 ^ f - v
  if inc = 0 then 0 else (need + inc - 1) / inc

/-- Moves time on until the monotonic time has reached `t`. -/
def ChanState.advanceMono (ch : ChanState) (t : Nat) : ChanState :=
  if ch.mono < t then ch.ticks ((t - ch.mono + 3) / 4) else ch

/-- Replaces plant domain `n` (0 or 1). -/
def ChanState.setPt (ch : ChanState) (n v : Nat) : ChanState :=
  if n = 0 then { ch with pt1 := v % 2 ^ 88 } else { ch with pt2 := v % 2 ^ 88 }

/-- Division by a value the spec lets be 0 without stating the result. -/
def divOr (a b : Int) : Int := if b = 0 then (Config.divZero a).toInt else a / b

/-- Division to a whole number by a rounding the spec does not state: one of the two neighbours. -/
def divFree (k : Nat) (a : Int) (b : Nat) : Int :=
  a / b + (if a % b = 0 then 0 else (Config.roundUp k).toNat)

/-! ### Time events (R327 to R332) -/

def ChanState.tevU (ch : ChanState) (n : Nat) : Tev := Tab.get ch.tev {} n
def ChanState.setTev (ch : ChanState) (n : Nat) (t : Tev) : ChanState := { ch with tev := Tab.set ch.tev {} n t }

/-- Fires unit `n` at the present tick (R329); a periodic unit advances its target and stays armed. -/
def ChanState.tevFire (ch : ChanState) (n : Nat) : ChanState :=
  let t := ch.tevU n
  let d := ch.get (Reg.TIM_EVCFG_DOM n)
  let ch := ((ch.put64 (Reg.TIM_EVTS n) (ch.dom d)).add (Reg.TIM_EVCNT_FIRE n) 1).put (Reg.TIM_EVSTS_FIRED n) 1
  let ch := if ch.get (Reg.TIM_EVCFG_MODE n) = 2 then
      ch.setTev n { t with tgt := (t.tgt + ch.get (Reg.TIM_EVPER n)) % 2 ^ 32 }
    else ch.put (Reg.TIM_EVSTS_ARMED n) 0
  let ch := if ch.bit (Reg.TIM_EVCFG_PIN n) then
      ch.setTev n { ch.tevU n with pinTill := some (ch.mono + 1000 * (ch.get (Reg.TIM_EVCFG_PW n) + 1)) }
    else ch
  if ch.bit (Reg.TIM_EVCFG_EVT n) then ch.event (0x28 + n) else ch

/-- Arms unit `n` for a 64-bit target (R328). -/
def ChanState.tevArm (ch : ChanState) (n : Nat) (target : Int) : ChanState :=
  let d := target - ch.dom (ch.get (Reg.TIM_EVCFG_DOM n))
  if 2147483647 < d.natAbs then
    (((ch.put (Reg.TIM_EVSTS_RANGE n) 1).put (Reg.TIM_EVSTS_ARMED n) 0)).fault 0x0C03 0 none n 0
  else
    let ch := (ch.setTev n { ch.tevU n with tgt := ofInt 32 target }).put (Reg.TIM_EVSTS_ARMED n) 1
    if d ≤ 0 then ((ch.put (Reg.TIM_EVSTS_LATE n) 1).ticks 1).tevFire n else ch

/-- A trigger of unit `n` with a cell-time stamp (R330). -/
def ChanState.tevTrigger (ch : ChanState) (n : Nat) (ts : Int) : ChanState :=
  if ch.get (Reg.TIM_EVCFG_MODE n) ≠ 3 then ch
  else if ch.bit (Reg.TIM_EVSTS_ARMED n) then (ch.put (Reg.TIM_EVSTS_OVR n) 1).add (Reg.TIM_EVCNT_OVR n) 1
  else ch.tevArm n (ts + ((ch.dom (ch.get (Reg.TIM_EVCFG_DOM n)) : Int) - ch.now) + ch.get (Reg.TIM_EVDLY n))

/-- Unit `n` reaches its target: time moves to the tick at which its domain has passed it (R328, R329). -/
def ChanState.tevReach (ch : ChanState) (n : Nat) : ChanState :=
  if !ch.bit (Reg.TIM_EVSTS_ARMED n) then ch else
  let d := ch.get (Reg.TIM_EVCFG_DOM n)
  let left := wrapS 32 ((ch.tevU n).tgt - ch.dom d)
  (if 0 < left then ch.ticks (ch.domTicks d left.toNat) else ch).tevFire n

/-- The armed units of domain `d` whose target a step has passed fire, without LATE (R331). -/
def ChanState.tevStep (ch : ChanState) (d : Nat) : ChanState :=
  forUpto 8 ch fun n ch =>
    if ch.bit (Reg.TIM_EVSTS_ARMED n) && ch.get (Reg.TIM_EVCFG_DOM n) == d && decide (0 ≤ wrapS 32 ((ch.dom d : Int) - (ch.tevU n).tgt))
    then ch.tevFire n else ch

/-- Cell time was acquired or lost: its armed units are disarmed (R331). -/
def ChanState.tevCancel (ch : ChanState) : ChanState :=
  forUpto 8 ch fun n ch =>
    if ch.bit (Reg.TIM_EVSTS_ARMED n) && ch.get (Reg.TIM_EVCFG_DOM n) == 0 then
      (ch.put (Reg.TIM_EVSTS_ARMED n) 0).put (Reg.TIM_EVSTS_CANC n) 1
    else ch

/-- The pin of unit `n` returns high (R329). -/
def ChanState.tevPulseEnd (ch : ChanState) (n : Nat) : ChanState :=
  match (ch.tevU n).pinTill with
  | some t => (ch.advanceMono t).setTev n { ch.tevU n with pinTill := none }
  | none => ch

/-- Writes of a unit's target, period and delay (R327, R328, R330). -/
def ChanState.evtgtHi (ch : ChanState) (n v : Nat) : ChanState :=
  let ch := ch.put (Reg.TIM_EVTGT_HI n) v
  let m := ch.get (Reg.TIM_EVCFG_MODE n)
  if m = 1 ∨ m = 2 then ch.tevArm n (ch.get64 (Reg.TIM_EVTGT n)) else ch

def ChanState.evper (ch : ChanState) (n v : Nat) : ChanState :=
  if 1000 ≤ v ∧ v ≤ 2147483647 then ch.put (Reg.TIM_EVPER n) v else ch

def ChanState.evdly (ch : ChanState) (n v : Nat) : ChanState :=
  if v ≤ 2147483647 then ch.put (Reg.TIM_EVDLY n) v
  else (ch.put (Reg.TIM_EVSTS_RANGE n) 1).fault 0x0C03 0 none n 0

/-- A write of TIM_EVCFG in COMMISSION or MAINTENANCE: mode off disarms (R327). -/
def ChanState.evcfg (ch : ChanState) (n : Nat) : ChanState :=
  if ch.get (Reg.TIM_EVCFG_MODE n) = 0 then ch.put (Reg.TIM_EVSTS_ARMED n) 0 else ch

/-! ### Plant domains (R321 to R324) -/

/-- A write of TIM_PnINC: 4.0 ns within 500 ppm, else discarded (R321). -/
def ChanState.pninc (ch : ChanState) (n v : Nat) : ChanState :=
  if 0x03FF7CEE ≤ v ∧ v ≤ 0x04008312 then ch.put (Reg.TIM_PINC n) v
  else (ch.put (Reg.TIM_PSTS_INCREJ n) 1).fault 0x0C04 0 none (n + 1) 0

/-- A step of plant domain `n` by signed ns at the next tick (R321, R331). -/
def ChanState.pnstep (ch : ChanState) (n : Nat) (ns : Int) : ChanState :=
  let ch := ch.ticks 1
  let v : Int := if n = 0 then ch.pt1 else ch.pt2
  (ch.setPt n (ofInt 88 (v + ns * (2 ^ 24 : Nat)))).tevStep (n + 1)

def ChanState.ptpU (ch : ChanState) (n : Nat) : Ptp := Tab.get ch.ptp {} n
def ChanState.setPtp (ch : ChanState) (n : Nat) (p : Ptp) : ChanState := { ch with ptp := Tab.set ch.ptp {} n p }

/-- Whether the plant port serves domain `n`'s protocol instance (R323, R411). -/
def ChanState.ptpOn (ch : ChanState) (n : Nat) : Bool := ch.bit (Reg.TIM_PCFG_EN n) && !ch.blockDown 2

/-- LOCK of domain `n`; a change raises event 0x39 (R324, R366). -/
def ChanState.ptpLock (ch : ChanState) (n : Nat) (on : Bool) : ChanState :=
  if ch.bit (Reg.TIM_PSTS_LOCK n) = on then ch else (ch.putb (Reg.TIM_PSTS_LOCK n) on).event 0x39

/-- A Sync: its receive stamp, corrected; a one-step Sync carries its origin time (R324, R325). -/
def ChanState.ptpSync (ch : ChanState) (n : Nat) (m : SyncMsg) : ChanState :=
  if !ch.ptpOn n then ch else
  ch.setPtp n { ch.ptpU n with haveSync := true, syncRx := m.rx, syncSeq := m.seq.toNat, syncCorr := m.corr
                               syncOrg := if m.twoStep then none else some m.origin }

/-- The Follow_Up of the last Sync (R323, R324). -/
def ChanState.ptpFollow (ch : ChanState) (n : Nat) (m : FollowUpMsg) : ChanState :=
  let p := ch.ptpU n
  if ch.ptpOn n && p.haveSync && p.syncSeq == m.seq.toNat && p.syncOrg.isNone then
    ch.setPtp n { p with syncOrg := some m.origin, syncCorr := p.syncCorr + m.corr }
  else ch

/-- An Announce: the better grandmaster is selected; a change sets GMCHG and records F0 0x0C02 (R323, R324). -/
def ChanState.ptpAnnounce (ch : ChanState) (n : Nat) (m : AnnounceMsg) : ChanState :=
  if !ch.ptpOn n then ch else
  let p := ch.ptpU n
  let gm := ch.get64 (Reg.TIM_PGM n)
  if !p.gmSet then
    ((ch.setPtp n { p with gmSet := true, rank := m.rank }).put64 (Reg.TIM_PGM n) m.gm.toNat).put (Reg.TIM_PSTS_STATE n) 2
  else if gm = m.gm.toNat then ch.setPtp n { p with rank := m.rank }
  else if m.rank < p.rank then
    let ch := ((ch.setPtp n { p with rank := m.rank, haveSync := false, reqTx := none }).put64 (Reg.TIM_PGM n) m.gm.toNat)
    ((ch.put (Reg.TIM_PSTS_STATE n) 2).put (Reg.TIM_PSTS_GMCHG n) 1).fault 0x0C02 0 none (n + 1) 0
  else ch

/-- A Delay_Req is sent, stamped at its egress (R323, R325). -/
def ChanState.ptpDelayReq (ch : ChanState) (n : Nat) : ChanState :=
  if !ch.ptpOn n then ch else
  let p := ch.ptpU n
  let seq := (p.reqSeq + 1) % 65536
  { ch.setPtp n { p with reqSeq := seq, reqTx := some (ch.dom (n + 1)) } with sent := ch.sent ++ [.delayReq n seq] }

/-- What a measured offset does under the firmware servo (R324): beyond STEPT one step removes it, else a proportional-integral
law, whose gains the spec does not give, moves the increment. -/
def ChanState.ptpServo (ch : ChanState) (n : Nat) (ofs : Int) : ChanState :=
  if !ch.bit (Reg.TIM_PCFG_SERVO n) then ch
  else if (1000 * ch.get (Reg.TIM_PCFG_STEPT n) : Int) < ofs.natAbs then ch.pnstep n (-ofs)
  else (ch.put (Reg.TIM_PINC n) (0x03FF7CEE + (Config.servoInc ch.fresh).toNat % 0x10625)).nextFresh

/-- A Delay_Resp: meanPathDelay and offsetFromMaster from the corrected stamps, LOCK over the last eight offsets, the servo
(R324, R325). -/
def ChanState.ptpDelayResp (ch : ChanState) (n : Nat) (m : DelayRespMsg) : ChanState :=
  let p := ch.ptpU n
  match p.reqTx, p.syncOrg with
  | some t3, some t1 =>
    if !ch.ptpOn n ∨ m.seq.toNat ≠ p.reqSeq ∨ !p.haveSync then ch else
    let t2 : Int := 256 * p.syncRx - ch.geti (Reg.TIM_ASYM_ING 0)
    let t3 : Int := 256 * t3 + ch.geti (Reg.TIM_ASYM_EGR 0)
    let dly := (t2 - t3) + 256 * (m.t4 - t1 - p.syncCorr - m.corr)
    let mpd := divFree ch.fresh dly 512
    let ofs := divFree (ch.fresh + 1) (2 * (t2 - 256 * (t1 + p.syncCorr)) - dly) 512
    let offs := (ofs :: p.offs).take 8
    let ch := ((ch.nextFresh).nextFresh).setPtp n { p with offs, reqTx := none }
    let ch := (ch.puti (Reg.TIM_PMPD n) mpd).puti (Reg.TIM_POFS n) ofs
    let ch := ch.put (Reg.TIM_PSTS_STATE n) 3
    let ch := ch.ptpLock n (offs.length == 8 && offs.all fun o => decide (o.natAbs ≤ ch.get (Reg.TIM_PCFG_LOCKT n)))
    ch.ptpServo n ofs
  | _, _ => ch

/-- No Sync for announceReceiptTimeout Announce intervals: LISTENING, F1 0x0C01 (R324). -/
def ChanState.ptpTimeout (ch : ChanState) (n : Nat) : ChanState :=
  if !ch.ptpOn n then ch else
  let ch := ch.setPtp n { ch.ptpU n with haveSync := false, gmSet := false, reqTx := none, offs := [] }
  ((ch.ptpLock n false).put (Reg.TIM_PSTS_STATE n) 1).fault 0x0C01 1 none (n + 1) 0

/-- TIM_CTL.SNAP (R326). -/
def ChanState.snap (ch : ChanState) : ChanState := forUpto 4 ch fun d ch => ch.put64 (Reg.TIM_SNAP d) (ch.dom d)

/-! ### The commands -/

/-- SYNC (R324). -/
def execSync (c : Chan) (n : Fin 2) (m : SyncMsg) (s : State) : Host.Outcome State Fault Refusal :=
  live s c fun ch => ch.ptpSync n.val m

/-- FOLLOW_UP (R323). -/
def execFollowUp (c : Chan) (n : Fin 2) (m : FollowUpMsg) (s : State) : Host.Outcome State Fault Refusal :=
  live s c fun ch => ch.ptpFollow n.val m

/-- ANNOUNCE (R323, R324). -/
def execAnnounce (c : Chan) (n : Fin 2) (m : AnnounceMsg) (s : State) : Host.Outcome State Fault Refusal :=
  live s c fun ch => ch.ptpAnnounce n.val m

/-- DELAY_REQ (R323, R325). -/
def execDelayReq (c : Chan) (n : Fin 2) (s : State) : Host.Outcome State Fault Refusal :=
  live s c fun ch => ch.ptpDelayReq n.val

/-- DELAY_RESP (R324). -/
def execDelayResp (c : Chan) (n : Fin 2) (m : DelayRespMsg) (s : State) : Host.Outcome State Fault Refusal :=
  live s c fun ch => ch.ptpDelayResp n.val m

/-- ANNOUNCE_RECEIPT_TIMEOUT (R324). -/
def execAnnounceReceiptTimeout (c : Chan) (n : Fin 2) (s : State) : Host.Outcome State Fault Refusal :=
  live s c fun ch => ch.ptpTimeout n.val

/-- PNINC_WRITE (R321). -/
def execPnincWrite (c : Chan) (n : Fin 2) (v : Word) (s : State) : Host.Outcome State Fault Refusal :=
  live s c fun ch => (ch.hostW .pcie).pninc n.val v.toNat

/-- PNSTEP_WRITE (R321, R331). -/
def execPnstepWrite (c : Chan) (n : Fin 2) (v : Word) (s : State) : Host.Outcome State Fault Refusal :=
  live s c fun ch => (ch.hostW .pcie).pnstep n.val v.toInt

/-- PSEL_WRITE (R322). -/
def execPselWrite (c : Chan) (v : Word) (s : State) : Host.Outcome State Fault Refusal :=
  live s c fun ch => (ch.hostW .pcie).put Reg.TIM_PSEL_SEL v.toNat

/-- SNAP (R326). -/
def execSnap (c : Chan) (s : State) : Host.Outcome State Fault Refusal := live s c fun ch => (ch.hostW .pcie).snap

/-- EVTGT_HI_WRITE (R328). -/
def execEvtgtHiWrite (c : Chan) (n : Fin 8) (v : Word) (s : State) : Host.Outcome State Fault Refusal :=
  live s c fun ch => (ch.hostW .pcie).evtgtHi n.val v.toNat

/-- EVPER_WRITE (R328). -/
def execEvperWrite (c : Chan) (n : Fin 8) (v : Word) (s : State) : Host.Outcome State Fault Refusal :=
  live s c fun ch => (ch.hostW .pcie).evper n.val v.toNat

/-- EVDLY_WRITE (R330). -/
def execEvdlyWrite (c : Chan) (n : Fin 8) (v : Word) (s : State) : Host.Outcome State Fault Refusal :=
  live s c fun ch => (ch.hostW .pcie).evdly n.val v.toNat

/-- TIME_EVENT_FIRE (R329). -/
def execTimeEventFire (c : Chan) (n : Fin 8) (s : State) : Host.Outcome State Fault Refusal :=
  live s c fun ch => ch.tevReach n.val

/-- TEV_PULSE_END (R329). -/
def execTevPulseEnd (c : Chan) (n : Fin 8) (s : State) : Host.Outcome State Fault Refusal :=
  live s c fun ch => ch.tevPulseEnd n.val

end Sys2Proof.Machine
end

