-- ==== Sys2Proof/Machine/Feedback.lean ====
section
/-!
DEFINITION. Masters, compare units, divided-pulse outputs and encoder ports (R64, R69 to R72, R169 to R190).
-/
namespace Sys2Proof.Machine

open Sys2Proof

/-! ### Masters (R64) -/

/-- The value of source `src`, index `idx`, in 2^-16 count as it stands at the last latch; none where it is invalid. -/
def ChanState.master (ch : ChanState) (src idx : Nat) : Option Int :=
  match src with
  | 0 => if decide (idx < 24) && ch.bit (Reg.ENC_CFG_MODE idx) && ch.bit (Reg.ENC_STS_VALID idx) then
      some ((ch.encU idx).cnt0 * 65536) else none
  | 1 => if 3 ≤ ch.get (Reg.JNT_BIND_KIND idx) ∧ ch.remValid idx then some (ch.remU idx).lat else none
  | 2 => if ch.bound idx then some (ch.geti64 (Reg.PRF_JCPOS idx)) else none
  | 3 => if ch.bound idx && (ch.joint idx).actVal then some (ch.joint idx).act else none
  | 4 => if idx < 4 then some (ch.geti64 (Reg.PRF_VMPOS idx)) else none
  | _ => none

/-- The live value of a source, for arming and for counts taken at every sample. -/
def ChanState.masterLive (ch : ChanState) (src idx : Nat) : Option Int :=
  match src with
  | 0 => (ch.master 0 idx).map fun _ => ch.geti64 (Reg.ENC_CNT idx) * 65536
  | _ => ch.master src idx

/-! ### Compare units (R69 to R72) -/

def ChanState.cmpU (ch : ChanState) (n : Nat) : Cmp := Tab.get ch.cmps {} n
def ChanState.setCmp (ch : ChanState) (n : Nat) (x : Cmp) : ChanState := { ch with cmps := Tab.set ch.cmps {} n x }

/-- Unit `n` fires with time-stamp `ts` (R69, R72). -/
def ChanState.cmpFire (ch : ChanState) (n : Nat) (ts : Int) : ChanState :=
  let ch := (((ch.put (Reg.CMP_STS_ARMED n) 0).put (Reg.CMP_STS_FIRED n) 1).puti64 (Reg.CMP_TS n) ts).add (Reg.CMP_CNT n) 1
  let ch := if ch.bit (Reg.CMP_CFG_PIN n) then
      ch.setCmp n { ch.cmpU n with pinTill := some (ch.now + 128 * (ch.get (Reg.CMP_CFG_PW n) + 1)) } else ch
  let ch := if ch.bit (Reg.CMP_CFG_EVT n) then ch.event n else ch
  if ch.bit (Reg.CMP_CFG_TEVT n) then ch.tevTrigger (ch.get (Reg.CMP_CFG_TEV n)) ts else ch

/-- Whether a move from `p` to `q` crosses `c` in an allowed direction (R69). -/
def crosses (dir : Nat) (p q c : Int) : Bool :=
  (decide (p < c ∧ c ≤ q) && (dir == 0 || dir == 1)) || (decide (q ≤ c ∧ c < p) && (dir == 0 || dir == 2))

/-- A new value of unit `n`'s source: the direction of travel, and the firing of an armed unit it crosses (R69, R70). -/
def ChanState.cmpSample (ch : ChanState) (n : Nat) (q : Int) (ts : Int → Int) : ChanState :=
  let x := ch.cmpU n
  let p := x.prev.getD q
  let ch := ch.setCmp n { x with prev := some q, neg := if q = p then x.neg else decide (q < p) }
  let c := ch.geti64 (Reg.CMP_POS n)
  if ch.bit (Reg.CMP_STS_ARMED n) && crosses (ch.get (Reg.CMP_CFG_DIR n)) p q c then ch.cmpFire n (ts p) else ch

/-- A write of CMP_POS_HI arms unit `n`; a position behind the source fires it at once or waits for a later crossing
(R69 to R71). -/
def ChanState.cmpArm (ch : ChanState) (n hi : Nat) : ChanState :=
  let ch := (ch.put (Reg.CMP_POS_HI n) hi).put (Reg.CMP_STS_ARMED n) 1
  let c := ch.geti64 (Reg.CMP_POS n)
  match ch.masterLive (ch.get (Reg.CMP_CFG_SRC n)) (ch.get (Reg.CMP_CFG_IDX n)) with
  | none => ch
  | some v =>
    let x := ch.cmpU n
    let ch := ch.setCmp n { x with prev := some v }
    if c = v ∨ (if x.neg then v < c else c < v) then
      if ch.bit (Reg.CMP_CFG_PASSED n) then (ch.cmpFire n ch.now).put (Reg.CMP_STS_PASTFIRE n) 1
      else ch.put (Reg.CMP_STS_BEHIND n) 1
    else ch

/-- The pin of unit `n` returns high (R72). -/
def ChanState.cmpPulseEnd (ch : ChanState) (n : Nat) : ChanState :=
  match (ch.cmpU n).pinTill with
  | some t => (ch.advanceTo t).setCmp n { ch.cmpU n with pinTill := none }
  | none => ch

/-! ### Divided-pulse outputs (R187, R188) -/

def ChanState.dpoU (ch : ChanState) (m : Nat) : Dpo := Tab.get ch.dpo {} m
def ChanState.setDpo (ch : ChanState) (m : Nat) (x : Dpo) : ChanState := { ch with dpo := Tab.set ch.dpo {} m x }

/-- DPO_PEND, its overflow flag and F1 0x0708 (R188). -/
def ChanState.dpoPend (ch : ChanState) (m : Nat) : ChanState :=
  let p := ch.geti64 (Reg.DPO_OUT m) - ch.geti64 (Reg.DPO_EMIT m)
  let ch := ch.puti (Reg.DPO_PEND m) p
  if ch.get (Reg.DPO_PLIM m) < p.natAbs then (ch.put (Reg.DPO_STS_PNDOVF m) 1).fault 0x0708 1 none m 0 else ch

/-- An input update of output `m`, in whole counts (R188). -/
def ChanState.dpoInput (ch : ChanState) (m : Nat) (v : Int) : ChanState :=
  if !ch.bit (Reg.DPO_CFG_EN m) then ch else
  let x := ch.dpoU m
  let d := v - x.inP.getD v
  let ch := ch.setDpo m { x with inP := some v }
  if d = 0 then ch else
  let den := ch.get (Reg.DPO_DEN m)
  let acc : Int := ch.get (Reg.DPO_REM m) + d * ch.get (Reg.DPO_NUM m)
  let q := divOr acc den
  ((ch.puti (Reg.DPO_REM m) (acc - q * den)).puti64 (Reg.DPO_OUT m) (ch.geti64 (Reg.DPO_OUT m) + q)).dpoPend m

/-- The interval of output `m` restarts from the present input (R188). -/
def ChanState.dpoRestart (ch : ChanState) (m : Nat) : ChanState :=
  let v := ch.masterLive (ch.get (Reg.DPO_CFG_SRC m)) (ch.get (Reg.DPO_CFG_IDX m))
  (ch.setDpo m { ch.dpoU m with inP := v.map (· / 65536) }).put (Reg.DPO_REM m) 0

/-- Whether a source code and index may be named by a host write (R64). -/
def sourceOk (src idx : Nat) : Bool :=
  match src with
  | 0 => decide (idx < 24)
  | 1 => decide (idx < 64)
  | 2 => decide (idx < 64)
  | 3 => decide (idx < 64)
  | 4 => decide (idx < 4)
  | _ => false

/-- A write that enables the output or sets its ratio, locked outside COMMISSION and MAINTENANCE (R8, R64, R188). -/
def ChanState.dpoWrite (ch : ChanState) (m : Nat) (which : DpoParam) (v : Nat) : ChanState :=
  if !ch.unlocked then ch.put Reg.HOST_ERR_LOCKW 1 else
  match which with
  | .num => (ch.put (Reg.DPO_NUM m) v).dpoRestart m
  | .den => (ch.put (Reg.DPO_DEN m) v).dpoRestart m
  | .enable =>
    if !sourceOk (v / 16 % 8) (v / 256 % 64) then ch else
    let ch := ((((ch.put (Reg.DPO_CFG_MINSP m) (v / 65536)).put (Reg.DPO_CFG_IDX m) (v / 256)).put (Reg.DPO_CFG_SRC m)
      (v / 16)).put (Reg.DPO_CFG_INV m) (v / 2)).put (Reg.DPO_CFG_EN m) v
    if v % 2 = 1 then ch.dpoRestart m else ch

/-- One pending edge of output `m` is emitted, MINSP ticks after the last (R188). -/
def ChanState.dpoEdge (ch : ChanState) (m : Nat) : ChanState :=
  let p := ch.geti64 (Reg.DPO_OUT m) - ch.geti64 (Reg.DPO_EMIT m)
  if !ch.bit (Reg.DPO_CFG_EN m) ∨ p = 0 then ch else
  let ch := ch.advanceMono ((ch.dpoU m).last + 4 * ch.get (Reg.DPO_CFG_MINSP m))
  let ch := ch.setDpo m { ch.dpoU m with last := ch.mono }
  let ch := ch.puti64 (Reg.DPO_EMIT m) (ch.geti64 (Reg.DPO_EMIT m) + (if 0 < p then 1 else -1))
  ch.puti (Reg.DPO_PEND m) (ch.geti64 (Reg.DPO_OUT m) - ch.geti64 (Reg.DPO_EMIT m))

/-! ### Counting (R173 to R175, R182) -/

/-- A change of a port's count: compare units and divided-pulse outputs on the port take it (R69, R187). -/
def ChanState.encMove (ch : ChanState) (p : Nat) (cnt ts : Int) : ChanState :=
  let ch := ch.puti64 (Reg.ENC_CNT p) cnt
  let ch := forUpto 16 ch fun n ch =>
    if ch.get (Reg.CMP_CFG_SRC n) == 0 && ch.get (Reg.CMP_CFG_IDX n) == p && ch.bit (Reg.ENC_STS_VALID p) then
      ch.cmpSample n (cnt * 65536) fun _ => ts
    else ch
  forUpto 4 ch fun m ch =>
    if ch.get (Reg.DPO_CFG_SRC m) == 0 && ch.get (Reg.DPO_CFG_IDX m) == p && ch.bit (Reg.ENC_STS_VALID p) then ch.dpoInput m cnt
    else ch

/-- The direction of travel after a counted edge or a sample (R182). -/
def ChanState.encDir (ch : ChanState) (p : Nat) (ts : Int) : ChanState :=
  let e := ch.encU p
  let c := ch.geti64 (Reg.ENC_CNT p)
  let neg := ch.bit (Reg.ENC_STS_DIRNOW p)
  let back := if neg then c - e.turn else e.turn - c
  if back ≤ 0 then ch.setEnc p { e with turn := c }
  else if (ch.get (Reg.ENC_CFG_DHYS p) : Int) + 1 ≤ back then
    let ch := (ch.setEnc p { e with turn := c }).putb (Reg.ENC_STS_DIRNOW p) (!neg)
    ((ch.put (Reg.ENC_STS_DIR p) 1).puti64 (Reg.ENC_DIRTS p) ts).event (0x10 + p)
  else ch

/-- Whether ports count: from the load step on, in every state but LOADER (R170). -/
def ChanState.encLive (ch : ChanState) : Bool := ch.loaded && ch.get Reg.CHN_STATE_CODE != 0xB

/-- The delay of an accepted edge in ns (R172). -/
def ChanState.encDelay (ch : ChanState) (p : Nat) : Nat := 4 * (ch.get (Reg.ENC_CFG_FLT p) + 1)

/-- Position of a pair of levels in the quadrature order, A before B (R173). -/
def quadIdx (a b : Bool) : Nat :=
  match a, b with
  | false, false => 0
  | true, false => 1
  | true, true => 2
  | false, true => 3

/-- Accepted levels of A and B: one edge counts, two in one sample are an error (R173). -/
def ChanState.encEdge (ch : ChanState) (p : Nat) (a b : Bool) : ChanState :=
  if !ch.encLive ∨ ch.get (Reg.ENC_CFG_MODE p) ≠ 1 then ch else
  let e := ch.encU p
  let ts : Int := (ch.now : Int) - ch.encDelay p
  let ch := ch.setEnc p { e with a, b }
  match (quadIdx a b + 4 - quadIdx e.a e.b) % 4 with
  | 0 => ch
  | 2 => ((ch.put (Reg.ENC_STS_QERR p) 1).add (Reg.ENC_QERR p) 1).portFault p 0x0703
  | q =>
    let d : Int := if (q == 1) != ch.bit (Reg.ENC_CFG_INV p) then 1 else -1
    (ch.encMove p (ch.geti64 (Reg.ENC_CNT p) + d) ts).encDir p ts

/-- The index as the reference (R174). -/
def ChanState.idxRef (ch : ChanState) (p : Nat) : ChanState :=
  let ch := ch.setEnc p { ch.encU p with needRef := false }
  if ch.get (Reg.ENC_CPR p) = 0 then ch
  else ch.puti (Reg.ENC_IDXREF p) (ch.geti64 (Reg.ENC_CNT p) % (ch.get (Reg.ENC_CPR p) : Int))

/-- A later index: its residual, the error count, the re-phase correction (R174, R175). -/
def ChanState.idxCheck (ch : ChanState) (p : Nat) (ts : Int) : ChanState :=
  let cpr : Int := ch.get (Reg.ENC_CPR p)
  if cpr = 0 then ch else
  let c := ch.geti64 (Reg.ENC_CNT p)
  let r := (c - ch.get (Reg.ENC_IDXREF p) + cpr / 2) % cpr - cpr / 2
  let ch := (ch.puti64 (Reg.ENC_IDXTS p) ts).puti (Reg.ENC_IDXRES p) r
  let ch := if r.natAbs ≤ ch.get (Reg.ENC_IDXTOL_TOL p) then ch.put (Reg.ENC_STS_ICONS p) 0
    else
      let ch := ((ch.put (Reg.ENC_STS_IDXERR p) 1).add (Reg.ENC_IDXE p) 1).incSat (Reg.ENC_STS_ICONS p)
      let two := ch.get (Reg.ENC_STS_ICONS p) = 2
      let ch := ch.fault 0x0704 0 none p 0
      if two then ch.portFault p 0x0705 else ch
  if ch.bit (Reg.ENC_CFG_RPH p) && r != 0 then
    let ch := (ch.encMove p (c - r) ts).puti64 (Reg.ENC_RPHSUM p) (ch.geti64 (Reg.ENC_RPHSUM p) - r)
    (ch.put (Reg.ENC_STS_RPHC p) 1).fault 0x0709 0 none p 0
  else ch

/-- A rising index edge (R171, R174, R175). -/
def ChanState.encIndex (ch : ChanState) (p : Nat) : ChanState :=
  if !ch.encLive ∨ ch.get (Reg.ENC_CFG_MODE p) ≠ 1 then ch else
  let ts : Int := (ch.now : Int) - ch.encDelay p
  let ch :=
    if ch.bit (Reg.ENC_CFG_REFM p) && !ch.bit (Reg.ENC_STS_REF p) then
      let aofs := ch.geti64 (Reg.ENC_AOFS p)
      let jump := aofs - ch.geti64 (Reg.ENC_CNT p)
      let ch := ((ch.put (Reg.ENC_STS_REF p) 1).put (Reg.ENC_STS_VALID p) 1).puti64 (Reg.ENC_RPHSUM p)
        (ch.geti64 (Reg.ENC_RPHSUM p) + jump)
      let ch := (ch.encMove p aofs ts).setEnc p { ch.encU p with turn := aofs }
      ((ch.puti64 (Reg.ENC_IDXTS p) ts).put (Reg.ENC_IDXRES p) 0).idxRef p
    else if (ch.encU p).needRef then
      ((ch.puti64 (Reg.ENC_IDXTS p) ts).put (Reg.ENC_IDXRES p) 0).idxRef p
    else ch.idxCheck p ts
  ch.setEnc p { ch.encU p with idxAt := some ch.ct }

/-- ENC_CTL.IDXARM: the next index is the reference, or one in the same CLK_SYS cycle (R174, R189). -/
def ChanState.idxArm (ch : ChanState) (p : Nat) : ChanState :=
  if (ch.encU p).idxAt = some ch.ct then ch.idxRef p else ch.setEnc p { ch.encU p with needRef := true }

/-- ENC_CTL.CLRERR (R180). -/
def ChanState.clrErr (ch : ChanState) (p : Nat) : ChanState := ch.putWord (Reg.ENC_ERRCNT p) 0

/-! ### Synchronous serial mode (R176 to R181) -/

/-- Sampling interval of a port in ticks (R177). -/
def ChanState.encIvt (ch : ChanState) (p : Nat) : Nat := 4000 * 4 ^ ch.get (Reg.ENC_SCFG_IVL p)

/-- The latch instant of a port's next frame: time moves there and the frame begins (R176, R177, R189). -/
def ChanState.serialLatch (ch : ChanState) (p : Nat) (lineHigh : Bool) : ChanState :=
  if !ch.encLive ∨ ch.get (Reg.ENC_CFG_MODE p) ≠ 2 then ch else
  let ivt := 4 * ch.encIvt p
  let t := nextAt ch.now ivt (ivt - 4 * ch.get (Reg.ENC_LEAD_LEAD p) % ivt)
  let ch := ch.advanceTo t
  let f : SerialFrame :=
    { tl := t, lineHigh, scfg := ch.get (Reg.ENC_SCFG p), slay := ch.get (Reg.ENC_SLAY p),
      scrc := ch.get (Reg.ENC_SCRC p), stmo := ch.get (Reg.ENC_STMO p) }
  ch.setEnc p { ch.encU p with frm := some f, undo := none, lastFail := none }

/-- The CRC register after bits shifted in, first bit first (R178). -/
def crcBits (w poly init : Nat) (bits : List Bool) : Nat :=
  bits.foldl (fun r b => Nat.xor (r * 2 % 2 ^ w) (if tbit r (w - 1) != b then poly % 2 ^ w else 0)) (init % 2 ^ w)

/-- A number from bits, first bit most significant. -/
def msbFirst (bits : List Bool) : Nat := bits.foldl (fun v b => 2 * v + b2n b) 0

/-- Bits `i` to `i + n - 1` of a word, in order of arrival (R178). -/
def wordBits (w i n : Nat) : List Bool := (List.range n).map fun k => tbit w (i + k)

/-- Gray to binary over `n` bits (R178). -/
def fromGray (n u : Nat) : Nat := (List.range n).foldl (fun v k => Nat.xor v (u / 2 ^ (k + 1))) u

/-- The CRC of a frame's word holds (R178). -/
def SerialFrame.crcOk (f : SerialFrame) (w : Nat) : Bool :=
  let wlen := f.slay % 64
  let cw := f.stmo / 65536 % 32
  cw == 0 || (let r := crcBits cw (f.scrc % 65536) (f.scrc / 65536) (wordBits w 0 (wlen - cw))
    msbFirst (wordBits w (wlen - cw) cw) == (if tbit f.stmo 21 then 2 ^ cw - 1 - r else r))

/-- The error bit of a frame's word is active (R178). -/
def SerialFrame.errBit (f : SerialFrame) (w : Nat) : Bool :=
  tbit f.slay 30 && tbit w (f.slay / 2 ^ 24 % 64) == tbit f.slay 31

/-- Length of the position field, and its value (R178, R179). -/
def SerialFrame.posl (f : SerialFrame) : Nat := f.slay / 65536 % 64
def SerialFrame.pos (f : SerialFrame) (w : Nat) : Nat :=
  let u := msbFirst (wordBits w (f.slay / 256 % 64) f.posl)
  if tbit f.slay 22 then fromGray f.posl u else u

/-- Cause of failure of a decoded word, 0 where it is good; a jump is tested only where a sample precedes it and none failed
before it (R180). -/
def ChanState.sampleCause (ch : ChanState) (p : Nat) (f : SerialFrame) (w : Nat) : Nat :=
  let e := ch.encU p
  let d := wrapS f.posl ((f.pos w : Int) - e.uPrev)
  let jmp := ch.get (Reg.ENC_SJMP p)
  if !f.lineHigh then 4
  else if !f.crcOk w then 1
  else if f.errBit w then 2
  else if e.acq && jmp != 0 && ch.get (Reg.ENC_STS_SCONS p) == 0 && decide (jmp < d.natAbs) then 5
  else 0

/-- Counts a failure by its cause (R180). -/
def ChanState.countCause (ch : ChanState) (p cause : Nat) : ChanState :=
  let ch := ch.put (Reg.ENC_STS_FCAUSE p) cause
  ch.incSat (match cause with
    | 1 => Reg.ENC_ERRCNT_CRC p
    | 2 => Reg.ENC_ERRCNT_ERRB p
    | 5 => Reg.ENC_ERRCNT_JUMP p
    | _ => Reg.ENC_ERRCNT_TMO p)

/-- A failed sample: substituted once, then the port is invalid; before the acquisition only counted (R180). -/
def ChanState.sampleFail (ch : ChanState) (p cause : Nat) (tl : Int) (m : Nat) : ChanState :=
  let ch := ch.countCause p cause
  let ch := ch.setEnc p { ch.encU p with lastFail := some cause, undo := none }
  let e := ch.encU p
  if !e.acq then ch else
  let ch := (ch.put (Reg.ENC_STS_SFAIL p) 1).incSat (Reg.ENC_STS_SCONS p)
  match ch.get (Reg.ENC_STS_SCONS p) with
  | 1 =>
    let ch := ch.setEnc p { e with uPrev := ofInt m (e.uPrev + e.dAcc), dPres := e.dAcc }
    let ch := (ch.put (Reg.ENC_STS_EXTR p) 1).portWarn p 0x0701
    let ch := ch.encMove p (ch.geti64 (Reg.ENC_CNT p) + e.dAcc) tl
    if e.dAcc = 0 then ch else ch.encDir p tl
  | 2 => ((ch.setEnc p { e with dPres := 0 }).put (Reg.ENC_STS_VALID p) 0).portFault p 0x0702
  | _ => ch

/-- The safety island's own reading of a sample (R185). -/
def ChanState.islandSample (ch : ChanState) (p : Nat) (f : SerialFrame) (w : Nat) (ok : Bool) : ChanState :=
  let e := ch.encU p
  let good := ok && f.lineHigh && f.crcOk w && !f.errBit w
  let u := f.pos w
  if !good then ch.setEnc p { e with sFail := true }
  else if !e.sAcq then ch.setEnc p { e with sAcq := true, sFail := false, sU := u, sCnt := u + ch.geti64 (Reg.ENC_AOFS p) }
  else ch.setEnc p { e with sFail := false, sU := u, sCnt := e.sCnt + wrapS f.posl ((u : Int) - e.sU) }

/-- The first valid sample after the load step: the absolute position, checked at a warm start against the restored count
(R179, R423). -/
def ChanState.acquire (ch : ChanState) (p u : Nat) (tl : Int) (m : Nat) : ChanState :=
  let e := ch.encU p
  let new : Int := u + ch.geti64 (Reg.ENC_AOFS p)
  let d := wrapS m (new - ch.geti64 (Reg.ENC_CNT p))
  let near := decide (d.natAbs ≤ ch.get Reg.RST_WPTOL_TOL)
  let ch := if e.warm && !near then (ch.put Reg.RST_STS_PDIFF 1).portWarn p 0x0105 else ch
  let cnt := if e.warm && near then ch.geti64 (Reg.ENC_CNT p) + d else new
  let ch := ((ch.put (Reg.ENC_STS_REF p) 1).put (Reg.ENC_STS_VALID p) 1).put (Reg.ENC_STS_SCONS p) 0
  let ch := ch.setEnc p { e with acq := true, warm := false, uPrev := u, dAcc := 0, dPres := 0, turn := cnt }
  ch.encMove p cnt tl

/-- A decoded serial sample is ready, 40 ns after its last bit (R176, R178 to R180). -/
def ChanState.serialReady (ch : ChanState) (p w : Nat) (islandOk : Bool) : ChanState :=
  match (ch.encU p).frm with
  | none => ch
  | some f =>
    let wlen := f.slay % 64
    let tclk := 4 * (f.scfg % 4096 + 1)
    let ch := if tbit f.scfg 29 then ch else ch.advanceTo (f.tl + wlen * tclk + 4 * (f.scfg / 4096 % 256) + 40)
    let ch := (ch.put64 (Reg.ENC_WORD p) (w % 2 ^ wlen)).setEnc p { ch.encU p with frm := none }
    let ch := ch.islandSample p f w islandOk
    let e := ch.encU p
    let cause := ch.sampleCause p f w
    if cause ≠ 0 then ch.sampleFail p cause f.tl f.posl
    else
      let u := f.pos w
      let d := wrapS f.posl ((u : Int) - e.uPrev)
      let undo : EncUndo := { acq := e.acq, uPrev := e.uPrev, dAcc := e.dAcc, dPres := e.dPres, scons := ch.get (Reg.ENC_STS_SCONS p)
                              d := if e.acq then d else 0, mod := f.posl }
      if !e.acq then
        let ch := ch.acquire p u f.tl f.posl
        ch.setEnc p { ch.encU p with undo := some undo }
      else
        let ch := ch.setEnc p { e with uPrev := u, dAcc := d, dPres := d, undo := some undo }
        let ch := (ch.put (Reg.ENC_STS_SCONS p) 0).put (Reg.ENC_STS_VALID p) 1
        let ch := ch.encMove p (ch.geti64 (Reg.ENC_CNT p) + d) f.tl
        if d = 0 then ch else ch.encDir p f.tl

/-- No start bit within WTMO clock periods: the frame fails (R176, R180). -/
def ChanState.startTimeout (ch : ChanState) (p : Nat) : ChanState :=
  match (ch.encU p).frm with
  | none => ch
  | some f =>
    if !tbit f.scfg 29 then ch else
    let tclk := 4 * (f.scfg % 4096 + 1)
    let ch := ch.advanceTo (f.tl + f.stmo / 256 % 256 * tclk)
    let ch := ch.setEnc p { ch.encU p with frm := none, sFail := true }
    ch.sampleFail p 3 f.tl f.posl

/-- The data line is not high again within MONO: the frame's sample fails, also one already taken; a sample that has failed
keeps its one failure, recorded under the monoflop unless its cause stands before it (R180). -/
def ChanState.monoTimeout (ch : ChanState) (p : Nat) : ChanState :=
  let e := ch.encU p
  match e.frm, e.undo, e.lastFail with
  | some f, _, _ => (ch.setEnc p { e with frm := none, sFail := true }).sampleFail p 4 f.tl f.posl
  | none, some u, _ =>
    let ch := ch.setEnc p { e with acq := u.acq, uPrev := u.uPrev, dAcc := u.dAcc, dPres := u.dPres, undo := none, sFail := true }
    let ch := (ch.put (Reg.ENC_STS_SCONS p) u.scons).putb (Reg.ENC_STS_VALID p) (u.acq && decide (u.scons < 2))
    let ch := (ch.encMove p (ch.geti64 (Reg.ENC_CNT p) - u.d) ch.now).putb (Reg.ENC_STS_REF p) u.acq
    ch.sampleFail p 4 ch.now u.mod
  | none, none, some c =>
    if c = 3 ∨ c = 4 then ch else
    let f := match c with
      | 1 => Reg.ENC_ERRCNT_CRC p
      | 2 => Reg.ENC_ERRCNT_ERRB p
      | _ => Reg.ENC_ERRCNT_JUMP p
    ((ch.put f (ch.get f - 1)).countCause p 4).setEnc p { e with lastFail := some 4 }
  | none, none, none => ch

/-- The 0 ns latch of a port (R170, R181): a serial port presents its extrapolated position at the start of each interval. -/
def ChanState.encLatch (ch : ChanState) (p : Nat) : ChanState :=
  let e := ch.encU p
  let c := ch.geti64 (Reg.ENC_CNT p)
  let ch := ch.setEnc p { e with cnt0 := c, lat1 := ch.geti64 (Reg.ENC_LAT p) }
  if ch.get (Reg.ENC_CFG_MODE p) ≠ 2 then ch.puti64 (Reg.ENC_LAT p) (c * 65536)
  else if ch.cycle % 4 ^ ch.get (Reg.ENC_SCFG_IVL p) ≠ 0 then ch
  else
    let ext := if ch.bit (Reg.ENC_STS_VALID p) then rdiv (e.dPres * ch.get (Reg.ENC_LEAD_LEAD p) * 65536) (ch.encIvt p) else 0
    ch.puti64 (Reg.ENC_LAT p) (c * 65536 + ext)

/-! ### The commands -/

/-- ENCODER_EDGE (R173). -/
def execEncoderEdge (c : Chan) (p : Fin 24) (a b : Bool) (s : State) : Host.Outcome State Fault Refusal :=
  live s c fun ch => ch.encEdge p.val a b

/-- INDEX (R174). -/
def execIndex (c : Chan) (p : Fin 24) (s : State) : Host.Outcome State Fault Refusal := live s c fun ch => ch.encIndex p.val

/-- IDXARM (R174): a write of ENC_CTL.IDXARM. -/
def execIdxarm (c : Chan) (p : Fin 24) (s : State) : Host.Outcome State Fault Refusal :=
  live s c fun ch => (ch.hostW .pcie).idxArm p.val

/-- CLRERR (R180): a write of ENC_CTL.CLRERR. -/
def execClrerr (c : Chan) (p : Fin 24) (s : State) : Host.Outcome State Fault Refusal :=
  live s c fun ch => (ch.hostW .pcie).clrErr p.val

/-- SERIAL_LATCH (R176, R177). -/
def execSerialLatch (c : Chan) (p : Fin 24) (lineHigh : Bool) (s : State) : Host.Outcome State Fault Refusal :=
  live s c fun ch => ch.serialLatch p.val lineHigh

/-- SERIAL_SAMPLE_READY (R179). -/
def execSerialSampleReady (c : Chan) (p : Fin 24) (word : BitVec 64) (islandOk : Bool) (s : State) :
    Host.Outcome State Fault Refusal :=
  live s c fun ch => ch.serialReady p.val word.toNat islandOk

/-- START_TIMEOUT (R176, R180). -/
def execStartTimeout (c : Chan) (p : Fin 24) (s : State) : Host.Outcome State Fault Refusal :=
  live s c fun ch => ch.startTimeout p.val

/-- MONOFLOP_TIMEOUT (R180). -/
def execMonoflopTimeout (c : Chan) (p : Fin 24) (s : State) : Host.Outcome State Fault Refusal :=
  live s c fun ch => ch.monoTimeout p.val

/-- DPO_EDGE_EMIT (R188). -/
def execDpoEdgeEmit (c : Chan) (m : Fin 4) (s : State) : Host.Outcome State Fault Refusal := live s c fun ch => ch.dpoEdge m.val

/-- DPO_RATIO_WRITE (R188). -/
def execDpoRatioWrite (c : Chan) (m : Fin 4) (which : DpoParam) (v : Word) (s : State) : Host.Outcome State Fault Refusal :=
  live s c fun ch => (ch.hostW .pcie).dpoWrite m.val which v.toNat

/-- COMPARE_ARM (R69): a write of CMP_POS_HI. -/
def execCompareArm (c : Chan) (n : Fin 16) (hi : Word) (s : State) : Host.Outcome State Fault Refusal :=
  live s c fun ch => (ch.hostW .pcie).cmpArm n.val hi.toNat

/-- CMP_PULSE_END (R72). -/
def execCmpPulseEnd (c : Chan) (n : Fin 16) (s : State) : Host.Outcome State Fault Refusal :=
  live s c fun ch => ch.cmpPulseEnd n.val

end Sys2Proof.Machine
end

