-- ==== Sys2Proof/Machine/Profile.lean ====
section
/-!
DEFINITION. The parts of a profile evaluation: override and stop lengths, segments, joint profiles, gears, limits
(R42 to R67, R73 to R75).
-/
namespace Sys2Proof.Machine

open Sys2Proof

/-! ### Override and stop lengths (R60, R62) -/

/-- A free 64-bit number and the channel that has taken it. -/
def ChanState.draw (ch : ChanState) : Nat × ChanState := ((Config.free ch.fresh).toNat, ch.nextFresh)

/-- A free number between two limits. -/
def freeIn (v : Nat) (lo hi : Int) : Int := if hi < lo then lo else lo + (v : Int) % (hi - lo + 1)

/-- The effective override in units of 1/4,096 (R52). -/
def Arm.eff (a : Arm) : Nat := a.s / 2 ^ 20

/-- The override moves towards its target over four basic cycles: within the falling and rising limits and the limit of the
rate's change; the law between them is not given (R60). -/
def ChanState.ovrStep (ch : ChanState) (k tgt : Nat) : ChanState :=
  let a := ch.arm k
  if a.s = tgt * 2 ^ 20 ∧ a.rate = 0 then ch else
  let dec : Int := 256 * ch.get (Reg.PRF_OVRDEC k)
  let acc : Int := 256 * ch.get (Reg.PRF_OVRACC k)
  let jrk : Int := 4 * ch.get (Reg.PRF_OVRJRK k)
  let (v, ch) := ch.draw
  let (w, ch) := ch.draw
  let rate := clampI (freeIn v (a.rate - jrk) (a.rate + jrk)) (-dec) acc
  let s := clampI (freeIn w (a.s - 4 * dec) (a.s + 4 * acc)) 0 (2 ^ 32)
  ch.setArm k { a with s := s.toNat, rate }

/-- The stop time of R62 in ns, from `s` with falling limit `d` per basic cycle and jerk `j` per basic cycle squared in one
unit, a jerk of 0 being unlimited; a time with no whole value takes one of its neighbours, a limit of 0 a free value. -/
def stopNs (fresh s d j : Nat) : Int :=
  if s = 0 then 0
  else if d = 0 then (Config.free fresh).toNat % 2 ^ 32
  else if j = 0 then divFree fresh (16000 * s) d
  else if d * d ≤ s * j then divFree fresh (16000 * (s * j + d * d)) (d * j)
  else
    let n := 32000 * 32000 * s
    let r := isqrtBits 80 (n / j) 0
    if r * r * j = n then r else r + (Config.roundUp fresh).toNat

/-- Whether the path time left, in 2^-12 basic cycle, is below P + 4 basic cycles (R56); while the override changes the spec
gives no formula for P, and its size is free. -/
def ChanState.starved (ch : ChanState) (k left : Nat) : Bool × ChanState :=
  let a := ch.arm k
  let d := 256 * ch.get (Reg.PRF_OVRDEC k)
  let j := ch.get (Reg.PRF_OVRJRK k)
  if a.rate ≠ 0 then
    let (v, ch) := ch.draw
    (decide (left < v % 2 ^ 32 + 16384), ch)
  else if left < 16384 then (true, ch)
  else
    let x := left - 16384
    if d * d ≤ a.s * j then (decide (x * (2 ^ 33 * d * j) < 4096 * a.s * (a.s * j + d * d)), ch)
    else (decide (x * x * 2 ^ 64 * j < 4096 * 4096 * a.s * a.s * a.s), ch)

/-! ### Segments (R51 to R59) -/

/-- A pool byte. -/
def ChanState.poolByte (ch : ChanState) (a : Nat) : Byte := Tab.get ch.pool 0 a

/-- `n` pool bytes from `a`. -/
def ChanState.poolBytes (ch : ChanState) (a n : Nat) : List Byte := (List.range n).map fun i => ch.poolByte (a + i)

/-- Why a segment of `nj` joints is invalid, 0 where it is valid (R51, R54, PRF_ASTS.SEGC). -/
def segCheck (nj : Nat) (bs : List Byte) : Nat :=
  let ords := (List.range nj).all fun i => leAt bs (16 * (i + 1) + 12) 4 % 16 == i
  let resv := leAt bs 2 2 / 8 != 0 || leAt bs 9 7 != 0 || (List.range nj).any fun i => leAt bs (16 * (i + 1) + 12) 4 / 16 != 0
  if leAt bs 8 1 ≠ nj then 1 else if leAt bs 0 2 = 0 then 2 else if !ords then 3 else if resv then 4 else 0

/-- A segment from its bytes. -/
def segOf (nj : Nat) (bs : List Byte) : Seg where
  dur := leAt bs 0 2
  flags := leAt bs 2 2
  tag := leAt bs 4 4
  p1 := (List.range nj).map fun i => wrapS 64 (leAt bs (16 * (i + 1)) 8)
  v1 := (List.range nj).map fun i => wrapS 32 (leAt bs (16 * (i + 1) + 8) 4)

/-- FINAL is in force: set, with every end velocity 0 (R57). -/
def Seg.final (s : Seg) : Bool := tbit s.flags 2 && s.v1.all fun v => v == 0

/-- Number of joints of arm `k`. -/
def ChanState.nj (ch : ChanState) (k : Nat) : Nat := ch.get (Reg.PRF_ACFG_NJ k)

/-- The bytes of ring segment `n` of arm `k` (R53). -/
def ChanState.ringBytes (ch : ChanState) (k n : Nat) : List Byte :=
  let size := ch.get (Reg.PRF_RSIZE_SIZE k)
  ch.poolBytes (16 * (ch.get (Reg.PRF_RBASE_BASE k) + n % size * (ch.nj k + 1))) (16 * (ch.nj k + 1))

/-- The bytes of segment `i` of stored table `t` (R58). -/
def ChanState.tableBytes (ch : ChanState) (k t i : Nat) : List Byte :=
  ch.poolBytes (16 * (ch.get (Reg.PRF_TBLB_BASE t) + i * (ch.nj k + 1))) (16 * (ch.nj k + 1))

/-- Takes up to `n` new segments from number `i` on, until one is invalid (R54). -/
def ChanState.takeSegs (ch : ChanState) (k : Nat) : Nat → Nat → ChanState
  | 0, _ => ch
  | n + 1, i =>
    let bs := ch.ringBytes k i
    let e := segCheck (ch.nj k) bs
    if e ≠ 0 then (ch.put (Reg.PRF_ASTS_SEGERR k) 1).put (Reg.PRF_ASTS_SEGC k) e
    else
      let s := segOf (ch.nj k) bs
      let a := ch.arm k
      let ch := ch.setArm k { a with pend := a.pend ++ [{ crc := (Config.segCrc bs).toNat, dur := s.dur, fin := s.final }] }
      (ch.add (Reg.PRF_SAPP k) 1).takeSegs k n (i + 1)

/-- A write of PRF_SAPP (R54): rejected whole where it moves back or past the ring, else up to the first invalid segment. -/
def ChanState.segmentAppend (ch : ChanState) (k cnt : Nat) : ChanState :=
  let old := ch.get (Reg.PRF_SAPP k)
  let n := ofInt 32 ((cnt : Int) - old)
  if 2 ^ 31 ≤ n ∨ ch.get (Reg.PRF_RSIZE_SIZE k) < ofInt 32 ((cnt : Int) - ch.get (Reg.PRF_RCON k)) then
    (ch.put (Reg.PRF_ASTS_APPREJ k) 1).fault 0x0507 0 (some k) 0xFFFF 0
  else ch.takeSegs k n old

/-- The pool regions of rings and tables, as first entry and end (R53, R58). -/
def ChanState.regions (ch : ChanState) : List (Nat × Nat) :=
  ((List.range 8).filterMap fun k =>
    let b := ch.get (Reg.PRF_RBASE_BASE k)
    let n := ch.get (Reg.PRF_RSIZE_SIZE k) * (ch.nj k + 1)
    if ch.nj k = 0 ∨ ch.get (Reg.PRF_RSIZE_SIZE k) = 0 then none else some (b, b + n)) ++
  (List.range 32).filterMap fun t =>
    let b := ch.get (Reg.PRF_TBLB_BASE t)
    let n := ch.get (Reg.PRF_TBLL_LEN t)
    if n = 0 then none else some (b, b + n * (ch.nj (ch.get (Reg.PRF_TBLL_ARM t)) + 1))

/-- Rings and tables lie apart and end at or below entry 65,535 (R53). -/
def regionsOk : List (Nat × Nat) → Bool
  | [] => true
  | r :: rs => decide (r.2 ≤ 65536) && rs.all (fun q => decide (r.2 ≤ q.1 ∨ q.2 ≤ r.1)) && regionsOk rs

/-- Whether a further segment is present for arm `k`, and its path time (R52, R57). -/
def ChanState.hasNext (ch : ChanState) (k : Nat) : Bool :=
  let a := ch.arm k
  !a.broken && match a.table with
    | some (t, i) => decide (i < ch.get (Reg.PRF_TBLL_LEN t))
    | none => !a.pend.isEmpty

/-- Loads the next segment (R55): a ring segment changed after its append breaks the stream. -/
def ChanState.loadNext (ch : ChanState) (k : Nat) : ChanState :=
  let a := ch.arm k
  match a.table with
  | some (t, i) =>
    let s := segOf (ch.nj k) (ch.tableBytes k t i)
    (ch.setArm k { a with seg := some s, table := some (t, i + 1) }).put (Reg.PRF_STAG k) s.tag
  | none =>
    match a.pend with
    | [] => ch
    | h :: r =>
      let bs := ch.ringBytes k (ch.get (Reg.PRF_RCON k))
      if (Config.segCrc bs).toNat = h.crc then
        let s := segOf (ch.nj k) bs
        (ch.setArm k { a with seg := some s, pend := r }).put (Reg.PRF_STAG k) s.tag
      else
        let ch := (ch.setArm k { a with broken := true }).put (Reg.PRF_ASTS_SEGERR k) 1
        (ch.put (Reg.PRF_ASTS_SEGC k) 5).fault 0x0502 2 (some k) 0xFFFF 0

/-- The end of the current segment is passed (R52, R59). -/
def ChanState.segPassed (ch : ChanState) (k : Nat) : ChanState :=
  let a := ch.arm k
  match a.seg with
  | none => ch
  | some g =>
    let ch := (ch.add (Reg.PRF_SEXE k) 1).setArm k { a with p0 := g.p1, v0 := g.v1, seg := none }
    if a.table.isNone then ch.add (Reg.PRF_RCON k) 1 else ch

/-- The loop of R52 over the segments the phase has passed. -/
def ChanState.walk (k : Nat) : Nat → ChanState → ChanState
  | 0, ch => ch
  | n + 1, ch =>
    match (ch.arm k).seg with
    | none => ch
    | some g =>
      let ph := ch.get (Reg.PRF_SPHASE k)
      if ph < g.dur * 4096 ∨ g.final ∨ !ch.hasNext k then ch
      else ChanState.walk k n (((ch.segPassed k).loadNext k).put (Reg.PRF_SPHASE k) (ph - g.dur * 4096))

/-- Position, velocity and acceleration of ordinal `o` on the current segment (R52). -/
def hermite (dur : Nat) (p0 v0 p1 v1 : Int) (ph s sPrev : Nat) : Int × Int × Int :=
  let l : Nat := dur * 4096
  let d := p1 - p0
  let c2 := 3 * d - dur * (2 * v0 + v1)
  let c3 := dur * (v0 + v1) - 2 * d
  let num := v0 * dur * (l * l : Nat) + 2 * c2 * ph * l + 3 * c3 * (ph * ph : Nat)
  let pos := rdiv (p0 * (l * l * l : Nat) + dur * v0 * ph * (l * l : Nat) + c2 * (ph * ph * l : Nat) + c3 * (ph * ph * ph : Nat))
    (l * l * l)
  let vel := rdiv (s * num) (4096 * dur * (l * l))
  let acc := rdiv (256 * ((s * s : Nat) * (2 * c2 * l + 6 * c3 * ph) * l + 1024 * dur * ((s : Int) - sPrev) * num))
    (4096 * 4096 * dur * dur * (l * l))
  (pos, vel, acc)

/-! ### Limits (R73 to R75) -/

/-- Whether joint `j`'s torque is off. -/
def ChanState.jOff (ch : ChanState) (j : Nat) : Bool := ch.bit (Reg.JNT_STS_TOFF j)

/-- Writes joint `j`'s command, range-checked (R73); tells whether anything was clamped. -/
def ChanState.command (ch : ChanState) (j : Nat) (p v a : Int) : ChanState × Bool :=
  let p' := clampI p (ch.geti64 (Reg.PRF_JLIMLO j)) (ch.geti64 (Reg.PRF_JLIMHI j))
  let vl : Int := min (ch.get (Reg.PRF_JVLIM j)) 0x7FFFFFFF
  let al : Int := min (ch.get (Reg.PRF_JALIM j)) 0x7FFFFFFF
  let v' := clampI v (-vl) vl
  let a' := clampI a (-al) al
  let ch := ((ch.puti64 (Reg.PRF_JCPOS j) p').puti (Reg.PRF_JCVEL j) v').puti (Reg.PRF_JCACC j) a'
  let ch := if p' = p then ch else ch.put (Reg.PRF_STS_CLPOS j) 1
  let ch := if v' = v then ch else ch.put (Reg.PRF_STS_CLVEL j) 1
  let ch := if a' = a then ch else ch.put (Reg.PRF_STS_CLACC j) 1
  (ch, p' != p || v' != v || a' != a)

/-- The command of a joint whose torque is off follows its actual position (R61). -/
def ChanState.follow (ch : ChanState) (j : Nat) : ChanState :=
  ((ch.puti64 (Reg.PRF_JCPOS j) (ch.joint j).act).put (Reg.PRF_JCVEL j) 0).put (Reg.PRF_JCACC j) 0

/-- A joint with torque on and no motion holds its command position. -/
def ChanState.holdCmd (ch : ChanState) (j : Nat) : ChanState := (ch.put (Reg.PRF_JCVEL j) 0).put (Reg.PRF_JCACC j) 0

/-- The tests of R75 on the actual position, velocity and acceleration of joint `j`. -/
def ChanState.actualTest (ch : ChanState) (j : Nat) : ChanState :=
  let x := ch.joint j
  if !x.actVal then ch.setJoint j { x with actEv := [] } else
  let h := (x.act :: x.actEv).take 3
  let ch := ch.setJoint j { x with actEv := h }
  let arm := some (ch.armOf j)
  let tol : Int := ch.get (Reg.PRF_JPTOL j)
  let ch := if x.act < ch.geti64 (Reg.PRF_JLIMLO j) - tol ∨ ch.geti64 (Reg.PRF_JLIMHI j) + tol < x.act then
      (ch.put (Reg.PRF_STS_VIOLP j) 1).fault 0x0504 2 arm j 0 else ch
  let ch := match h with
    | p :: q :: _ =>
      if 4 * ch.get (Reg.PRF_JVLIM j) * (64 + ch.get (Reg.PRF_JTOLF_VTOL j)) < (p - q).natAbs * 64 then
        (ch.put (Reg.PRF_STS_VIOLV j) 1).fault 0x0505 2 arm j 0 else ch
    | _ => ch
  match h with
  | p :: q :: r :: _ =>
    if ch.get (Reg.PRF_JTOLF_ATOL j) ≠ 0 ∧
        ch.get (Reg.PRF_JALIM j) * (64 + ch.get (Reg.PRF_JTOLF_ATOL j)) < (p - 2 * q + r).natAbs * 1024 then
      (ch.put (Reg.PRF_STS_VIOLA j) 1).fault 0x0506 2 arm j 0 else ch
  | _ => ch

/-! ### Profile parameters (R50, R73) -/

/-- A parameter in force, clamped when it is taken (R73). -/
def ChanState.paramNow (ch : ChanState) (j : Nat) (w : RampParam) : Nat :=
  match w with
  | .vmax => min (ch.get (Reg.PRF_JVMAX j)) (ch.get (Reg.PRF_JVLIM j))
  | .acc => min (ch.get (Reg.PRF_JACC j)) (ch.get (Reg.PRF_JALIM j))
  | .dec => min (ch.get (Reg.PRF_JDEC j)) (ch.get (Reg.PRF_JALIM j))
  | .jerk => ch.get (Reg.PRF_JJERK j)

/-- Puts the register's value of a parameter in force, or leaves it waiting. -/
def ChanState.paramSet (ch : ChanState) (j : Nat) (w : RampParam) (wait : Bool) : ChanState :=
  let x := ch.joint j
  let v := ch.paramNow j w
  let x := match w, wait with
    | .vmax, true => { x with dVmax := true }
    | .vmax, false => { x with vmax := v, dVmax := false }
    | .acc, true => { x with dAcc := true }
    | .acc, false => { x with acc := v, dAcc := false }
    | .dec, true => { x with dDec := true }
    | .dec, false => { x with dec := v, dDec := false }
    | .jerk, true => { x with dJerk := true }
    | .jerk, false => { x with jerk := v, dJerk := false }
  (ch.setJoint j x).putb (Reg.PRF_STS_DEFER j) (x.dVmax || x.dAcc || x.dDec || x.dJerk)

/-- Whether a change to a parameter waits, by the phase at the write and the direction of the change (R50). -/
def ChanState.paramWaits (ch : ChanState) (j : Nat) (w : RampParam) : Bool :=
  let x := ch.joint j
  let ph := ch.get (Reg.PRF_STS_PHASE j)
  let moving := ph == 1 || ph == 2 || ph == 3
  match w with
  | .vmax => moving && decide (x.vmax < ch.paramNow j .vmax)
  | .acc => moving
  | .dec => ph == 3 && decide (ch.paramNow j .dec < x.dec)
  | .jerk => moving

/-- The parameter writes sampled for this evaluation (R44, R50). -/
def ChanState.takeParams (ch : ChanState) (j : Nat) : ChanState :=
  (ch.joint j).smp.wr.foldl (fun ch w => ch.paramSet j w.1 (ch.paramWaits j w.1)) ch

/-- Waiting values that the start of a ramp brings into force (R50). -/
def ChanState.rampStart (ch : ChanState) (j : Nat) (up : Bool) : ChanState :=
  let x := ch.joint j
  let ch := if x.dJerk then ch.paramSet j .jerk false else ch
  if up then
    let ch := if x.dAcc then ch.paramSet j .acc false else ch
    if x.dVmax then ch.paramSet j .vmax false else ch
  else if x.dDec then ch.paramSet j .dec false else ch

/-- Every parameter in force from its register: at the load step. -/
def ChanState.paramsLoad (ch : ChanState) (j : Nat) : ChanState :=
  [RampParam.vmax, .acc, .dec, .jerk].foldl (fun ch w => ch.paramSet j w false) ch

/-! ### PTP, VEL and deceleration (R46, R47, R49) -/

/-- What a free move of one evaluation is: its kind and its bounds. -/
inductive Move where
  | ptp (tgt : Int)
  | vel (vt : Int)
  | stop
deriving DecidableEq, Repr

/-- Whether a PTP target lies behind, or ahead within the stopping distance of R62's form (R49). -/
def reversal (p v tgt : Int) (dec jerk : Nat) : Bool :=
  let d := if 0 < v then tgt - p else p - tgt
  v != 0 && (decide (d < 0) || (let s := 65536 * v.natAbs; let dd := 256 * dec
    let x := 65536 * d.toNat
    if dd = 0 then true
    else if jerk = 0 then decide (2 * x * dd < s * s)
    else if dd * dd ≤ s * jerk then decide (2 * x * dd * jerk < s * (s * jerk + dd * dd))
    else decide (x * x * jerk < s * s * s)))

/-- One evaluation of a joint's profile: the limits of R46 hold; the values between are free, since the spec gives the ramp's
limits and no formula for its samples. The state of a move that needs no ramp is exact. -/
def ChanState.profile (ch : ChanState) (j : Nat) (m : Move) (s sPrev : Nat) : ChanState × Bool :=
  let x := ch.joint j
  let p := ch.geti64 (Reg.PRF_JCPOS j)
  let v := ch.geti (Reg.PRF_JCVEL j)
  let a := ch.geti (Reg.PRF_JCACC j)
  let arrived := match m with
    | .ptp t => decide (p = t ∧ v = 0 ∧ a = 0)
    | .vel t => decide (t = 0 ∧ v = 0 ∧ a = 0)
    | .stop => decide (v = 0 ∧ a = 0)
  if arrived then ((ch.holdCmd j).put (Reg.PRF_STS_PHASE j) 0, true)
  else if s = 0 ∧ sPrev = 0 ∧ m ≠ .stop then (ch.holdCmd j, false)
  else if m = .vel v ∧ a = 0 ∧ s = 4096 ∧ sPrev = 4096 then
    (((ch.command j (p + 4 * v) v 0).1).put (Reg.PRF_STS_PHASE j) 2, false)
  else
    let (f1, ch) := ch.draw
    let (f2, ch) := ch.draw
    let (f3, ch) := ch.draw
    let (f4, ch) := ch.draw
    let sc : Int := v.natAbs * ((s : Int) - sPrev).natAbs / 4096 + 1
    let up : Int := x.acc / 64 + sc
    let down : Int := x.dec / 64 + sc
    let top : Int := match m with
      | .ptp _ => max v.natAbs x.vmax
      | .vel t => max v.natAbs t.natAbs
      | .stop => v.natAbs
    let lo := if 0 < v then v - down else v - up
    let hi := if v < 0 then v + down else v + up
    let v1 := match m with
      | .stop => if 0 ≤ v then freeIn f1 (max 0 (v - down)) v else freeIn f1 v (min 0 (v + down))
      | _ => clampI (freeIn f1 lo hi) (-top) top
    let reach := 4 * (max v.natAbs v1.natAbs + up)
    let p1 := freeIn f2 (p - reach) (p + reach)
    let a1 := freeIn f3 (-(max x.acc x.dec : Nat)) (max x.acc x.dec)
    let ends := match m with
      | .ptp t => decide (f4 % 2 = 1 ∧ (t - p).natAbs ≤ reach ∧ v.natAbs ≤ down)
      | _ => decide (v1 = 0 ∧ f4 % 2 = 1)
    let (p2, v2, a2) := match m, ends with
      | .ptp t, true => (t, 0, 0)
      | _, true => (p1, 0, 0)
      | _, false => (p1, v1, a1)
    let ch := (ch.command j p2 v2 a2).1
    let old := ch.get (Reg.PRF_STS_PHASE j)
    let ph := if ends then 0 else if v.natAbs < v2.natAbs then 1 else if v2.natAbs < v.natAbs then 3 else 2
    let ch := if ph = 1 ∧ old ≠ 1 then ch.rampStart j true else if ph = 3 ∧ old ≠ 3 then ch.rampStart j false else ch
    let done := match m with
      | .vel t => ends && t == 0
      | _ => ends
    (ch.put (Reg.PRF_STS_PHASE j) ph, done)

/-! ### Gears (R65 to R67) -/

/-- A gear leaves its master and decelerates (R67). -/
def ChanState.disengage (ch : ChanState) (j : Nat) : ChanState :=
  let x := ch.joint j
  (ch.setJoint j { x with geared := false, waiting := false, decel := x.geared || x.decel }).put (Reg.PRF_STS_PHASE j)
    (if x.geared then 3 else if x.waiting then (if x.decel then 3 else 0) else ch.get (Reg.PRF_STS_PHASE j))

/-- Master `m` has crossed `c` from `p`, in either direction (R65). -/
def passed (p m c : Int) : Bool := decide (p < c ∧ c ≤ m) || decide (m ≤ c ∧ c < p)

/-- An armed change that applies at once, or splits the displacement at its crossing; else the ratio in force (R65, R66). -/
def ChanState.gearStep (ch : ChanState) (j : Nat) (p m : Int) (atOnce : Bool) : ChanState :=
  let x := ch.joint j
  let rem : Int := ch.get (Reg.PRF_JGREM j)
  let split := x.armed && !atOnce && passed p m x.apos
  let acc0 := rem + (x.apos - p) * x.gnum
  let ds := if split then divOr acc0 x.gden else 0
  let rem := if split then acc0 - ds * x.gden else rem
  let change := split || (x.armed && atOnce)
  let rem := if change then divOr (rem * x.aden) x.gden else rem
  let x := if change then { x with gnum := x.anum, gden := x.aden, armed := false } else x
  let acc := rem + (if split then m - x.apos else m - p) * x.gnum
  let q := divOr acc x.gden
  let ch := (ch.setJoint j x).puti (Reg.PRF_JGREM j) (acc - q * x.gden)
  let ch := if change then
      ((ch.puti (Reg.PRF_JGNUM j) x.gnum).put (Reg.PRF_JGDEN j) x.gden).put (Reg.PRF_STS_ARMED j) 0 else ch
  let cp := ch.geti64 (Reg.PRF_JCPOS j)
  let vp := ch.geti (Reg.PRF_JCVEL j)
  let cmd := cp + ds + q
  let vel := rdiv (cmd - cp) 4
  (ch.command j cmd vel (rdiv ((vel - vp) * 256) 4)).1

/-- DISARM, then ARM, as sampled; a new change judged against the master now (R66). Tells whether it applies at once. -/
def ChanState.gearArm (ch : ChanState) (j : Nat) (m : Option Int) : ChanState × Bool :=
  let x := ch.joint j
  let x := if x.smp.disarm then { x with armed := false } else x
  let ch := (ch.setJoint j x).putb (Reg.PRF_STS_ARMED j) x.armed
  if !x.smp.arm then (ch, false)
  else if ch.get (Reg.PRF_JGADEN j) = 0 then (ch.put (Reg.PRF_STS_REJ j) 1, false)
  else
    let apos := ch.geti64 (Reg.PRF_JGAPOS j)
    let x := { x with armed := true, anum := ch.geti (Reg.PRF_JGANUM j), aden := ch.get (Reg.PRF_JGADEN j), apos }
    let ch := (ch.setJoint j x).put (Reg.PRF_STS_ARMED j) 1
    match m with
    | some m => if (if x.mNeg then m ≤ apos else apos ≤ m) then (ch.put (Reg.PRF_STS_ARMPAST j) 1, true) else (ch, false)
    | none => (ch, false)

/-- One evaluation of a joint in GEAR mode (R65 to R67). -/
def ChanState.gearEval (ch : ChanState) (j : Nat) (m : Option Int) (s sPrev : Nat) : ChanState :=
  let x := ch.joint j
  let neg := match x.mPrev, m with
    | some p, some m => if m = p then x.mNeg else decide (m < p)
    | _, _ => x.mNeg
  let ch := ch.setJoint j { x with mNeg := neg }
  let (ch, atOnce) := ch.gearArm j m
  let prev := x.mPrev
  let next := fun (ch : ChanState) => ch.setJoint j { ch.joint j with mPrev := m }
  let ratioNow := fun (ch : ChanState) =>
    if atOnce then
      let x := ch.joint j
      (((ch.setJoint j { x with armed := false, gnum := x.anum, gden := x.aden }).puti (Reg.PRF_JGNUM j) x.anum).put
        (Reg.PRF_JGDEN j) x.aden).put (Reg.PRF_STS_ARMED j) 0
    else ch
  match m with
  | none =>
    let ch := if x.geared || x.waiting then
        ((ch.disengage j).put (Reg.PRF_STS_MSTINV j) 1).fault 0x0508 1 (some (ch.armOf j)) j 0 else ch
    let (ch, done) := if (ch.joint j).decel then ch.profile j .stop s sPrev else (ch.holdCmd j, false)
    next (if done then ch.setJoint j { ch.joint j with decel := false } else ch)
  | some m =>
    if x.geared then next (match prev with
      | some p => (ch.gearStep j p m atOnce).put (Reg.PRF_STS_PHASE j) 4
      | none => ch)
    else
      let ch := ratioNow ch
      let (ch, done) := if (ch.joint j).decel then ch.profile j .stop s sPrev else (ch.holdCmd j, true)
      let ch := if done then ch.setJoint j { ch.joint j with decel := false } else ch
      let still := ch.geti (Reg.PRF_JCVEL j) = 0 ∧ !(ch.joint j).decel
      let ch := if x.waiting ∧ still ∧ prev = some m then
          ((ch.setJoint j { ch.joint j with geared := true, waiting := false, gnum := ch.geti (Reg.PRF_JGNUM j)
                                            gden := ch.get (Reg.PRF_JGDEN j) }).put (Reg.PRF_JGREM j) 0).put (Reg.PRF_STS_PHASE j) 4
        else if x.waiting then ch.put (Reg.PRF_STS_PHASE j) 5 else ch
      next ch

end Sys2Proof.Machine
end

