-- ==== Sys2Proof/Machine/Trajectory.lean ====
section
/-!
DEFINITION. The lattice and the evaluation of arms, and the commands of the profile units (R22, R42 to R76).
-/
namespace Sys2Proof.Machine

open Sys2Proof

/-! ### Commands as they are written (R44, R48) -/

/-- Adds command bits to those waiting for the next sample. -/
def ChanState.armCmd (ch : ChanState) (k : Nat) (f : ArmCmd → ArmCmd) : ChanState :=
  ch.setArm k { ch.arm k with cmd := f (ch.arm k).cmd }

def ChanState.jointCmd (ch : ChanState) (j : Nat) (f : JointCmd → JointCmd) : ChanState :=
  ch.setJoint j { ch.joint j with cmd := f (ch.joint j).cmd }

/-- Whether joint `j` belongs to a segment-mode arm, which takes no GO or STOP of its own (R45). -/
def ChanState.segJoint (ch : ChanState) (j : Nat) : Bool := ch.bound j && ch.bit (Reg.PRF_ACFG_SEG (ch.armOf j))

/-- A write of PRF_JCTL.GO. -/
def ChanState.jointGo (ch : ChanState) (j : Nat) : ChanState :=
  if ch.segJoint j then ch.put (Reg.PRF_STS_REJ j) 1 else ch.jointCmd j fun c => { c with go := true }

/-- A write of PRF_JCTL.STOP. -/
def ChanState.jointStop (ch : ChanState) (j : Nat) : ChanState :=
  if ch.segJoint j then ch.put (Reg.PRF_STS_REJ j) 1 else ch.jointCmd j fun c => { c with stop := true }

/-- Writes of a profile parameter during motion (R50). -/
def ChanState.rampWrite (ch : ChanState) (j : Nat) (w : RampParam) (v : Nat) : ChanState :=
  let r := match w with
    | .vmax => Reg.PRF_JVMAX j
    | .acc => Reg.PRF_JACC j
    | .dec => Reg.PRF_JDEC j
    | .jerk => Reg.PRF_JJERK j
  (ch.put r v).jointCmd j fun c => { c with wr := c.wr ++ [(w, v)] }

/-! ### Basic cycle start (R22, R43, R68, R97, R158, R170) -/

/-- Samples what the evaluation of this cycle uses (R43). -/
def ChanState.sample (ch : ChanState) : ChanState :=
  let ch := forUpto 8 ch fun k ch =>
    let a := ch.arm k
    ch.setArm k { a with smp := a.cmd, cmd := {}, host := ch.get (Reg.PRF_OVR_HOST k), ssmS := ch.get (Reg.PRF_OVRSSM_SSM k), napp := a.pend.length }
  let ch := forUpto 64 ch fun j ch =>
    let x := ch.joint j
    ch.setJoint j { x with cmd := {}, smp := { x.cmd with tgt := ch.geti64 (Reg.PRF_JTGT j), vtgt := ch.geti (Reg.PRF_JVTGT j) } }
  forUpto 4 ch fun m ch => ch.puti64 (Reg.PRF_VMPOS m) (Tab.get ch.vm 0 m)

/-- What happens at 0 ns of a basic cycle. -/
def ChanState.cycleStart (ch : ChanState) : ChanState :=
  let code := ch.get Reg.CHN_STATE_CODE
  let ch := if code == 3 || code == 4 || code == 5 || code == 6 then
      forUpto 4 ch fun m ch =>
        { ch with vm := Tab.set ch.vm 0 m (wrapS 64 (Tab.get ch.vm 0 m + ch.geti (Reg.PRF_VMRATE m))) }
    else ch
  let ch := forUpto 24 ch fun p ch => ch.encLatch p
  let ch := forUpto 64 ch fun j ch =>
    let r := ch.remU j
    let ch := ch.setRem j { r with lat := r.pos }
    if !ch.bound j then ch else
    let f := ch.feedback j
    let x := ch.joint j
    let ch := match x.refNext with
      | some (d, q) => (ch.put (Reg.JNT_REF_IDREF j) d.toNat).put (Reg.JNT_REF_IQREF j) q.toNat
      | none => ch
    ch.setJoint j { x with act := f.1, actVal := f.2, refNext := none }
  let ch := forUpto 8 ch fun n ch => ch.stepAccumulate n
  if ch.bIdx % 4 = 0 then ch.sample else ch

/-- The next 0 ns of a basic cycle: time moves there (R22). -/
def ChanState.basicCycleStart (ch : ChanState) : ChanState :=
  if !ch.loaded then ch else
  let t := if ch.now % 16000 = 0 ∧ ch.bcDone ≠ some ch.cycle then ch.now else (ch.cycle + 1) * 16000
  let ch := ch.advanceTo t
  ({ ch with bcDone := some ch.cycle }).cycleStart

/-! ### Arms (R42 to R63) -/

/-- The stop causes of an arm, the strongest first (R61, R76). -/
def StopKind.max : Option StopKind → Option StopKind → Option StopKind
  | some .f2, _ => some .f2
  | _, some .f2 => some .f2
  | some .discard, _ => some .discard
  | _, some .discard => some .discard
  | some .keep, _ => some .keep
  | _, b => b

/-- Whether arm `k` is in motion: it consumes segments, or a joint of it moves. -/
def ChanState.armMoving (ch : ChanState) (k : Nat) : Bool :=
  (ch.arm k).running || (ch.armJoints k).any fun j =>
    let x := ch.joint j
    x.active || x.decel || x.geared || x.waiting

/-- Every PTP and VEL joint of arm `k` decelerates and its gears disengage (R61, R67). -/
def ChanState.slowJoints (ch : ChanState) (k : Nat) : ChanState :=
  (ch.armJoints k).foldl (fun ch j =>
    let ch := if (ch.joint j).geared || (ch.joint j).waiting then ch.disengage j else ch
    let x := ch.joint j
    if x.active then ch.setJoint j { x with active := false, decel := true } else ch) ch

/-- A stop of kind `st` begins, or takes over one in progress (R61, R76). -/
def ChanState.beginStop (ch : ChanState) (k : Nat) (st : StopKind) : ChanState :=
  let a := ch.arm k
  let moving := ch.armMoving k
  let as_ := ch.get (Reg.PRF_ASTS_ASTATE k)
  match st with
  | .keep =>
    if !moving || a.stopping.isSome || as_ == 3 then ch
    else (((ch.setArm k { a with stopping := some .keep }).slowJoints k).put (Reg.PRF_ASTS_ASTATE k) 2)
  | _ =>
    let kind := StopKind.max a.stopping (some st)
    (((ch.setArm k { a with stopping := kind }).slowJoints k).put (Reg.PRF_ASTS_ASTATE k) 4)

/-- GO of joint `j` as the evaluation takes it (R46 to R48, R65). -/
def ChanState.takeGo (ch : ChanState) (j : Nat) (tgt vtgt : Int) : ChanState :=
  let k := ch.armOf j
  let as_ := ch.get (Reg.PRF_ASTS_ASTATE k)
  let mode := ch.get (Reg.PRF_JCFG_MODE j)
  let bad := ch.get Reg.CHN_STATE_CODE != 5 || as_ == 2 || as_ == 3 || as_ == 4 || (ch.arm k).torqueOff
    || decide (2 ≤ ch.classInForce (some k)) || mode == 3
    || (mode == 2 && ch.get (Reg.PRF_JGDEN j) == 0)
    || (mode != 2 && (ch.get (Reg.PRF_JACC j) == 0 || ch.get (Reg.PRF_JDEC j) == 0))
    || (mode == 0 && ch.get (Reg.PRF_JVMAX j) == 0)
  if bad then ch.put (Reg.PRF_STS_REJ j) 1 else
  let x := ch.joint j
  match mode with
  | 0 => (ch.setJoint j { x with active := true, decel := false
                                 tgt := clampI tgt (ch.geti64 (Reg.PRF_JLIMLO j)) (ch.geti64 (Reg.PRF_JLIMHI j)) }).put
      (Reg.PRF_STS_TGTR j) 0
  | 1 => ch.setJoint j { x with active := true, decel := false, vtgt }
  | _ => if x.geared then ch else (ch.setJoint j { x with waiting := true }).put (Reg.PRF_STS_PHASE j) 5

/-- GO for every PTP and VEL joint of a joint-mode arm (R63, PRF_ACTL.GO). -/
def ChanState.goAll (ch : ChanState) (k : Nat) : ChanState :=
  (ch.armJoints k).foldl (fun ch j =>
    if ch.get (Reg.PRF_JCFG_MODE j) < 2 then ch.takeGo j (ch.joint j).smp.tgt (ch.joint j).smp.vtgt else ch) ch

/-- A segment-mode arm starts from standstill: the curve begins at each joint's command position (R52). -/
def ChanState.startStream (ch : ChanState) (k : Nat) (table : Option (Nat × Nat)) : ChanState :=
  let js := ch.armJoints k
  let a := ch.arm k
  let ch := (ch.setArm k { a with running := true, table, seg := none, broken := false, stopping := none
                                  p0 := js.map fun j => ch.geti64 (Reg.PRF_JCPOS j), v0 := js.map fun _ => 0 }).put
    (Reg.PRF_SPHASE k) 0
  if ch.hasNext k then ch.loadNext k else ch

/-- RESUME, PLAY and GO as the evaluation takes them (R53, R58, R63, R76); `stop` tells of a stop cause in this evaluation. -/
def ChanState.takeStarts (ch : ChanState) (k : Nat) (stop : Bool) : ChanState :=
  let c := (ch.arm k).smp
  let run := ch.get Reg.CHN_STATE_CODE == 5 && !stop && !(ch.arm k).torqueOff && decide (ch.classInForce (some k) < 2)
  let seg := ch.bit (Reg.PRF_ACFG_SEG k)
  let rej := fun (ch : ChanState) => ch.put (Reg.PRF_ASTS_GOREJ k) 1
  let ch :=
    if !c.resume then ch
    else if run && (ch.get (Reg.PRF_ASTS_ASTATE k) == 2 || ch.get (Reg.PRF_ASTS_ASTATE k) == 3) then
      let ch := (ch.setArm k { ch.arm k with stopping := none }).put (Reg.PRF_ASTS_ASTATE k) 1
      if seg then ch else ch.goAll k
    else rej ch
  let ready := fun (ch : ChanState) =>
    let as_ := ch.get (Reg.PRF_ASTS_ASTATE k)
    run && as_ != 2 && as_ != 3 && as_ != 4 && regionsOk ch.regions
  let ch := match c.play with
    | none => ch
    | some t =>
      if ready ch && seg && !(ch.arm k).running && ch.get (Reg.PRF_SAPP k) == ch.get (Reg.PRF_RCON k)
          && ch.get (Reg.PRF_TBLL_LEN t) != 0 && ch.get (Reg.PRF_TBLL_ARM t) == k then
        ((ch.add (Reg.PRF_SPLAY k) (ch.get (Reg.PRF_TBLL_LEN t))).startStream k (some (t, 0))).put (Reg.PRF_ASTS_ASTATE k) 1
      else rej ch
  if !c.go then ch
  else if !ready ch || (seg && (ch.arm k).running) then rej ch
  else if seg then (ch.startStream k none).put (Reg.PRF_ASTS_ASTATE k) 1
  else ch.goAll k

/-- The path time an arm holds, in 2^-12 basic cycle, and whether a FINAL segment is pending, on the count sampled at 0 ns
(R56, R76). -/
def ChanState.pathLeft (ch : ChanState) (k : Nat) : Nat × Bool :=
  let a := ch.arm k
  let cur := match a.seg with
    | some g => (g.dur * 4096 - ch.get (Reg.PRF_SPHASE k), g.final)
    | none => (0, false)
  match a.table with
  | some _ => (cur.1, true)
  | none =>
    let l := a.pend.take a.napp
    (cur.1 + 4096 * (l.map (·.dur)).sum, cur.2 || l.any (·.fin))

/-- The commands of a segment-mode arm's joints from its phase (R52, R55, R73, R74). -/
def ChanState.segCommands (ch : ChanState) (k s sPrev : Nat) : ChanState :=
  let a := ch.arm k
  let ph := ch.get (Reg.PRF_SPHASE k)
  let l := (ch.armJoints k).zip (List.range 10)
  let (ch, worst) := l.foldl (fun (acc : ChanState × Option Nat) jo =>
    let (ch, w) := acc
    let (j, o) := jo
    if ch.jOff j then (ch.follow j, w) else
    let p0 := a.p0.getD o 0
    let v0 := a.v0.getD o 0
    let c := match a.seg with
      | some g => hermite g.dur p0 v0 (g.p1.getD o p0) (g.v1.getD o 0) ph s sPrev
      | none => (p0 + rdiv (v0 * ph) 4096, rdiv (v0 * s) 4096, rdiv (256 * v0 * ((s : Int) - sPrev)) 16384)
    let (ch, cl) := ch.command j c.1 c.2.1 c.2.2
    (ch, if cl then some j else w)) (ch, none)
  match worst with
  | none => ch
  | some j =>
    if (ch.arm k).stopping.isSome then ch.put (Reg.PRF_ASTS_CLAMP k) 1
    else ((ch.put (Reg.PRF_ASTS_CLAMP k) 1).fault 0x0503 1 (some k) j 0).beginStop k .discard

/-- A running segment-mode arm: starvation, the phase, the segments passed, FINAL (R52, R56, R57). -/
def ChanState.segEval (ch : ChanState) (k sPrev : Nat) : ChanState :=
  let s := (ch.arm k).eff
  let ph := ch.get (Reg.PRF_SPHASE k) + 2 * (sPrev + s)
  let ch := ChanState.walk k 65536 (ch.put (Reg.PRF_SPHASE k) ph)
  let a := ch.arm k
  match a.seg with
  | none => ch.segCommands k s sPrev
  | some g =>
    let lim := g.dur * 4096
    let ph := ch.get (Reg.PRF_SPHASE k)
    if ph < lim then ch.segCommands k s sPrev
    else if g.final then
      let ch := (ch.put (Reg.PRF_SPHASE k) lim).segCommands k s sPrev
      let ch := ch.segPassed k
      let a := ch.arm k
      let ch := (ch.setArm k { a with running := false, table := none }).put (Reg.PRF_ASTS_DONE k) 1
      if a.stopping.isSome then ch else ch.put (Reg.PRF_ASTS_ASTATE k) 0
    else (ch.put (Reg.PRF_SPHASE k) lim).segCommands k s sPrev

/-- One joint of a joint-mode arm (R45 to R50, R65). -/
def ChanState.jointEval (ch : ChanState) (j : Nat) (m : Option Int) (s sPrev : Nat) : ChanState :=
  let ch := ch.takeParams j
  if ch.jOff j then
    let x := ch.joint j
    ((ch.setJoint j { x with active := false, decel := false, geared := false, waiting := false, mPrev := m }).put
      (Reg.PRF_STS_PHASE j) 0).follow j
  else
    let ch := if !(ch.joint j).smp.go then ch
      else if (ch.joint j).smp.stop then ch.put (Reg.PRF_STS_REJ j) 1
      else ch.takeGo j (ch.joint j).smp.tgt (ch.joint j).smp.vtgt
    let ch := if (ch.joint j).smp.stop then
        let ch := if (ch.joint j).geared || (ch.joint j).waiting then ch.disengage j else ch
        let x := ch.joint j
        if x.active then ch.setJoint j { x with active := false, decel := true } else ch
      else ch
    if ch.get (Reg.PRF_JCFG_MODE j) = 2 then ch.gearEval j m s sPrev
    else
      let x := ch.joint j
      let p := ch.geti64 (Reg.PRF_JCPOS j)
      let v := ch.geti (Reg.PRF_JCVEL j)
      if x.active then
        if ch.get (Reg.PRF_JCFG_MODE j) = 0 then
          let (ch, done) := ch.profile j (.ptp x.tgt) s sPrev
          let rev := reversal p v x.tgt x.dec x.jerk
          let ch := ch.putb (Reg.PRF_STS_REV j) rev
          if done then ((ch.setJoint j { ch.joint j with active := false }).put (Reg.PRF_STS_TGTR j) 1).put (Reg.PRF_STS_REV j) 0
          else ch
        else
          let (ch, done) := ch.profile j (.vel x.vtgt) s sPrev
          let ch := ch.putb (Reg.PRF_STS_REV j) (decide (ch.geti (Reg.PRF_JCVEL j) * x.vtgt < 0))
          if done then ch.setJoint j { ch.joint j with active := false } else ch
      else if x.decel then
        let (ch, done) := ch.profile j .stop s sPrev
        if done then ch.setJoint j { ch.joint j with decel := false, tgt := ch.geti64 (Reg.PRF_JCPOS j) } else ch
      else ch.holdCmd j

/-- Whether arm `k` stands: its override has come to 0, or its torque is off, or no joint of it moves (R61). -/
def ChanState.atRest (ch : ChanState) (k : Nat) : Bool :=
  let a := ch.arm k
  (ch.armJoints k).all (fun j => ch.jOff j) ||
    (if ch.bit (Reg.PRF_ACFG_SEG k) then !a.running || (a.s == 0 && a.rate == 0)
     else (ch.armJoints k).all fun j => let x := ch.joint j; !x.active && !x.decel && !x.geared)

/-- Engages the brakes of arm `k` at standstill after a category 1 stop; torque stays on for the longest ENGT (R162). -/
def ChanState.engageBrakes (ch : ChanState) (k : Nat) : ChanState :=
  let js := ch.armJoints k
  let t := forUpto 16 0 fun i m =>
    if ch.bit (Reg.BRK_CFG_EN i) && js.contains (ch.get (Reg.BRK_CFG_JOINT i)) then max m (ch.get (Reg.BRK_CFG_ENGT i)) else m
  let ch := js.foldl (fun ch j => ch.setBrakes j false) ch
  ch.setArm k { ch.arm k with engaging := some (ch.mono + 1000000 * t) }

/-- An arm whose stop is complete: HELD with its segments, or STOPPED without them; an F2 goes on to its brakes (R61, R162). -/
def ChanState.endStop (ch : ChanState) (k : Nat) : ChanState :=
  match (ch.arm k).stopping with
  | none => ch
  | some st =>
    if !ch.atRest k then ch else
    let ch := ch.setArm k { ch.arm k with stopping := none }
    match st with
    | .keep => ch.put (Reg.PRF_ASTS_ASTATE k) 3
    | .discard => (ch.discardSegments k).put (Reg.PRF_ASTS_ASTATE k) 5
    | .f2 => ((ch.discardSegments k).put (Reg.PRF_ASTS_ASTATE k) 5).engageBrakes k

/-- PRF_TSTOP of arm `k` (R62); while the override or a joint's acceleration changes the spec gives no formula. -/
def ChanState.stopTime (ch : ChanState) (k : Nat) : ChanState :=
  let a := ch.arm k
  let t : Int :=
    if ch.bit (Reg.PRF_ACFG_SEG k) then
      if a.rate = 0 then (if a.running then stopNs ch.fresh a.s (256 * ch.get (Reg.PRF_OVRDEC k)) (ch.get (Reg.PRF_OVRJRK k)) else 0)
      else (Config.free ch.fresh).toNat % 2 ^ 32
    else (ch.armJoints k).foldl (fun (m : Int) j =>
      if ch.geti (Reg.PRF_JCACC j) = 0 then
        max m (stopNs (ch.fresh + 1 + j) (65536 * (ch.geti (Reg.PRF_JCVEL j)).natAbs) (256 * (ch.joint j).dec) (ch.joint j).jerk)
      else max m ((Config.free (ch.fresh + 1 + j)).toNat % 2 ^ 32)) 0
  ({ ch with fresh := ch.fresh + 65 }).put (Reg.PRF_TSTOP k) (min t.toNat 0xFFFFFFFF)

/-- One evaluation of arm `k`; `m` gives the master of each joint as latched (R42 to R63, R76). -/
def ChanState.armEval (ch : ChanState) (m : Nat → Option Int) (k : Nat) : ChanState :=
  if ch.nj k = 0 then ch else
  let a := ch.arm k
  let seg := ch.bit (Reg.PRF_ACFG_SEG k)
  let mon := ch.bit Reg.SSM_CFG_EN && ch.bit (Reg.SSM_ACFG_EN k)
  let ch := if mon then ch else ch.put (Reg.PRF_OVRSSM_SSM k) 4096
  let ssm := if mon then a.ssmS else 4096
  let fell := decide (4096 ≤ a.ssm ∧ ssm < 4096)
  let ch := (ch.setArm k { ch.arm k with ssm, seen := true, stopL := none }).putb (Reg.PRF_ASTS_SEGMODE k) seg
  let cause := StopKind.max a.stopL (if a.smp.abort then some .discard else if a.smp.hold then some .keep else none)
  let ch := match cause with
    | some st => ch.beginStop k st
    | none => ch
  let ch := ch.takeStarts k cause.isSome
  let ch := if fell then (ch.armJoints k).foldl (fun ch j => if (ch.joint j).geared then ch.disengage j else ch) ch else ch
  let sPrev := (ch.arm k).eff
  let ch :=
    if seg && (ch.arm k).running && (ch.arm k).stopping.isNone then
      let (left, fin) := ch.pathLeft k
      if fin then ch else
      let (st, ch) := ch.starved k left
      if st then ((ch.put (Reg.PRF_ASTS_STARVE k) 1).fault 0x0501 1 (some k) 0xFFFF 0).beginStop k .discard else ch
    else ch
  let as_ := ch.get (Reg.PRF_ASTS_ASTATE k)
  let tgt := if as_ == 2 || as_ == 3 || as_ == 4 then 0 else min (ch.arm k).host ssm
  let ch := (ch.put (Reg.PRF_OVRSSM_TGT k) tgt).ovrStep k tgt
  let s := (ch.arm k).eff
  let ch := ch.put (Reg.PRF_OVR_EFF k) s
  let ch :=
    if seg then
      let ch := (ch.armJoints k).foldl (fun ch j => ch.takeParams j) ch
      if (ch.arm k).running && !(as_ == 3) then ch.segEval k sPrev
      else (ch.armJoints k).foldl (fun ch j => if ch.jOff j then ch.follow j else ch.holdCmd j) ch
    else
      let ch := (ch.armJoints k).foldl (fun ch j => ch.jointEval j (m j) s sPrev) ch
      let as_ := ch.get (Reg.PRF_ASTS_ASTATE k)
      if ch.armMoving k then (if as_ == 0 || as_ == 5 then ch.put (Reg.PRF_ASTS_ASTATE k) 1 else ch)
      else if as_ == 1 then ch.put (Reg.PRF_ASTS_ASTATE k) 0 else ch
  (ch.endStop k).stopTime k

/-- Whether every bound arm stands for the end of STOPPING: at rest, and after an F2 with its torque off (R29, R162). -/
def ChanState.allRest (ch : ChanState) : Bool :=
  ch.boundArms.all fun k =>
    let a := ch.arm k
    let as_ := ch.get (Reg.PRF_ASTS_ASTATE k)
    a.stopping.isNone && a.stopL.isNone && a.engaging.isNone && as_ != 1 && as_ != 2 && as_ != 4

/-- STOPPING ends in its target state (R29). -/
def ChanState.stopComplete (ch : ChanState) : ChanState :=
  if ch.get Reg.CHN_STATE_CODE = 6 ∧ ch.allRest then ch.goState (ch.get Reg.CHN_STATE_TARGET) 0xA else ch

/-- Compare units and divided-pulse outputs whose source is taken at the evaluation (R69, R187); the crossing instant is
interpolated between the two latches. -/
def ChanState.sourceEval (ch old : ChanState) : ChanState :=
  let t1 : Int := ch.now / 64000 * 64000
  let ch := forUpto 16 ch fun n ch =>
    if ch.get (Reg.CMP_CFG_SRC n) = 0 then ch else
    match old.master (ch.get (Reg.CMP_CFG_SRC n)) (ch.get (Reg.CMP_CFG_IDX n)) with
    | none => ch
    | some q =>
      let c := ch.geti64 (Reg.CMP_POS n)
      (ch.cmpSample n q fun p => t1 - 64000 + divFree (ch.fresh + n) (64000 * (c - p).natAbs) (q - p).natAbs)
  let ch := { ch with fresh := ch.fresh + 16 }
  forUpto 4 ch fun m ch =>
    if ch.get (Reg.DPO_CFG_SRC m) = 0 then ch else
    match old.master (ch.get (Reg.DPO_CFG_SRC m)) (ch.get (Reg.DPO_CFG_IDX m)) with
    | none => ch
    | some q => ch.dpoInput m (q / 65536)

/-- The next profile evaluation: time moves to its 1,600 ns (R42, R43). -/
def ChanState.profileEvaluation (ch : ChanState) : ChanState :=
  if !ch.loaded then ch else
  let from_ := match ch.pevT with
    | some t => max ch.now (t + 1)
    | none => ch.now
  let t := nextAt from_ 64000 1600
  let ch := { ch.advanceTo t with pevT := some t }
  let old := ch
  let m := fun j => old.master (old.get (Reg.PRF_JCFG_MSRC j)) (old.get (Reg.PRF_JCFG_MIDX j))
  let ch := forUpto 8 ch fun k ch => ch.armEval m k
  let ch := forUpto 64 ch fun j ch => if ch.bound j then ch.actualTest j else ch
  (ch.sourceEval old).stopComplete

/-! ### The commands -/

/-- PROFILE_EVALUATION (R42). -/
def execProfileEvaluation (c : Chan) (s : State) : Host.Outcome State Fault Refusal := live s c ChanState.profileEvaluation

/-- ARM_GO: a write of PRF_ACTL.GO. -/
def execArmGo (c : Chan) (k : Fin 8) (s : State) : Host.Outcome State Fault Refusal :=
  live s c fun ch => (ch.hostW .pcie).armCmd k.val fun a => { a with go := true }

/-- HOLD (R61): a write of PRF_ACTL.HOLD. -/
def execHold (c : Chan) (k : Fin 8) (s : State) : Host.Outcome State Fault Refusal :=
  live s c fun ch => (ch.hostW .pcie).armCmd k.val fun a => { a with hold := true }

/-- RESUME (R63): a write of PRF_ACTL.RESUME. -/
def execResume (c : Chan) (k : Fin 8) (s : State) : Host.Outcome State Fault Refusal :=
  live s c fun ch => (ch.hostW .pcie).armCmd k.val fun a => { a with resume := true }

/-- ABORT (R61): a write of PRF_ACTL.ABORT. -/
def execAbort (c : Chan) (k : Fin 8) (s : State) : Host.Outcome State Fault Refusal :=
  live s c fun ch => (ch.hostW .pcie).armCmd k.val fun a => { a with abort := true }

/-- PLAY (R58): a write of PRF_ACTL.PLAY with table `t`. -/
def execPlay (c : Chan) (k : Fin 8) (t : Fin 32) (s : State) : Host.Outcome State Fault Refusal :=
  live s c fun ch => (ch.hostW .pcie).armCmd k.val fun a => { a with play := some t.val }

/-- JOINT_GO (R46 to R48): a write of PRF_JCTL.GO. -/
def execJointGo (c : Chan) (j : Fin 64) (s : State) : Host.Outcome State Fault Refusal :=
  live s c fun ch => (ch.hostW .pcie).jointGo j.val

/-- JOINT_STOP (R45, R67): a write of PRF_JCTL.STOP. -/
def execJointStop (c : Chan) (j : Fin 64) (s : State) : Host.Outcome State Fault Refusal :=
  live s c fun ch => (ch.hostW .pcie).jointStop j.val

/-- ARM (R66): a write of PRF_JCTL.ARM. -/
def execArm (c : Chan) (j : Fin 64) (s : State) : Host.Outcome State Fault Refusal :=
  live s c fun ch => (ch.hostW .pcie).jointCmd j.val fun x => { x with arm := true }

/-- DISARM (R66): a write of PRF_JCTL.DISARM. -/
def execDisarm (c : Chan) (j : Fin 64) (s : State) : Host.Outcome State Fault Refusal :=
  live s c fun ch => (ch.hostW .pcie).jointCmd j.val fun x => { x with disarm := true, arm := false }

/-- SEGMENT_APPEND (R54): a write of PRF_SAPP. -/
def execSegmentAppend (c : Chan) (k : Fin 8) (cnt : Word) (s : State) : Host.Outcome State Fault Refusal :=
  live s c fun ch => (ch.hostW .pcie).segmentAppend k.val cnt.toNat

/-- RAMP_PARAMETER_WRITE (R50). -/
def execRampParameterWrite (c : Chan) (j : Fin 64) (which : RampParam) (v : Word) (s : State) : Host.Outcome State Fault Refusal :=
  live s c fun ch => (ch.hostW .pcie).rampWrite j.val which v.toNat

end Sys2Proof.Machine
end

