-- ==== Sys2Proof/Machine/Safe.lean ====
section
/-!
DEFINITION. The safety island: inputs, test pulses, signals, function blocks, the logic matrix, STO groups and safe outputs
(R256 to R278), safety connections (R279 to R285), safety positions (R185, R186).
-/
namespace Sys2Proof.Machine

open Sys2Proof

def ChanState.fb (ch : ChanState) (f : Nat) : Fb := Tab.get ch.saf.fb {} f
def ChanState.setFb (ch : ChanState) (f : Nat) (b : Fb) : ChanState :=
  { ch with saf := { ch.saf with fb := Tab.set ch.saf.fb {} f b } }
def ChanState.conn (ch : ChanState) (i : Nat) : Scx := Tab.get ch.scx {} i
def ChanState.setConn (ch : ChanState) (i : Nat) (x : Scx) : ChanState := { ch with scx := Tab.set ch.scx {} i x }

/-- A fault with a lasting cause: raised when the cause appears, its cause ended when it goes (R428). -/
def ChanState.lasting (ch : ChanState) (code cls : Nat) (scope : Option Nat) (index : Nat) (on : Bool) : ChanState :=
  let held := ch.flt.active.any fun a => a.code == code && a.scope == scope && a.index == index && a.held
  if on then (if held then ch else ch.raise code cls scope index 0 true)
  else if held then ch.causeGone code scope index else ch

/-- Whether the safety logic is evaluated (R276). -/
def ChanState.logicOn (ch : ChanState) : Bool := ch.loaded && ch.get Reg.CHN_STATE_CODE != 0xB

/-- Whether an F3 is active. -/
def ChanState.f3 (ch : ChanState) : Bool := ch.flt.active.any fun a => a.cls == 3

/-! ### Signals (R262) -/

/-- A safety input as the logic reads it: its filtered level, 0 while it has a test-pulse fault (R261). -/
def ChanState.siLevel (ch : ChanState) (i : Nat) : Bool := tbit (ch.get Reg.SAF_SIN_SIN) i && !tbit ch.saf.tpErr i

/-- Mapped connection bit `b`; 0 where it is not mapped or its connection is lost (R262, R284). -/
def ChanState.mapped (ch : ChanState) (b : Nat) : Bool :=
  ch.bit (Reg.SAF_SMAP_EN b) &&
    tbit ((ch.conn (ch.get (Reg.SAF_SMAP_CONN b))).eff.getD (ch.get (Reg.SAF_SMAP_BYTE b)) 0).toNat (ch.get (Reg.SAF_SMAP_BIT b))

/-- The signal of a code (R262): codes 0x30 to 0x3F hold the previous tick. -/
def ChanState.signal (ch : ChanState) (code : Nat) : Bool :=
  if code < 20 then ch.siLevel code
  else if code < 0x1F then false
  else if code = 0x1F then true
  else if code < 0x30 then ch.bit (Reg.SAF_FBSTS_OUT (code - 0x20))
  else if code < 0x40 then tbit ch.saf.o (code - 0x30)
  else if code < 0x48 then !ch.bit (Reg.SSM_ASTS_STOP (code - 0x40))
  else if code = 0x48 then ch.bit Reg.SAF_STS_RSTQ
  else if 0x50 ≤ code ∧ code < 0x80 then ch.mapped (code - 0x50)
  else false

/-! ### Safety inputs, test pulses, the reset input (R260, R261, R266) -/

/-- Measures the press of every RESET block against its input as it stands (R266). -/
def ChanState.presses (ch : ChanState) : ChanState :=
  forUpto 16 ch fun f ch =>
    if ch.get (Reg.SAF_FBCFG_TYPE f) ≠ 5 then ch else
    let b := ch.fb f
    let lv := ch.signal (ch.get (Reg.SAF_FBIN_IN0 f))
    if lv && !b.last then ch.setFb f { b with last := true, press := some ch.mono }
    else if !lv && b.last then
      let ch := ch.setFb f { b with last := false, press := none }
      match b.press with
      | none => ch
      | some t =>
        let d := ch.mono - t
        if ch.get (Reg.SAF_FBTIM_T0 f) * 1000000 ≤ d ∧ d ≤ ch.get (Reg.SAF_FBTIM_T1 f) * 1000000 then
          let ch := { ch with saf := { ch.saf with qrel := insertBits ch.saf.qrel f 1 1 } }
          if f = ch.get Reg.SAF_CFG_RSTFB then
            { (ch.put Reg.SAF_STS_RSTQ 1) with
              saf := { ch.saf with window := some (ch.mono + ch.get Reg.SAF_CFG_RSTWIN * 1000000000) } }
          else ch
        else (ch.put (Reg.SAF_FBSTS_PRESS f) 1).fault 0x0A07 0 none f 0
    else ch

/-- A safety input's new level is accepted by its filter (R260). -/
def ChanState.siAccept (ch : ChanState) (i : Nat) (lvl : Bool) : ChanState :=
  let ch := (ch.setBit Reg.SAF_SIN_SIN i lvl).setBit Reg.SAF_SIRAW_RAW i lvl
  if ch.logicOn then ch.presses else ch

/-- The qualification is used or has run out (R266). -/
def ChanState.dropReset (ch : ChanState) : ChanState :=
  { (ch.put Reg.SAF_STS_RSTQ 0) with saf := { ch.saf with window := none } }

/-- The end of the reset window. -/
def ChanState.windowEnd (ch : ChanState) : ChanState :=
  match ch.saf.window with
  | none => ch
  | some t => (ch.advanceMono t).dropReset

/-- Period of the test pulses, and where in it output `t` pulses, in ns (R261). -/
def ChanState.tpPer (ch : ChanState) : Nat := ch.get Reg.SAF_TPCFG_PER * 1000000
def ChanState.tpOfs (ch : ChanState) (t : Nat) : Nat := t * ch.get Reg.SAF_TPCFG_PER * 250000

/-- Shows in each block whether an input of it has a test-pulse fault (R261). -/
def ChanState.tpShow (ch : ChanState) : ChanState :=
  forUpto 16 ch fun f ch =>
    let ins := [Reg.SAF_FBIN_IN0 f, Reg.SAF_FBIN_IN1 f, Reg.SAF_FBIN_IN2 f, Reg.SAF_FBIN_IN3 f].map ch.get
    ch.putb (Reg.SAF_FBSTS_TPERR f) (ch.get (Reg.SAF_FBCFG_TYPE f) != 0 && ins.any fun c => decide (c < 20) && tbit ch.saf.tpErr c)

/-- Whether output `t` gives test pulses (R261). -/
def ChanState.tpOn (ch : ChanState) (t : Nat) : Bool :=
  ch.logicOn && tbit (ch.get Reg.SAF_TPCFG_EN) t && ch.get Reg.SAF_TPCFG_PER != 0

/-- The pulse of output `t` begins. -/
def ChanState.tpBegin (ch : ChanState) (t : Nat) : ChanState :=
  if !ch.tpOn t || tbit ch.saf.tpLow t then ch else
  let ch := ch.advanceTo (nextAt ch.now ch.tpPer (ch.tpOfs t))
  { ch with saf := { ch.saf with tpLow := insertBits ch.saf.tpLow t 1 1 } }

/-- The pulse of output `t` ends. -/
def ChanState.tpEnd (ch : ChanState) (t : Nat) : ChanState :=
  if !tbit ch.saf.tpLow t then ch else
  let ch := if ch.tpPer = 0 then ch
    else ch.advanceTo (nextAt ch.now ch.tpPer (ch.tpOfs t + 10000 * ch.get Reg.SAF_TPCFG_WID))
  { ch with saf := { ch.saf with tpLow := insertBits ch.saf.tpLow t 1 0 } }

/-- The read-back in the last 10 µs of a pulse of output `t`; `highs` are the inputs read as 1 (R261). -/
def ChanState.tpSample (ch : ChanState) (t highs : Nat) : ChanState :=
  if !ch.tpOn t || !tbit ch.saf.tpLow t then ch else
  let ch := ch.advanceTo (nextAt ch.now ch.tpPer (ch.tpOfs t + 10000 * ch.get Reg.SAF_TPCFG_WID - 10000))
  let ch := forUpto 20 ch fun i ch =>
    if ch.bit (Reg.SAF_SIFLT_EN i) && ch.get (Reg.SAF_SIFLT_TP i) == t + 1 && tbit (ch.get Reg.SAF_SIN_SIN) i then
      let bad := tbit highs i
      let ch := { ch with saf := { ch.saf with tpErr := insertBits ch.saf.tpErr i 1 (b2n bad) } }
      (if bad then ch.put Reg.SAF_STS_TPERR 1 else ch).lasting 0x0A02 3 none i bad
    else ch
  ch.tpShow

/-! ### Function blocks (R263 to R267) -/

/-- Raises a discrepancy of block `f` (R264, R265). -/
def ChanState.discrepancy (ch : ChanState) (f : Nat) : ChanState :=
  if ch.bit (Reg.SAF_FBSTS_DISC f) then ch else
  ((ch.put (Reg.SAF_FBSTS_DISC f) 1).put Reg.SAF_STS_DISCERR 1).lasting 0x0A01 3 none f true

/-- Ends a discrepancy of block `f`. -/
def ChanState.agree (ch : ChanState) (f : Nat) : ChanState :=
  if ch.bit (Reg.SAF_FBSTS_DISC f) then (ch.put (Reg.SAF_FBSTS_DISC f) 0).lasting 0x0A01 3 none f false else ch

/-- The output of block `f` falls (R264, R267). -/
def ChanState.blockFall (ch : ChanState) (f : Nat) : ChanState :=
  let b := ch.fb f
  let ch := ((ch.setFb f { b with d0 := false, d1 := false, both := false }).put (Reg.SAF_FBSTS_OUT f) 0).add (Reg.SAF_FBSTS_DEM f) 1
  if ch.bit (Reg.SAF_FBCFG_RST f) then ch.put (Reg.SAF_FBSTS_WAITRST f) 1 else ch

/-- Whether channel `i` of dual-channel block `f` permits (R264). -/
def ChanState.permits (ch : ChanState) (f i : Nat) : Bool :=
  if i = 0 then ch.signal (ch.get (Reg.SAF_FBIN_IN0 f))
  else (ch.signal (ch.get (Reg.SAF_FBIN_IN1 f))) != (ch.get (Reg.SAF_FBCFG_TYPE f) == 2 && ch.bit (Reg.SAF_FBCFG_ANTI f))

/-- An ESTOP, DOOR or OSSD block at a tick (R264, R267). -/
def ChanState.dualBlock (ch : ChanState) (f : Nat) : ChanState :=
  let b := ch.fb f
  let p0 := ch.permits f 0
  let p1 := ch.permits f 1
  let lock := !(ch.get (Reg.SAF_FBCFG_TYPE f) == 2 && ch.bit (Reg.SAF_FBCFG_LOCKEN f)) || ch.signal (ch.get (Reg.SAF_FBIN_IN2 f))
  let since := if p0 == p1 then none else match b.since with | none => some ch.mono | t => t
  let ch := ch.setFb f { b with since }
  let ch := match since with
    | some t => if t + ch.get (Reg.SAF_FBTIM_T0 f) * 1000000 ≤ ch.mono then ch.discrepancy f else ch
    | none => ch
  let ch := if ch.bit (Reg.SAF_FBSTS_OUT f) && !(p0 && p1 && lock) then ch.blockFall f else ch
  let ch := if ch.bit (Reg.SAF_FBSTS_OUT f) then ch else
    let b' := ch.fb f
    let ch := if (p0 && !b.p0 && b'.d0 && !b'.d1) || (p1 && !b.p1 && b'.d1 && !b'.d0) then ch.discrepancy f else ch
    let b' := { b' with d0 := b'.d0 || !p0, d1 := b'.d1 || !p1, both := b'.both || (!p0 && !p1) }
    let ch := ch.setFb f b'
    let ch := if !p0 && !p1 then ch.agree f else ch
    if p0 && p1 && lock && b'.both && !ch.bit (Reg.SAF_FBSTS_DISC f) then
      let ch := if tbit ch.saf.qrel (ch.get (Reg.SAF_FBCFG_RFB f)) then ch.put (Reg.SAF_FBSTS_WAITRST f) 0 else ch
      if ch.bit (Reg.SAF_FBCFG_RST f) && ch.bit (Reg.SAF_FBSTS_WAITRST f) then ch else ch.put (Reg.SAF_FBSTS_OUT f) 1
    else ch
  ch.setFb f { ch.fb f with p0, p1 }

/-- A TWOHAND block at a tick (R265). -/
def ChanState.handBlock (ch : ChanState) (f : Nat) : ChanState :=
  let b := ch.fb f
  let sig := fun r => ch.signal (ch.get r)
  let a0 := sig (Reg.SAF_FBIN_IN0 f) && !sig (Reg.SAF_FBIN_IN1 f)
  let r0 := !sig (Reg.SAF_FBIN_IN0 f) && sig (Reg.SAF_FBIN_IN1 f)
  let a1 := sig (Reg.SAF_FBIN_IN2 f) && !sig (Reg.SAF_FBIN_IN3 f)
  let r1 := !sig (Reg.SAF_FBIN_IN2 f) && sig (Reg.SAF_FBIN_IN3 f)
  let ns := fun (def_ : Bool) (o : Option Nat) => if def_ then none else match o with | none => some ch.mono | t => t
  let b := { b with
    at0 := if a0 && !b.act0 then ch.mono else b.at0
    at1 := if a1 && !b.act1 then ch.mono else b.at1
    act0 := a0, act1 := a1, rel0 := b.rel0 || r0, rel1 := b.rel1 || r1
    ns0 := ns (a0 || r0) b.ns0, ns1 := ns (a1 || r1) b.ns1 }
  let t1 := ch.get (Reg.SAF_FBTIM_T1 f) * 1000000
  let passed := fun o : Option Nat => match o with | some t => decide (t + t1 ≤ ch.mono) | none => false
  let ch := ch.setFb f b
  let ch := if passed b.ns0 || passed b.ns1 then ch.discrepancy f
    else if b.ns0.isNone && b.ns1.isNone then ch.agree f else ch
  if ch.bit (Reg.SAF_FBSTS_OUT f) then (if a0 && a1 then ch else ch.blockFall f)
  else if a0 && a1 && b.rel0 && b.rel1 && !ch.bit (Reg.SAF_FBSTS_DISC f) then
    let ch := ch.setFb f { b with rel0 := false, rel1 := false }
    if max b.at0 b.at1 - min b.at0 b.at1 ≤ ch.get (Reg.SAF_FBTIM_T0 f) * 1000000 then ch.put (Reg.SAF_FBSTS_OUT f) 1
    else (ch.put (Reg.SAF_FBSTS_LATE f) 1).fault 0x0A06 0 none f 0
  else ch

/-- Every block at a tick; what a RESET block's output reads is not stated (R262, R263). -/
def ChanState.blocks (ch : ChanState) : ChanState :=
  forUpto 16 ch fun f ch =>
    match ch.get (Reg.SAF_FBCFG_TYPE f) with
    | 1 | 2 | 4 => ch.dualBlock f
    | 3 => ch.handBlock f
    | 5 => let (v, ch) := ch.draw; ch.put (Reg.SAF_FBSTS_OUT f) (v % 2)
    | _ => ch

/-! ### The logic matrix (R268) -/

/-- The 128 bits of a term's mask, from word 0. -/
def ChanState.mask4 (ch : ChanState) (w0 w1 w2 w3 : RF) : Nat :=
  ch.get w0 + ch.get w1 * 2 ^ 32 + ch.get w2 * 2 ^ 64 + ch.get w3 * 2 ^ 96

/-- Term `t` over the signal bits `s` (R268). -/
def ChanState.term (ch : ChanState) (s t : Nat) : Bool :=
  let pos := ch.mask4 (Reg.SAF_LTPOS_0 t) (Reg.SAF_LTPOS_1 t) (Reg.SAF_LTPOS_2 t) (Reg.SAF_LTPOS_3 t)
  let neg := ch.mask4 (Reg.SAF_LTNEG_0 t) (Reg.SAF_LTNEG_1 t) (Reg.SAF_LTNEG_2 t) (Reg.SAF_LTNEG_3 t)
  (pos != 0 || neg != 0) && Nat.land pos s == pos && Nat.land neg s == 0

/-- The outputs O0 to O15; at basic level they read 0 (R268). -/
def ChanState.matrixOut (ch : ChanState) (s : Nat) : Nat :=
  if !ch.bit Reg.SAF_CFG_LEVEL then 0 else
  let terms := forUpto 64 0 fun t m => if ch.term s t then m + 2 ^ t else m
  forUpto 16 0 fun m v => if Nat.land (ch.get64 (Reg.SAF_LOR m)) terms != 0 then v + 2 ^ m else v

/-- All signals of the tick as one number. -/
def ChanState.signals (ch : ChanState) : Nat := forUpto 128 0 fun i v => if ch.signal i then v + 2 ^ i else v

/-- The AND of the block outputs of a mask and a signal (R269, R274). -/
def ChanState.permissive (ch : ChanState) (fbMask sig : Nat) : Bool :=
  (List.range 16).all (fun f => !tbit fbMask f || ch.bit (Reg.SAF_FBSTS_OUT f)) && ch.signal sig

/-! ### STO groups and safe outputs (R269, R270, R274) -/

/-- The arms with a joint in group `g`. -/
def ChanState.groupArms (ch : ChanState) (g : Nat) : List Nat :=
  ch.boundArms.filter fun k => (ch.armJoints k).any fun j => ch.groupOf j == g

/-- Whether an F2 of this chapter is active for an arm with a joint in group `g`, or for the channel (R269). -/
def ChanState.groupF2 (ch : ChanState) (g : Nat) : Bool :=
  ch.flt.active.any fun a => (a.code == 0x0A0A || a.code == 0x0A0B) &&
    match a.scope with | none => true | some k => (ch.groupArms g).contains k

/-- The stop of group `g`'s arms has ended: every group that shares an arm stays off until the F2 clears (R269, R270). -/
def ChanState.groupEnd (ch : ChanState) (g : Nat) : ChanState :=
  let arms := ch.groupArms g
  let ch := ({ ch with saf := { ch.saf with ss1 := Tab.set ch.saf.ss1 none g none } }).put (Reg.SAF_STOSTS_SS1 g) 0
  forUpto 4 ch fun h ch =>
    if h = g ∨ (ch.groupArms h).any (fun k => arms.contains k) then
      let ch := ch.put (Reg.SAF_STOSTS_WAITCLR h) 1
      if ch.bit (Reg.SAF_STOSTS_ENG h) then ch.groupOff h else ch
    else ch

/-- Raises an F2 with a lasting cause for a set of arms, for the channel where the set holds every bound arm (R270). -/
def ChanState.demandArms (ch : ChanState) (code : Nat) (arms : List Nat) (g : Nat) : ChanState :=
  if ch.boundArms.all (fun k => arms.contains k) ∧ arms ≠ [] then ch.lasting code 2 none g true
  else arms.foldl (fun ch k => ch.lasting code 2 (some k) g true) ch

/-- Group `g`'s permissive at a tick: a fall while energised starts its stop (R270). -/
def ChanState.groupPerm (ch : ChanState) (g : Nat) : ChanState :=
  let p := ch.bit (Reg.SAF_STOCFG_EN g) && ch.permissive (ch.get (Reg.SAF_STOCFG_FBMASK g)) (ch.get (Reg.SAF_STOCFG_SIG g))
  let old := ch.bit (Reg.SAF_STOSTS_PERM g)
  let ch := ch.putb (Reg.SAF_STOSTS_PERM g) p
  if old && !p then
    let ch := ch.add (Reg.SAF_STOSTS_DEM g) 1
    if !ch.bit (Reg.SAF_STOSTS_ENG g) || ch.bit (Reg.SAF_STOSTS_SS1 g) then ch
    else if ch.bit (Reg.SAF_STOCFG_CAT g) then
      let t := ch.mono + ch.get (Reg.SAF_STOT_SS1T g) * 10000000
      let ch := ({ ch with saf := { ch.saf with ss1 := Tab.set ch.saf.ss1 none g (some t) } }).put (Reg.SAF_STOSTS_SS1 g) 1
      ch.demandArms 0x0A0A (ch.groupArms g) g
    else (ch.groupEnd g).demandArms 0x0A0B (ch.groupArms g) g
  else if !old && p then
    (none :: (List.range 8).map some).foldl
      (fun ch sc => (ch.lasting 0x0A0A 2 sc g false).lasting 0x0A0B 2 sc g false) ch
  else ch

/-- Whether every arm of group `g` stands in STOPPED with its brakes engaged (R162, R270). -/
def ChanState.groupStopped (ch : ChanState) (g : Nat) : Bool :=
  (ch.groupArms g).all fun k => ch.get (Reg.PRF_ASTS_ASTATE k) == 5 && (ch.arm k).engaging.isNone &&
    (ch.armJoints k).all fun j => ch.bit (Reg.JNT_STS_TOFF j)

/-- The end of SS1-t by standstill (R270). -/
def ChanState.ss1Check (ch : ChanState) : ChanState :=
  forUpto 4 ch fun g ch => if ch.bit (Reg.SAF_STOSTS_SS1 g) && ch.groupStopped g then ch.groupEnd g else ch

/-- Energises and de-energises the groups as R269's conditions stand. -/
def ChanState.groupsReview (ch : ChanState) : ChanState :=
  let ch := forUpto 4 ch fun g ch =>
    let ch := if ch.groupF2 g then ch else ch.put (Reg.SAF_STOSTS_WAITCLR g) 0
    let ok := ch.bit (Reg.SAF_STOCFG_EN g) && ch.torqueState && !ch.bit (Reg.SAF_STOSTS_WAITCLR g) && !ch.f3 &&
      (ch.bit (Reg.SAF_STOSTS_PERM g) || ch.bit (Reg.SAF_STOSTS_SS1 g))
    if ok then ch.put (Reg.SAF_STOSTS_ENG g) 1
    else if ch.bit (Reg.SAF_STOSTS_ENG g) then ch.groupOff g else ch
  ch.torqueReview

/-- The safe output pairs at a tick (R274). -/
def ChanState.outputsReview (ch : ChanState) : ChanState :=
  forUpto 8 ch fun n ch =>
    let p := ch.bit (Reg.SAF_SOCFG_EN n) && ch.permissive (ch.get (Reg.SAF_SOCFG_FBMASK n)) (ch.get (Reg.SAF_SOCFG_SIG n))
    let c := ch.get Reg.CHN_STATE_CODE
    let on := p && (c == 3 || c == 4 || c == 5 || c == 6) && !ch.f3
    (ch.setBit Reg.SAF_SOSTS_PERM n p).setBit Reg.SAF_SOSTS_ENG n on

/-! ### Containers (R279 to R285) -/

/-- The node and slots of a torque-on payload: bit s while the group of the joint bound there is energised (R271). -/
def ChanState.torqueOn (ch : ChanState) (node : Nat) : Nat :=
  (List.range 64).foldl (fun v j =>
    if ch.get (Reg.JNT_BIND_KIND j) ≥ 3 && ch.get (Reg.JNT_BIND_NODE j) == node && ch.bit (Reg.SAF_STOSTS_ENG (ch.groupOf j))
    then insertBits v (ch.get (Reg.JNT_BIND_SLOT j)) 1 1 else v) 0

/-- The payload of producer connection `i` (R271, R284). -/
def ChanState.payload (ch : ChanState) (i : Nat) : List Byte :=
  let len := ch.get (Reg.SCX_CFG_LEN i)
  let v := match ch.get (Reg.SCX_CFG_KIND i) with
    | 1 => ch.torqueOn (ch.get (Reg.SCX_CFG_NODE i)) % 256
    | 2 => forUpto 16 0 fun b v =>
        let code := ch.get (Reg.SCX_EXPV i (b / 4)) / 2 ^ (8 * (b % 4)) % 256
        if code < 128 && tbit (ch.get (Reg.SAF_SIG (code / 32))) (code % 32) then v + 2 ^ b else v
    | _ => 0
  leBytes len v

/-- The producer identity of connection `i` (R283). -/
def ChanState.producerId (ch : ChanState) (i : Nat) : Nat :=
  if ch.bit (Reg.SCX_CFG_PIDSEL i) then ch.get64 (Reg.SCX_PID i) else ch.get64 Reg.CHN_DEVID

/-- The check value of a container's first 18 + LEN bytes under a connection's CID and PID (R280). -/
def containerCrc (cid pid : Nat) (bs : List Byte) : Nat := crc32cFrom (crc32c (leBytes 2 cid ++ leBytes 8 pid)) bs

/-- Shows the torque-on bits sent to a node (SAF_RTON, R271). -/
def ChanState.showTorqueOn (ch : ChanState) (node : Nat) : ChanState :=
  forUpto 64 ch fun j ch =>
    if ch.get (Reg.JNT_BIND_KIND j) ≥ 3 && ch.get (Reg.JNT_BIND_NODE j) == node then
      ch.put64 Reg.SAF_RTON (insertBits (ch.get64 Reg.SAF_RTON) j 1 (b2n (ch.bit (Reg.SAF_STOSTS_ENG (ch.groupOf j)))))
    else ch

/-- The next container of producer connection `i` (R279, R280, R283). -/
def ChanState.container (ch : ChanState) (i : Nat) : List Byte × ChanState :=
  let x := ch.conn i
  let cid := ch.get (Reg.SCX_CID_CID i)
  let pid := ch.producerId i
  let ts := if ch.bit (Reg.SCX_CFG_PATH i) then ch.saf.tsPlant else ch.saf.ts
  let bs := leBytes 2 cid ++ leBytes 2 x.next ++ leBytes 8 pid ++ leBytes 4 ts ++
    leBytes 1 (ch.get (Reg.SCX_CFG_LEN i)) ++ leBytes 1 0 ++ ch.payload i
  let ch := ((ch.setConn i { x with next := (x.next + 1) % 2 ^ 16 }).put (Reg.SCX_SEQ_LAST i) x.next).add (Reg.SCX_ACC i) 1
  let ch := if ch.get (Reg.SCX_CFG_KIND i) = 1 then ch.showTorqueOn (ch.get (Reg.SCX_CFG_NODE i)) else ch
  (bs ++ leBytes 4 (containerCrc cid pid bs), ch)

/-- Whether producer connection `i` sends in this basic cycle (R276, R283). -/
def ChanState.produces (ch : ChanState) (i : Nat) : Bool :=
  let c := ch.get Reg.CHN_STATE_CODE
  ch.bit (Reg.SCX_CFG_EN i) && ch.bit (Reg.SCX_CFG_DIR i) && ch.logicOn && ch.get (Reg.SCX_CFG_PER i) != 0 &&
    ch.cycle % ch.get (Reg.SCX_CFG_PER i) == 0 && !(ch.get (Reg.SCX_CFG_KIND i) == 1 && (c == 9 || c == 0xA))

/-- The datagrams of the plant-port producers at a tick, one per connection (R283, R285). -/
def ChanState.plantSend (ch : ChanState) : ChanState :=
  forUpto 128 ch fun i ch =>
    if ch.bit (Reg.SCX_CFG_PATH i) && ch.produces i && !ch.blockDown 2 then
      let (bs, ch) := ch.container i
      { ch with sent := ch.sent ++ [.datagram (leBytes 1 1 ++ leBytes 1 1 ++ leBytes 2 0 ++ bs)] }
    else ch

/-- The volume sources fed by connection `i` (R221). -/
def ChanState.sourcesOf (ch : ChanState) (i : Nat) : List Nat :=
  (List.range 8).filter fun s => ch.bit (Reg.SSM_VSRC_EN s) && ch.get (Reg.SSM_VSRC_CONN s) == i

/-- Entry `e` of a volume payload as volume `v` of source `s`; none where it is empty (R221). -/
def volumeOf (pl : List Byte) (e s acc : Nat) : Option Vol :=
  let zh := leAt pl (6 * e + 5) 1
  if (pl.drop (6 * e)).length < 6 || zh % 16 == 0 then none else
  some { x := 10000 * wrapS 16 (leAt pl (6 * e) 2), y := 10000 * wrapS 16 (leAt pl (6 * e + 2) 2),
         z := 250000 * (zh / 16), h := 250000 * (zh % 16), r := 10000 * leAt pl (6 * e + 4) 1 + 7072, src := s, acc }

/-- An accepted container replaces all volumes of its sources, and ends their loss (R221, R229). -/
def ChanState.volumesTake (ch : ChanState) (i : Nat) (pl : List Byte) : ChanState :=
  (ch.sourcesOf i).foldl (fun ch s =>
    let nv := min (ch.get (Reg.SSM_VSRC_NV s)) 8
    let base := ch.get (Reg.SSM_VSRC_VBASE s)
    let ch := forUpto nv ch fun e ch =>
      let v := volumeOf pl e s ch.now
      ({ ch with sep := { ch.sep with vols := Tab.set ch.sep.vols none (base + e) v } }).setBit Reg.SSM_VVAL (base + e) v.isSome
    let n := ((List.range (pl.length / 6)).filter fun e => (volumeOf pl e s 0).isSome).length
    let ch := ((ch.put (Reg.SSM_VSTS_NVAL s) n).add (Reg.SSM_VSTS_ACC s) 1).put (Reg.SSM_VSTS_LOST s) 0
    ((ch.setBit Reg.SSM_VSLOST_LOST s false).lasting 0x0909 1 none s false).lasting 0x0908 2 none s false) ch

/-- A container is accepted (R281). -/
def ChanState.scxAccept (ch : ChanState) (i seq d : Nat) (pl : List Byte) : ChanState :=
  let ch := ch.setConn i { ch.conn i with pay := pl, wd := some ch.mono, refused := false }
  let ch := (((ch.put (Reg.SCX_SEQ_LAST i) seq).add (Reg.SCX_SEQ_GAP i) (d - 1)).add (Reg.SCX_ACC i) 1).put (Reg.SCX_LACC i) ch.now
  let ch := ch.put (Reg.SCX_STS_STATE i) 1
  let ch := ch.lasting 0x0A09 1 none i false
  if ch.get (Reg.SCX_CFG_KIND i) = 4 then ch.volumesTake i pl else ch

/-- A container is refused with a cause (R281). -/
def ChanState.scxRefuse (ch : ChanState) (i cause : Nat) : ChanState :=
  let ch := (ch.setConn i { ch.conn i with refused := true }).put (Reg.SCX_STS_LASTREF i) cause
  let cnt := match cause with
    | 1 => Reg.SCX_REFC_CRC i
    | 2 => Reg.SCX_REFC_ID i
    | 4 => Reg.SCX_REFC_TIME i
    | _ => Reg.SCX_REFC_SEQ i
  ((ch.put (Reg.SCX_STS_REF i) 1).incSat cnt).fault 0x0A08 0 none i 0

/-- The first failing check of a container at connection `i`; 0 where all pass, with the sequence check left to the caller
where `resync` (R281, R282). -/
def ChanState.scxCause (ch : ChanState) (i : Nat) (bs : List Byte) (resync : Bool) : Nat :=
  let len := leAt bs 16 1
  let d := (leAt bs 2 2 + 2 ^ 16 - ch.get (Reg.SCX_SEQ_LAST i)) % 2 ^ 16
  let now := if ch.bit (Reg.SCX_CFG_PATH i) then ch.dom (1 + ch.get Reg.TIM_PSEL_SEL) else ch.now
  let a := wrapS 32 ((now : Int) - leAt bs 12 4)
  if len ≠ ch.get (Reg.SCX_CFG_LEN i) ∨ leAt bs 17 1 ≠ 0 then 5
  else if leAt bs (18 + len) 4 ≠ containerCrc (ch.get (Reg.SCX_CID_CID i)) (ch.get64 (Reg.SCX_PID i)) (bs.take (18 + len)) then 1
  else if leAt bs 4 8 ≠ ch.get64 (Reg.SCX_PID i) then 2
  else if !resync && decide (ch.get (Reg.SCX_CID_SEQWIN i) < d) then 3
  else if ch.bit (Reg.SCX_CFG_TSCHK i) &&
    (decide ((1000 * ch.get (Reg.SCX_WD_WD i) : Nat) < a) || decide (a < -((1000 * ch.get (Reg.SCX_TSTOL_TOL i) : Nat) : Int))) then 4
  else 0

/-- A container with connection `i`'s CID arrives (R281, R282). -/
def ChanState.scxCheck (ch : ChanState) (i : Nat) (bs : List Byte) : ChanState :=
  let st := ch.get (Reg.SCX_STS_STATE i)
  let seq := leAt bs 2 2
  let pl := (bs.drop 18).take (leAt bs 16 1)
  let d := (seq + 2 ^ 16 - ch.get (Reg.SCX_SEQ_LAST i)) % 2 ^ 16
  let cause := ch.scxCause i bs (st != 1)
  if cause ≠ 0 ∧ ¬(cause = 4 ∧ d = 0 ∧ st ≠ 0 ∧ st ≠ 3) then ch.scxRefuse i cause
  else if st = 1 then (if d = 0 then ch else ch.scxAccept i seq d pl)
  else if st = 2 then
    if d = 0 then ch
    else if d = 1 then ch.scxAccept i seq 1 pl
    else (ch.put (Reg.SCX_SEQ_LAST i) seq).setConn i { ch.conn i with refused := false }
  else ((ch.put (Reg.SCX_SEQ_LAST i) seq).put (Reg.SCX_STS_STATE i) 2).setConn i { ch.conn i with refused := false }

/-- A container from a node on the Cell Bus, or from the plant port (R281, R285). -/
def ChanState.scxReceive (ch : ChanState) (plant : Bool) (node : Nat) (bs : List Byte) : ChanState :=
  let cid := leAt bs 0 2
  let who := (List.range 128).find? fun i =>
    ch.bit (Reg.SCX_CFG_EN i) && !ch.bit (Reg.SCX_CFG_DIR i) && ch.bit (Reg.SCX_CFG_PATH i) == plant &&
      ch.get (Reg.SCX_CID_CID i) == cid && (plant || ch.get (Reg.SCX_CFG_NODE i) == node)
  if !ch.logicOn then ch else
  match who with
  | some i => ch.scxCheck i bs
  | none => if plant then ch.add Reg.SAF_UNKCID 1 else ch

/-- Cuts `n` containers, back to back; none where the bytes do not fit them exactly (R285). -/
def cutContainers : Nat → List Byte → Option (List (List Byte))
  | 0, bs => if bs.isEmpty then some [] else none
  | n + 1, bs =>
    let len := 22 + leAt bs 16 1
    if bs.length < 18 ∨ bs.length < len ∨ 70 < len then none
    else match cutContainers n (bs.drop len) with
      | some l => some (bs.take len :: l)
      | none => none

/-- A datagram on the plant port (R285). -/
def ChanState.plantDatagram (ch : ChanState) (bs : List Byte) : ChanState :=
  let n := leAt bs 1 1
  if leAt bs 0 1 ≠ 1 ∨ n = 0 ∨ 16 < n ∨ leAt bs 2 2 ≠ 0 ∨ bs.length < 4 ∨ ch.blockDown 2 then ch
  else match cutContainers n (bs.drop 4) with
    | some l => l.foldl (fun ch b => ch.scxReceive true 0 b) ch
    | none => ch

/-! ### The tick (R256 to R258, R277) -/

/-- Evaluates blocks, matrix, groups and outputs; `tick` where the logic outputs move on (R256, R268). -/
def ChanState.safetyLogic (ch : ChanState) (tick : Bool) : ChanState :=
  let ch := ch.presses.blocks
  let s := ch.signals
  let ch := forUpto 4 ch fun q ch => ch.put (Reg.SAF_SIG q) (s / 2 ^ (32 * q))
  let ch := forUpto 4 ch fun g ch => ch.groupPerm g
  let ch := ch.ss1Check.groupsReview.outputsReview
  if tick then { ch with saf := { ch.saf with o := ch.matrixOut s, qrel := 0 } } else ch

/-- The instant of the next tick: 0 ns of a basic cycle, before integration 4,000 CLK_SYS cycles after the last (R256). -/
def ChanState.tickAdvance (ch : ChanState) : ChanState :=
  if ch.get Reg.CBUS_STS_STATE = 5 then
    if ch.saf.tick = some ch.cycle then ch.advanceTo ((ch.cycle + 1) * 16000) else ch
  else ch.advanceMono (ch.saf.tickMono + 16000)

/-- One tick of the safety logic: `xyDiff` where the paths differ at it, `clkBad` where a measured clock is out (R257, R258). -/
def ChanState.safetyTick (ch : ChanState) (xyDiff clkBad : Bool) : ChanState :=
  if !ch.logicOn then ch else
  let ch := ch.tickAdvance
  let conns := ch.scx.map fun e => (e.1, { e.2 with eff := e.2.pay })
  let saf := { ch.saf with tick := some ch.cycle, tickMono := ch.mono, ts := ch.now, tsPlant := ch.dom (1 + ch.get Reg.TIM_PSEL_SEL) }
  let differ := ch.saf.differ
  let ch := { ch with scx := conns, saf := { saf with differ := xyDiff } }
  let ch := ch.safetyLogic true
  let bad := xyDiff && differ
  let ch := (if bad then ch.put Reg.SAF_STS_XYERR 1 else ch).lasting 0x0A03 3 none 0 bad
  let ch := (if clkBad then ch.put Reg.SAF_STS_CLKERR 1 else ch).lasting 0x0A04 3 none 0 clkBad
  ch.plantSend

/-- Channels of block `f` have disagreed for T0 (R264). -/
def ChanState.discTimeout (ch : ChanState) (f : Nat) : ChanState :=
  match (ch.fb f).since with
  | none => ch
  | some t => (ch.advanceMono (t + ch.get (Reg.SAF_FBTIM_T0 f) * 1000000)).discrepancy f

/-- A hand of block `f` has stood in neither state for T1 (R265). -/
def ChanState.contactTimeout (ch : ChanState) (f hand : Nat) : ChanState :=
  match (if hand = 0 then (ch.fb f).ns0 else (ch.fb f).ns1) with
  | none => ch
  | some t => (ch.advanceMono (t + ch.get (Reg.SAF_FBTIM_T1 f) * 1000000)).discrepancy f

/-- SS1T has passed since group `g`'s demand (R270). -/
def ChanState.ss1Timeout (ch : ChanState) (g : Nat) : ChanState :=
  match Tab.get ch.saf.ss1 none g with
  | none => ch
  | some t => (ch.advanceMono t).groupEnd g

/-- The lines of the groups (bits 0 to 3) and pairs (bits 4 to 11) read back as toggling are those commanded (R275). -/
def ChanState.readback (ch : ChanState) (levels : Nat) : ChanState :=
  if !ch.logicOn then ch else
  let want := forUpto 4 0 (fun g v => v + b2n (ch.bit (Reg.SAF_STOSTS_ENG g)) * 2 ^ g) + ch.get Reg.SAF_SOSTS_ENG * 16
  let bad := levels != want
  let line := ((List.range 12).find? fun i => tbit levels i != tbit want i).getD 0
  let was := ch.flt.active.find? fun a => a.code == 0x0A05 && a.held
  if bad then (if was.isSome then ch else (ch.put Reg.SAF_STS_OSTERR 1).raise 0x0A05 3 none line 0 true)
  else match was with
    | some a => ch.causeGone 0x0A05 none a.index
    | none => ch

/-! ### Safety positions (R185, R186) -/

/-- The safety count of joint `j` in whole counts and whether it is valid (R185, R186); a connection's count is unwrapped over
its low 32 bits. -/
def ChanState.safetyCount (ch : ChanState) (j : Nat) : Int × Bool × Option (Int × Nat) :=
  let port := fun p =>
    let e := ch.encU p
    if ch.get (Reg.ENC_CFG_MODE p) = 2 then (e.sCnt, e.sAcq && !e.sFail, none)
    else (e.cnt0, ch.bit (Reg.ENC_STS_VALID p), none)
  match ch.get (Reg.JSP_CFG_SRC j) with
  | 1 => port (ch.get (Reg.JSP_CFG_IDX j) % 32)
  | 2 => port (ch.get (Reg.JNT_FB_PORT j))
  | 3 =>
    let i := ch.get (Reg.JSP_CFG_IDX j)
    let x := ch.conn i
    let e := ch.get (Reg.JSP_CFG_ENT j)
    let raw := leAt x.pay (6 * e) 4
    let old := (Tab.get ch.jsp {} j).cnt
    let ok := ch.get (Reg.SCX_STS_STATE i) == 1 && !x.refused && decide (6 * e + 6 ≤ x.pay.length) && tbit (leAt x.pay (6 * e + 4) 1) 0
    let n := match old with
      | some (c, r) => c + wrapS 32 ((raw : Int) - r)
      | none => wrapS 32 raw
    if ok then (n, true, some (n, raw)) else ((match old with | some (c, _) => c | none => 0), false, old)
  | _ => (0, false, none)

/-- The safety position ps of joint `j` from a safety count (R186). -/
def ChanState.safetyPos (ch : ChanState) (j : Nat) (sc : Int) : Int :=
  let v := sc * ch.get (Reg.JSP_RATIO_NUM j)
  divOr (if ch.bit (Reg.JSP_CFG_INV j) then -v else v) (ch.get (Reg.JSP_RATIO_DEN j)) + ch.geti (Reg.JSP_OFS j)

/-- One joint's safety position against its control position (R186). -/
def ChanState.jspJoint (ch : ChanState) (j : Nat) : ChanState :=
  if !ch.bound j || ch.get (Reg.JSP_CFG_SRC j) == 0 then ch else
  let (sc, ok, cnt) := ch.safetyCount j
  let x := Tab.get ch.jsp {} j
  let set := fun (ch : ChanState) x => { ch with jsp := Tab.set ch.jsp {} j x }
  if !ok then
    let ch := set ch { x with cnt, inv := min (x.inv + 1) 2 }
    ch.lasting 0x0707 3 none j (decide (1 ≤ x.inv))
  else
    let far := decide (((ch.safetyPos j sc) - (ch.joint j).act / 65536).natAbs > ch.get (Reg.JSP_CFG_STOL j))
    let mis := if far then min (x.mis + 1) 8 else 0
    let ch := (set ch { cnt, inv := 0, mis }).lasting 0x0707 3 none j false
    let bad := far && decide (ch.get (Reg.JSP_CFG_STCNT j) ≤ mis)
    let ch := if bad then ch.put64 Reg.JSP_MISM (insertBits (ch.get64 Reg.JSP_MISM) j 1 1) else ch
    ch.lasting 0x0706 3 none j bad

/-- The 0 ns of a servo cycle that event `last` has not yet taken: time moves there (R43, R186, R234). -/
def ChanState.servoStart (ch : ChanState) (last : Option Nat) : ChanState :=
  if ch.bIdx % 4 = 0 ∧ last ≠ some ch.cycle then ch else ch.advanceTo ((ch.cycle / 4 + 1) * 64000)

/-- The safety positions of a servo cycle (R186); until a start has completed they are only acquired (R423). -/
def ChanState.jspEval (ch : ChanState) : ChanState :=
  if !ch.logicOn then ch else
  let ch := ch.servoStart ch.saf.jspK
  let ch := { ch with saf := { ch.saf with jspK := some ch.cycle } }
  if ch.get Reg.CHN_STATE_CODE = 1 then ch else forUpto 64 ch fun j ch => ch.jspJoint j

/-! ### Meanings -/

/-- R256 to R283. -/
def execSafetyTick (c : Chan) (xyDiff clkBad : Bool) (s : State) : Host.Outcome State Fault Refusal :=
  live s c fun ch => ch.safetyTick xyDiff clkBad

/-- R260, R266. -/
def execSiLevelAccepted (c : Chan) (i : Fin 20) (lvl : Bool) (s : State) : Host.Outcome State Fault Refusal :=
  live s c fun ch => ch.siAccept i.val lvl

/-- R261. -/
def execTestPulse (c : Chan) (t : Fin 4) (s : State) : Host.Outcome State Fault Refusal := live s c fun ch => ch.tpBegin t.val

/-- R261. -/
def execTestPulseEnd (c : Chan) (t : Fin 4) (s : State) : Host.Outcome State Fault Refusal := live s c fun ch => ch.tpEnd t.val

/-- R261. -/
def execTestPulseSample (c : Chan) (t : Fin 4) (highs : BitVec 20) (s : State) : Host.Outcome State Fault Refusal :=
  live s c fun ch => ch.tpSample t.val highs.toNat

/-- R264. -/
def execDiscrepancyTimeout (c : Chan) (f : Fin 16) (s : State) : Host.Outcome State Fault Refusal :=
  live s c fun ch => ch.discTimeout f.val

/-- R265. -/
def execContactDiscrepancy (c : Chan) (f : Fin 16) (hand : Fin 2) (s : State) : Host.Outcome State Fault Refusal :=
  live s c fun ch => ch.contactTimeout f.val hand.val

/-- R266. -/
def execResetWindowExpiry (c : Chan) (s : State) : Host.Outcome State Fault Refusal := live s c ChanState.windowEnd

/-- R270. -/
def execSs1Timeout (c : Chan) (g : Fin 4) (s : State) : Host.Outcome State Fault Refusal := live s c fun ch => ch.ss1Timeout g.val

/-- R275. -/
def execOutputReadback (c : Chan) (levels : BitVec 12) (s : State) : Host.Outcome State Fault Refusal :=
  live s c fun ch => ch.readback levels.toNat

/-- R281, R285. -/
def execPlantDatagram (c : Chan) (bytes : List Byte) (s : State) : Host.Outcome State Fault Refusal :=
  live s c fun ch => ch.plantDatagram bytes

/-- R186. -/
def execSafetyPositionEvaluation (c : Chan) (s : State) : Host.Outcome State Fault Refusal := live s c ChanState.jspEval

end Sys2Proof.Machine
end

