-- ==== Sys2Proof/Machine/Tokens.lean ====
section
/-!
DEFINITION. Zone tokens: the ledger, the handover, recovery (R242 to R251).
-/
namespace Sys2Proof.Machine

open Sys2Proof

def ChanState.tok (ch : ChanState) (z : Nat) : Tok := Tab.get ch.sep.tok {} z
def ChanState.setTok (ch : ChanState) (z : Nat) (t : Tok) : ChanState :=
  { ch with sep := { ch.sep with tok := Tab.set ch.sep.tok {} z t } }

/-- A fault of group 0x09 with a lasting cause; a unit that stands by raises none (R344). -/
def ChanState.sepFault (ch : ChanState) (code cls : Nat) (scope : Option Nat) (index : Nat) (on : Bool) : ChanState :=
  let c := ch.get Reg.CHN_STATE_CODE
  ch.lasting code cls scope index (on && c != 9 && c != 0xA)

/-- An F3 of group 0x09 without a lasting cause; a unit that stands by raises none (R344). -/
def ChanState.sepEvent (ch : ChanState) (code : Nat) : ChanState :=
  let c := ch.get Reg.CHN_STATE_CODE
  if c == 9 || c == 0xA then ch else ch.fault code 3 none 0 0

/-- The cell channel number. -/
def ChanState.cch (ch : ChanState) : Nat := ch.get Reg.ZTK_CFG_CCH

/-- Whether zone `z` is a token zone (R222). -/
def ChanState.tokenZone (ch : ChanState) (z : Nat) : Bool := ch.bit (Reg.ZTK_ZCFG_EN z) && ch.bit (Reg.ZTK_ZCFG_TOKEN z)

/-- Whether arm `k` is monitored (R220). -/
def ChanState.monitored (ch : ChanState) (k : Nat) : Bool :=
  ch.bit Reg.SSM_CFG_EN && ch.bit (Reg.SSM_ACFG_EN k) && ch.get (Reg.PRF_ACFG_NJ k) != 0

/-- Whether arm `k` of this channel holds zone `z` in state HELD (R242). -/
def ChanState.holds (ch : ChanState) (k z : Nat) : Bool :=
  ch.get (Reg.ZTK_ZSTS_STATE z) == 1 && ch.get (Reg.ZTK_ZSTS_HCCH z) == ch.cch && ch.get (Reg.ZTK_ZSTS_HARM z) == k

/-- Whether the ledger names this channel as holder of zone `z`. -/
def ChanState.ours (ch : ChanState) (z : Nat) : Bool := ch.get (Reg.ZTK_ZSTS_HCCH z) == ch.cch

/-- Shows in ZTK_HELDk what each arm holds. -/
def ChanState.heldShow (ch : ChanState) (z : Nat) : ChanState :=
  forUpto 8 ch fun k ch => ch.put64 (Reg.ZTK_HELD k) (insertBits (ch.get64 (Reg.ZTK_HELD k)) z 1 (b2n (ch.holds k z)))

/-- The ledger names arm `k` of channel `cch` as holder with move `mv` (R242). -/
def ChanState.ledger (ch : ChanState) (z st cch k mv : Nat) : ChanState :=
  let ch := ((((((ch.put (Reg.ZTK_ZSTS_STATE z) st).put (Reg.ZTK_ZSTS_HCCH z) cch).put (Reg.ZTK_ZSTS_HARM z) k).put
    (Reg.ZTK_ZSTS_TCCH z) 0).put (Reg.ZTK_ZSTS_TARM z) 0).put (Reg.ZTK_ZMOVE z) mv).heldShow z
  let t := ch.tok z
  let want := if cch = ch.cch then insertBits t.want k 1 0 else t.want
  let reqs := t.reqs.filter fun r => !(r.2.1 == cch && r.2.2 == k)
  let ch := ch.setTok z { t with heard := ch.now, want := want, accepted := false, reqs := reqs }
  (ch.putb (Reg.ZTK_ZSTS_REQPEND z) (want != 0)).sepFault 0x090A 1 none z false

/-! ### Records (R243) -/

/-- The body of a token record. -/
def ChanState.tokenBody (ch : ChanState) (type z fcch farm to_ mv : Nat) : List Byte :=
  leBytes 1 type ++ leBytes 1 z ++ leBytes 1 (fcch + 16 * farm) ++ leBytes 1 to_ ++ leBytes 4 mv ++
    leBytes 4 (ch.get Reg.CFG_CDIG) ++ leBytes 4 0

/-- Whether the channel may send token records (R247, R248). -/
def ChanState.tokenLive (ch : ChanState) : Bool :=
  let c := ch.get Reg.CHN_STATE_CODE
  ch.bit Reg.ZTK_CFG_EN && ch.get Reg.CBUS_STS_STATE == 5 && ch.logicOn && c != 9 && c != 0xA && c != 1

/-- Queues a token record for the arbitrating window; one that still waits there is not queued again. -/
def ChanState.tokenQueue (ch : ChanState) (body : List Byte) : ChanState :=
  if ch.tokenLive && !ch.sep.out.contains body then { ch with sep := { ch.sep with out := ch.sep.out ++ [body] } } else ch

/-- The order in which requests are served: first heard, then lower CCH, then lower arm (R246). -/
def reqBefore (a b : Nat × Nat × Nat) : Bool :=
  decide (a.1 < b.1) || (a.1 == b.1 && (decide (a.2.1 < b.2.1) || (a.2.1 == b.2.1 && decide (a.2.2 < b.2.2))))

/-- The request to serve first. -/
def firstReq : List (Nat × Nat × Nat) → Option (Nat × Nat × Nat)
  | [] => none
  | r :: rs => match firstReq rs with
    | none => some r
    | some b => if reqBefore b r then some b else some r

/-- Grants zone `z` to the first request where the handover's conditions hold (R244): the record, and the state after it. -/
def ChanState.grantZone (ch : ChanState) (z : Nat) : Option (List Byte) × ChanState :=
  let k := ch.get (Reg.ZTK_ZSTS_HARM z)
  let t := ch.tok z
  if ch.get (Reg.ZTK_ZSTS_STATE z) ≠ 1 ∨ !ch.ours z ∨ tbit ch.sep.keep k ∨ tbit (Tab.get ch.sep.inside 0 k) z ∨ !ch.tokenLive then (none, ch)
  else match firstReq t.reqs with
    | none => (none, ch)
    | some (_, qc, qa) =>
      let mv := (ch.get (Reg.ZTK_ZMOVE z) + 1) % 2 ^ 32
      let body := ch.tokenBody 2 z ch.cch k (qc + 16 * qa) mv
      let ch := ch.setTok z { t with since := ch.now, mine := true, reqs := t.reqs.filter fun r => !(r.2.1 == qc && r.2.2 == qa) }
      let ch := ((ch.put (Reg.ZTK_ZSTS_STATE z) 2).put (Reg.ZTK_ZSTS_TCCH z) qc).put (Reg.ZTK_ZSTS_TARM z) qa
      (some body, ((ch.heldShow z).add Reg.ZTK_MOVES 1).tokenQueue body)

/-- Hears a token record that is neither too old nor of another digest (R243 to R249): the record that answers it, if any,
which has been queued, and the state after it. -/
def ChanState.tokenHear (ch : ChanState) (b : List Byte) : Option (List Byte) × ChanState :=
  let z := leAt b 1 1 % 64
  let fc := leAt b 2 1 % 16
  let fa := leAt b 2 1 / 16 % 8
  let tc := leAt b 3 1 % 16
  let ta := leAt b 3 1 / 16 % 8
  let mv := leAt b 4 4
  let cur := ch.get (Reg.ZTK_ZMOVE z)
  let st := ch.get (Reg.ZTK_ZSTS_STATE z)
  let t := ch.tok z
  if !ch.tokenZone z || decide (mv < cur) || leAt b 8 4 != ch.get Reg.CFG_CDIG then (none, ch) else
  let transit := (st == 2 || st == 3) && ch.ours z
  let target := ch.get (Reg.ZTK_ZSTS_TCCH z) == fc && ch.get (Reg.ZTK_ZSTS_TARM z) == fa
  match leAt b 0 1 with
  | 1 =>
    if !ch.ours z then (none, ch)
    else if transit && target then
      let g := ch.tokenBody 2 z ch.cch (ch.get (Reg.ZTK_ZSTS_HARM z)) (fc + 16 * fa) ((cur + 1) % 2 ^ 32)
      (none, ch.tokenQueue g)
    else
      let reqs := if t.reqs.any (fun r => r.2.1 == fc && r.2.2 == fa) then t.reqs else t.reqs ++ [(ch.cycle, fc, fa)]
      (ch.setTok z { t with reqs }).grantZone z
  | 2 =>
    let ch := if fc = ch.cch then ch
      else ((((ch.put (Reg.ZTK_ZSTS_STATE z) (if st = 3 then 3 else 2)).put (Reg.ZTK_ZSTS_TCCH z) tc).put (Reg.ZTK_ZSTS_TARM z) ta).setTok z
        { t with since := if st == 2 || st == 3 then t.since else ch.now, mine := false }).heldShow z
    if tc = ch.cch ∧ cur < mv then
      let a := ch.tokenBody 3 z ch.cch ta (fc + 16 * fa) mv
      (some a, (ch.setTok z { ch.tok z with accepted := true }).tokenQueue a)
    else (none, ch)
  | 3 =>
    if transit && target && mv == (cur + 1) % 2 ^ 32 then
      let c := ch.tokenBody 4 z ch.cch (ch.get (Reg.ZTK_ZSTS_HARM z)) (fc + 16 * fa) mv
      (some c, (ch.ledger z 1 fc fa mv).tokenQueue c)
    else if t.mine && mv == cur && ch.get (Reg.ZTK_ZSTS_HCCH z) == fc && ch.get (Reg.ZTK_ZSTS_HARM z) == fa then
      (none, ch.tokenQueue (ch.tokenBody 4 z ch.cch tc (fc + 16 * fa) mv))
    else (none, ch)
  | 4 => (none, if fc = ch.cch then ch else ch.ledger z 1 tc ta mv)
  | 5 => (none, if fc = ch.cch then ch else (ch.ledger z 1 tc ta mv).setTok z { (ch.ledger z 1 tc ta mv).tok z with mine := false })
  | 6 =>
    if fc = ch.cch then (none, ch) else
    let same := ch.get (Reg.ZTK_ZSTS_HCCH z) == fc && ch.get (Reg.ZTK_ZSTS_HARM z) == fa
    if st = 5 then
      let ch := if ch.ours z then ch.setTok z { t with barred := true } else ch
      (none, if cur < mv || !ch.ours z then ch.ledger z 5 fc fa mv else ch)
    else if cur < mv then (none, ch.ledger z 1 fc fa mv)
    else if same then
      (none, (ch.setTok z { t with heard := ch.now }).put (Reg.ZTK_ZSTS_STATE z) (if st = 4 then 1 else st))
    else if st = 2 ∨ st = 3 then (none, ch)
    else (none, ch.sepFault 0x090E 3 none z true)
  | _ => (none, ch)

/-- Hears a record and what it leads to among this channel's own arms. -/
def ChanState.tokenTake (ch : ChanState) : Nat → List Byte → ChanState
  | 0, _ => ch
  | n + 1, b =>
    match ch.tokenHear b with
    | (some r, ch) => ch.tokenTake n r
    | (none, ch) => ch

/-- A token record from the Cell Bus (R243). -/
def ChanState.tokenRecord (ch : ChanState) (b : List Byte) : ChanState := if ch.logicOn then ch.tokenTake 4 b else ch

/-- Queues a record of this channel and hears it. -/
def ChanState.tokenSend (ch : ChanState) (b : List Byte) : ChanState := if ch.tokenLive then (ch.tokenQueue b).tokenTake 4 b else ch

/-- Grants what may now be granted. -/
def ChanState.grants (ch : ChanState) : ChanState :=
  forUpto 64 ch fun z ch =>
    if ch.tokenZone z then match ch.grantZone z with
      | (some r, ch) => ch.tokenTake 4 r
      | (none, ch) => ch
    else ch

/-! ### Host commands (R245, R246) -/

/-- REQUEST of zone `z` for arm `k` (R246); an arm that is not monitored can hold no token (R220). -/
def ChanState.tokenRequest (ch : ChanState) (k z : Nat) : ChanState :=
  if !ch.tokenZone z || !ch.tokenLive || ch.holds k z || !ch.monitored k then ch else
  let ch := ch.setTok z { ch.tok z with want := insertBits (ch.tok z).want k 1 1 }
  (ch.put (Reg.ZTK_ZSTS_REQPEND z) 1).tokenSend (ch.tokenBody 1 z ch.cch k 0 (ch.get (Reg.ZTK_ZMOVE z)))

/-- KEEP (R246). -/
def ChanState.tokenKeep (ch : ChanState) (k : Nat) : ChanState :=
  { ch with sep := { ch.sep with keep := insertBits ch.sep.keep k 1 1 } }

/-- UNKEEP (R246). -/
def ChanState.tokenUnkeep (ch : ChanState) (k : Nat) : ChanState :=
  ({ ch with sep := { ch.sep with keep := insertBits ch.sep.keep k 1 0 } }).grants

/-- CANCEL before GRANT; afterwards it has no effect (R245). -/
def ChanState.tokenCancel (ch : ChanState) (k z : Nat) : ChanState :=
  let t := ch.tok z
  let st := ch.get (Reg.ZTK_ZSTS_STATE z)
  if (st == 2 || st == 3) && ch.get (Reg.ZTK_ZSTS_TCCH z) == ch.cch && ch.get (Reg.ZTK_ZSTS_TARM z) == k then ch else
  let want := insertBits t.want k 1 0
  (ch.setTok z { t with want, reqs := t.reqs.filter fun r => !(r.2.1 == ch.cch && r.2.2 == k) }).putb
    (Reg.ZTK_ZSTS_REQPEND z) (want != 0)

/-- ZTK_ACMD written (R246). -/
def ChanState.tokenCommand (ch : ChanState) (v : Nat) : ChanState :=
  let k := v / 256 % 8
  let z := v % 64
  match v / 4096 % 16 with
  | 1 => ch.tokenRequest k z
  | 2 => ch.tokenKeep k
  | 3 => ch.tokenUnkeep k
  | 4 => ch.tokenCancel k z
  | _ => ch

/-! ### Matrix-cycle events (R245, R247) -/

/-- Repeats each unanswered REQUEST and ACCEPT (R245). -/
def ChanState.tokenRetry (ch : ChanState) : ChanState :=
  if !ch.tokenLive then ch else
  let ch := ch.advanceTo ((ch.matrix + 1) * 256000)
  forUpto 64 ch fun z ch =>
    if !ch.tokenZone z then ch else
    let st := ch.get (Reg.ZTK_ZSTS_STATE z)
    let mv := ch.get (Reg.ZTK_ZMOVE z)
    if (st = 2 ∨ st = 3) ∧ (ch.tok z).accepted then
      ch.tokenQueue (ch.tokenBody 3 z ch.cch (ch.get (Reg.ZTK_ZSTS_TARM z))
        (ch.get (Reg.ZTK_ZSTS_HCCH z) + 16 * ch.get (Reg.ZTK_ZSTS_HARM z)) ((mv + 1) % 2 ^ 32))
    else forUpto 8 ch fun k ch => if tbit (ch.tok z).want k then ch.tokenSend (ch.tokenBody 1 z ch.cch k 0 mv) else ch

/-- A transit older than TMO matrix cycles (R245). -/
def ChanState.transitTimeout (ch : ChanState) (z : Nat) : ChanState :=
  if ch.get (Reg.ZTK_ZSTS_STATE z) ≠ 2 then ch else
  let ch := ch.advanceTo ((ch.tok z).since + ch.get Reg.ZTK_CFG_TMO * 256000 + 1)
  (ch.put (Reg.ZTK_ZSTS_STATE z) 3).sepFault 0x090A 1 none z true

/-- A holder silent for LOSTT matrix cycles (R247). -/
def ChanState.holderLost (ch : ChanState) (z : Nat) : ChanState :=
  if ch.get (Reg.ZTK_ZSTS_STATE z) ≠ 1 ∨ ch.ours z then ch else
  let ch := ch.advanceTo ((ch.tok z).heard + ch.get Reg.ZTK_CFG_LOSTT * 256000)
  (ch.put (Reg.ZTK_ZSTS_STATE z) 4).heldShow z

/-- A LEDGER record for each zone this channel holds (R247). -/
def ChanState.ledgerSend (ch : ChanState) : ChanState :=
  if !ch.tokenLive then ch else
  let ch := ch.advanceTo ((ch.matrix + 1) * 256000)
  forUpto 64 ch fun z ch =>
    if ch.tokenZone z && ch.get (Reg.ZTK_ZSTS_STATE z) == 1 && ch.ours z then
      ch.tokenQueue (ch.tokenBody 6 z ch.cch (ch.get (Reg.ZTK_ZSTS_HARM z)) 0 (ch.get (Reg.ZTK_ZMOVE z)))
    else ch

/-- The channel may transmit: its ledger is provisional for two matrix cycles (R247). -/
def ChanState.provisional (ch : ChanState) : ChanState := { ch with sep := { ch.sep with prov := some ch.now } }

/-- The provisional ledger is confirmed (R247). -/
def ChanState.provisionalEnd (ch : ChanState) : ChanState :=
  match ch.sep.prov with
  | none => ch
  | some t =>
    let ch := ch.advanceTo (t + 512000)
    let ch := { ch with sep := { ch.sep with prov := none } }
    forUpto 64 ch fun z ch =>
      if ch.get (Reg.ZTK_ZSTS_STATE z) ≠ 5 then ch
      else if ch.ours z && (ch.tok z).barred then ch.put (Reg.ZTK_ZSTS_STATE z) 4
      else ((ch.put (Reg.ZTK_ZSTS_STATE z) 1).setTok z { ch.tok z with heard := ch.now }).heldShow z

/-- The starting ledger of a cold start: every token at its home, move 0 (R247). -/
def ChanState.ledgerHome (ch : ChanState) : ChanState :=
  forUpto 64 ch fun z ch =>
    if !ch.tokenZone z then ch
    else ch.ledger z 5 (ch.get (Reg.ZTK_ZCFG_HOMECCH z)) (ch.get (Reg.ZTK_ZCFG_HOMEARM z)) 0

/-- Which zones may not be entered while a user is excluded: every controller node is a user of every token zone (R251). -/
def ChanState.exclShow (ch : ChanState) : ChanState :=
  forUpto 64 ch fun z ch => ch.putb (Reg.ZTK_ZSTS_EXCL z) (ch.tokenZone z && ch.get64 Reg.ZTK_EXCL != 0)

end Sys2Proof.Machine
end

