-- ==== Sys2Proof/Machine/Separation.lean ====
section
/-!
DEFINITION. The separation monitor: parisons, margins, the evaluation pipeline and its checks (R218 to R241), token recovery
(R250), the loss of a connection (R282, R229).
-/
namespace Sys2Proof.Machine

open Sys2Proof

/-! ### Parisons (R223 to R227) -/

/-- Whether the joint of ordinal `i` of arm `k` is prismatic (R200). -/
def ChanState.prismatic (ch : ChanState) (k i : Nat) : Bool := ch.sByte (0x800 * k + 48 + 96 * i) == 1

/-- The safety coordinate of joint `j` (R223). -/
def ChanState.coord (ch : ChanState) (j : Nat) : Int :=
  rdiv (ch.safetyPos j (ch.safetyCount j).1 * ch.geti (Reg.SSM_JKQ j)) (2 ^ 24) + ch.geti (Reg.SSM_JQ0 j)

/-- Entry `e` of an arm's override table: threshold in mm and factor (R233). -/
def ChanState.ovt (ch : ChanState) (k e : Nat) : Nat × Nat :=
  if e = 0 then (ch.get (Reg.SSM_OVT0_THR k), ch.get (Reg.SSM_OVT0_FACT k))
  else (ch.get (Reg.SSM_OVTN_THR k (e - 1)), ch.get (Reg.SSM_OVTN_FACT k (e - 1)))

/-- T_stm in ns: the stopping model at the effective override, linear between its entries (R224). -/
def ChanState.stopModel (ch : ChanState) (k : Nat) : Nat :=
  let eff := ch.get (Reg.PRF_OVR_EFF k)
  let o := fun e => ch.get (Reg.SSM_STM_OVR k e)
  let t := fun e => 16000 * ch.get (Reg.SSM_STM_TIME k e)
  match (List.range 8).find? fun e => decide (eff ≤ o e) with
  | none => t 7
  | some 0 => t 0
  | some (e + 1) =>
    if o (e + 1) = o e then t (e + 1)
    else ((t e : Int) + divFree ch.fresh (((t (e + 1) : Int) - t e) * ((eff : Int) - o e)) (o (e + 1) - o e)).toNat

/-- The arm's stopping time T_s in ns (R224). -/
def ChanState.armStop (ch : ChanState) (k : Nat) : Nat :=
  let t := ch.get (Reg.PRF_TSTOP k)
  (if ch.bit (Reg.SSM_ACFG_LEVEL k) then max t (ch.stopModel k) else t) + ch.get (Reg.SSM_TCL k)

/-- A joint's displacement bound over `t` ns from its speed `w` per servo cycle, rounded up (R225). -/
def stepBound (w acc vmax t : Nat) : Nat :=
  min ((w * t * 31250000000 + acc * t * t + 1999999999999999) / 2000000000000000) ((vmax * t + 999999) / 1000000)

/-- The bound b(e) of a capsule end from the joints of its frame down to the base: (prismatic, Δq, ρ) of each (R226). -/
def endBound (nj : Nat) (js : List (Bool × Nat × Nat)) : Nat :=
  js.foldl (fun d j => if j.1 then d + j.2.1 else d + (j.2.1 * (j.2.2 + d) + 999999) / 1000000) 0 + 16 * (nj + 1)

/-- The parison capsules of arm `k` at evaluation `n`, with the largest b(e) (R226, R227). -/
def ChanState.parison (ch : ChanState) (n k : Nat) (dq : List Nat) : List Cap × Nat :=
  let bytes := Tab.get ch.sep.caps [] k
  let nj := dq.length
  let one := fun c : Nat =>
    let link := leAt bytes (32 * c) 1
    let pt := fun e => V3.mk (Config.capsuleEnd n k c e 0).toInt (Config.capsuleEnd n k c e 1).toInt (Config.capsuleEnd n k c e 2).toInt
    let up := (List.range nj).filter fun i => decide (i ≤ link)
    let b := fun e => endBound nj (up.reverse.map fun i => (ch.prismatic k i, dq.getD i 0, (Config.leverArm n k c e i).toNat))
    let m := max (b 0) (b 1)
    ((Cap.mk (pt 0) (pt 1) ((leAt bytes (32 * c + 28) 4 + 1000 * leAt bytes (32 * c + 2) 2 + m : Nat) : Int)), m)
  let l := (List.range (bytes.length / 32)).map one
  (l.map Prod.fst, l.foldl (fun a x => max a x.2) 0)

/-! ### Margins (R228 to R233) -/

/-- What a margin is to: its code in MKIND and its index; `counts` where it enters M. -/
structure Margin where
  m : Int
  kind : Nat
  idx : Nat
  counts : Bool
deriving DecidableEq, Repr

/-- Whether a margin is below `t` mm. -/
def Margin.below (x : Margin) (t : Nat) : Bool := decide (x.m < (1000 * t : Nat))

/-- The smallest of a list; none where it is empty. -/
def least : List Int → Option Int
  | [] => none
  | x :: xs => some (xs.foldl min x)

/-- A broad-phase margin: above the first threshold a pair may be culled, and its margin is then a lower bound (R232). The
second component says whether it was culled. -/
def broad (fresh thr : Nat) (m : Int) : Int × Bool :=
  let v := (Config.free fresh).toNat
  if m ≤ 1000 * thr ∨ v % 2 = 0 then (m, false) else (freeIn (v / 2) (1000 * thr + 1) m, true)

/-- Volume as a capsule of radius 0 (R221). -/
def Vol.axis (v : Vol) : Cap := ⟨⟨v.x, v.y, v.z⟩, ⟨v.x, v.y, v.z + v.h⟩, 0⟩

/-- The time from a volume's acceptance to the latch, ns. -/
def ChanState.age (ch : ChanState) (v : Vol) : Nat := ch.now - v.acc

/-- ceil(VH × t ÷ 1,000,000) µm (R228). -/
def ChanState.approach (ch : ChanState) (t : Nat) : Int := ((ch.get Reg.SSM_CFG_VH * t + 999999) / 1000000 : Nat)

/-- R_v of volume `v` for arm `k` (R228). -/
def ChanState.personRadius (ch : ChanState) (k ts : Nat) (v : Vol) : Int :=
  v.r + ch.approach (ch.get Reg.SSM_TR + ts + ch.age v) +
    1000 * ((ch.get (Reg.SSM_VPAR_C v.src) + ch.get (Reg.SSM_VPAR_ZD v.src) + ch.get (Reg.SSM_APAR_ZR k) : Nat) : Int)

/-- Whether zone `z` is occupied: its function reports it, or it covers a lost source (R222, R229, R262). -/
def ChanState.occupied (ch : ChanState) (z : Nat) : Bool :=
  let o := ch.get (Reg.ZTK_ZCFG_OCC z)
  ch.bit (Reg.ZTK_ZCFG_EN z) &&
    ((o != 0xFF && !(decide (o < 128) && tbit (ch.get (Reg.SAF_SIG (o / 32))) (o % 32))) ||
     (List.range 8).any fun s => ch.bit (Reg.SSM_VSRC_EN s) && ch.bit (Reg.SSM_VSTS_LOST s) &&
       ch.bit (Reg.SSM_VSRC_COVEN s) && ch.get (Reg.SSM_VSRC_COVZ s) == z)

/-- The capsules of a record body (R241), grown for its age (R231). -/
def recCaps (body : List Byte) (grow : Int) : List Cap :=
  let at_ := fun i => wrapS 32 (leAt body i 4)
  (List.range (leAt body 1 1)).map fun c =>
    let o := 32 + 28 * c
    ⟨⟨at_ o, at_ (o + 4), at_ (o + 8)⟩, ⟨at_ (o + 12), at_ (o + 16), at_ (o + 20)⟩, at_ (o + 24) + grow⟩

/-- The growth of a received record that has missed `miss` servo cycles (R231). -/
def ChanState.growth (ch : ChanState) (miss : Nat) : Int := ((ch.get Reg.SSM_CFG_VGROW * (64000 * (1 + miss)) + 999999) / 1000000 : Nat)

/-- An arm's priority for pairs: at basic level 0 (R233, SSM_ACFG). -/
def ChanState.prio (ch : ChanState) (k : Nat) : Nat := if ch.bit (Reg.SSM_ACFG_LEVEL k) then ch.get (Reg.SSM_ACFG_PRIO k) else 0

/-- Whether (priority, CCH, arm) `b` has priority over `a` (R233). -/
def hasPrio (a b : Nat × Nat × Nat) : Bool :=
  decide (a.1 < b.1) || (a.1 == b.1 && (decide (b.2.1 < a.2.1) || (b.2.1 == a.2.1 && decide (b.2.2 < a.2.2))))

/-- The margin between two sets of capsules (R231). -/
def pairMargin (a b : List Cap) (cl : Nat) : Option Int :=
  least (a.flatMap fun x => b.map fun y => axisDist x y - x.r - y.r - 1000 * cl)

/-- Margins of arm `k` to persons and occupied zones (R228, R229). -/
def ChanState.personMargins (ch : ChanState) (k ts : Nat) (caps : List Cap) : List Margin :=
  ((List.range 32).filterMap fun v => match Tab.get ch.sep.vols none v with
    | none => none
    | some x => (least (caps.map fun c => axisDist c x.axis - c.r - ch.personRadius k ts x)).map fun m => Margin.mk m 1 v true) ++
  ((List.range 64).filterMap fun z => match Tab.get ch.sep.zones none z with
    | some zn => if !ch.occupied z then none else
        let away := ch.approach (ch.get Reg.SSM_TR + ts) + 1000 * ((ch.get (Reg.ZTK_ZPAR_C z) + ch.get (Reg.SSM_APAR_ZR k) : Nat) : Int)
        (least (caps.map fun c => prismDist zn c - c.r - away)).map fun m => Margin.mk m 2 z true
    | none => none)

/-- The margin of arm `k`'s parison to each token zone, held or not (R230). -/
def ChanState.zoneMargins (ch : ChanState) (caps : List Cap) : List (Nat × Int) :=
  (List.range 64).filterMap fun z => match Tab.get ch.sep.zones none z with
    | some zn => if !ch.tokenZone z then none else (least (caps.map fun c => prismDist zn c - c.r)).map fun m => (z, m)
    | none => none

/-- Margins of arm `k` to other arms, with whether the other has priority (R231, R233). -/
def ChanState.armMargins (ch : ChanState) (k : Nat) (all : List (Nat × List Cap)) (caps : List Cap) : List (Margin × Bool) :=
  let me := (ch.prio k, ch.cch, k)
  (all.filterMap fun o => if o.1 = k then none else
    (pairMargin caps o.2 (max (ch.get (Reg.SSM_APAR_AACLR k)) (ch.get (Reg.SSM_APAR_AACLR o.1)))).map fun m =>
      let other := hasPrio me (ch.prio o.1, ch.cch, o.1)
      (Margin.mk m 4 (ch.cch * 8 + o.1) other, other)) ++
  (ch.sep.recs.filterMap fun r => if r.1 / 8 = ch.cch ∨ r.2.body.isEmpty then none else
    (pairMargin caps (recCaps r.2.body (ch.growth r.2.miss)) (ch.get (Reg.SSM_APAR_AACLR k))).map fun m =>
      let other := hasPrio me (leAt r.2.body 2 1, r.1 / 8, r.1 % 8)
      (Margin.mk m 5 r.1 other, other))

/-- The smallest margin of those that count, the first of equal ones. -/
def pickMargin : List Margin → Option Margin
  | [] => none
  | x :: xs => match pickMargin xs with
    | none => some x
    | some y => if y.m < x.m then some y else some x

/-- The override factor for a margin; no margin leaves the first entry's (R233). -/
def ChanState.factor (ch : ChanState) (k : Nat) (m : Option Int) : Nat :=
  match m with
  | none => (ch.ovt k 0).2
  | some m => match (List.range 8).find? fun e => decide ((1000 * (ch.ovt k e).1 : Nat) ≤ m) with
    | some e => (ch.ovt k e).2
    | none => 0

/-- The capsule record of arm `k` (R241); its bounding sphere contains all its capsules, about a centre not given (R227). -/
def ChanState.capsuleBody (ch : ChanState) (n k : Nat) (caps : List Cap) : List Byte :=
  let pt := fun p : V3 => leBytes 4 (ofInt 32 p.x) ++ leBytes 4 (ofInt 32 p.y) ++ leBytes 4 (ofInt 32 p.z)
  let o := V3.mk (Config.capsuleEnd n k 16 0 0).toInt (Config.capsuleEnd n k 16 0 1).toInt (Config.capsuleEnd n k 16 0 2).toInt
  let r := caps.foldl (fun r c => max r (max (distOf (c.p.sub o).sq) (distOf (c.q.sub o).sq) + 1 + c.r)) 0 +
    (Config.leverArm n k 16 0 0).toNat % 65536
  leBytes 1 (ch.cch + 16 * k) ++ leBytes 1 caps.length ++ leBytes 1 (ch.prio k) ++
    leBytes 1 (b2n (ch.arm k).stopping.isSome) ++ leBytes 4 (ch.get Reg.SSM_SEQ + 1) ++ leBytes 8 (ch.get64 (Reg.ZTK_HELD k)) ++
    pt o ++ leBytes 4 (ofInt 32 r) ++ caps.flatMap fun c => pt c.p ++ pt c.q ++ leBytes 4 (ofInt 32 c.r)

/-- The result of arm `k` at evaluation `n` (R233). -/
def ChanState.armResult (ch : ChanState) (n k ts bnd : Nat) (all : List (Nat × List Cap)) (caps : List Cap) : Par :=
  let thr := (ch.ovt k 0).1
  let pm := (ch.personMargins k ts caps).map fun x => { x with m := (broad (n + 64 + 97 * k + x.kind * 64 + x.idx) thr x.m).1 }
  let am := (ch.armMargins k all caps).map fun x =>
    let b := broad (n + 1024 + 97 * k + x.1.idx) thr x.1.m
    ({ x.1 with m := b.1 }, x.2, b.2)
  let zs := ch.zoneMargins caps
  let open_ := fun z => ch.holds k z && !ch.bit (Reg.ZTK_ZSTS_EXCL z)
  let zm := zs.filterMap fun x => if open_ x.1 then none else some (Margin.mk x.2 3 x.1 true)
  let best := pickMargin ((pm ++ zm ++ am.map fun x => x.1).filter fun x => x.counts)
  let m := best.map fun x => x.m
  { arm := k, m, kind := (best.map fun x => x.kind).getD 0, idx := (best.map fun x => x.idx).getD 0
    pviol := pm.any fun x => x.below 0
    aaviol := am.any fun x => x.1.below 0
    zviol := zm.any fun x => x.below 0
    yield := am.any fun x => x.2.1 && x.1.below thr
    ts, bnd, fact := ch.factor k m
    inside := zs.foldl (fun v x => if (x.2 : Int) < 0 then v + 2 ^ x.1 else v) 0
    near := zs.foldl (fun v x => if (x.2 : Int) < (1000 * ch.get (Reg.ZTK_ZPAR_APPR x.1) : Nat) then v + 2 ^ x.1 else v) 0
    seen := am.filterMap fun x => if x.1.kind == 5 && !x.2.2 then some (x.1.idx) else none
    body := ch.capsuleBody n k caps }

/-! ### The pipeline (R234 to R240) -/

/-- Whether evaluations run: not before a start has brought the channel out of BOOT (R234, R256). -/
def ChanState.sepOn (ch : ChanState) : Bool := ch.bit Reg.SSM_CFG_EN && ch.logicOn && ch.get Reg.CHN_STATE_CODE != 1

/-- Takes the capsule records at the latch: a missing one ages, and after ABSN misses stops the arms it was near (R231). -/
def ChanState.latchRecords (ch : ChanState) : ChanState :=
  let recs := ch.sep.recs.map fun r => (r.1, if r.2.got then { r.2 with got := false, miss := 0 } else { r.2 with miss := r.2.miss + 1 })
  let ch := { ch with sep := { ch.sep with recs } }
  forUpto 8 ch fun k ch =>
    if !ch.monitored k then ch else
    let seen := Tab.get ch.sep.seen [] k
    let gone := recs.any fun r => decide (ch.get Reg.SSM_ABSN_ABSN ≤ r.2.miss) && seen.contains r.1
    ch.sepFault 0x090D 2 (some k) 0 gone

/-- Two holders whose records name one zone (R249). -/
def ChanState.heldTwice (ch : ChanState) : ChanState :=
  forUpto 64 ch fun z ch =>
    let own := (List.range 8).filter fun k => ch.holds k z
    let others := ch.sep.recs.filter fun r => r.1 / 8 != ch.cch && r.2.miss == 0 && tbit (leAt r.2.body 8 8) z
    if own.length + others.length > 1 then ch.sepFault 0x090E 3 none z true else ch

/-- Latches and evaluates at 0 ns of a servo cycle (R234); results wait for their commit. -/
def ChanState.evaluate (ch : ChanState) : ChanState :=
  if !ch.sepOn then ch else
  let ch := ch.servoStart ch.sep.lastK
  let ch := (ch.put Reg.SSM_STS_RUN 1).latchRecords.heldTwice
  let n := ch.fresh
  let ch := forUpto 64 ch fun z ch => ch.putb (Reg.ZTK_ZSTS_OCC z) (ch.occupied z)
  let arms := (List.range 8).filter ch.monitored
  let qs := (List.range 64).map fun j => if ch.bound j && ch.monitored (ch.armOf j) then some (ch.coord j) else none
  let dqs := fun (t j : Nat) =>
    let w := match qs.getD j none, Tab.get ch.sep.qPrev none j with
      | some q, some p => (q - p).natAbs
      | _, _ => (Config.free (n + j)).toNat
    stepBound w (ch.get (Reg.SSM_JLIM_ACC j)) (ch.get (Reg.SSM_JLIM_VMAX j)) t
  let pars := arms.map fun k =>
    let ts := ch.armStop k
    (k, ts, ch.parison n k ((ch.armJoints k).map fun j => dqs (ch.get Reg.SSM_TR + ts + 64000) j))
  let all := pars.map fun p => (p.1, p.2.2.1)
  let res := pars.map fun p => ch.armResult n p.1 p.2.1 p.2.2.2 all p.2.2.1
  let snap := (List.range 32).filterMap fun v => (Tab.get ch.sep.vols none v).map fun x => (v, some (x, ch.age x))
  let ch := forUpto 64 ch fun j ch => match qs.getD j none with | some q => ch.puti (Reg.SSM_JQ j) q | none => ch
  { ch with
    fresh := ch.fresh + 4096
    sep := { ch.sep with lastK := some ch.cycle, staged := some res, stagedSnap := snap, qPrev := (List.range 64).zip qs |>.filter fun x => x.2.isSome } }

/-- Commits one arm's result (R233). -/
def ChanState.commitArm (ch : ChanState) (r : Par) : ChanState :=
  let k := r.arm
  let neg := r.pviol || r.aaviol || r.zviol
  let m := match r.m with | some m => m | none => (Config.free ch.fresh).toInt
  let ch := ((ch.put (Reg.PRF_OVRSSM_SSM k) r.fact).put (Reg.SSM_AFACT_FACT k) r.fact).puti (Reg.SSM_AMARG k) (satS 32 m)
  let ch := ((ch.put (Reg.SSM_ATS k) r.ts).put (Reg.SSM_ABND k) r.bnd).put (Reg.SSM_ASTS_MKIND k) r.kind
  let ch := ((ch.put (Reg.SSM_ASTS_MIDX k) r.idx).putb (Reg.SSM_ASTS_YIELD k) r.yield).putb (Reg.SSM_ASTS_STOP k) neg
  let ch := if r.pviol then ch.put (Reg.SSM_ASTS_PVIOL k) 1 else ch
  let ch := if r.aaviol then ch.put (Reg.SSM_ASTS_AAVIOL k) 1 else ch
  let ch := if r.zviol then ch.put (Reg.SSM_ASTS_ZVIOL k) 1 else ch
  let ch := ((ch.sepFault 0x0901 2 (some k) k r.pviol).sepFault 0x0902 2 (some k) k r.aaviol).sepFault 0x0903 2 (some k) k r.zviol
  { ch.nextFresh with sep := { ch.sep with
      inside := Tab.set ch.sep.inside 0 k r.inside, seen := Tab.set ch.sep.seen [] k r.seen, pub := Tab.set ch.sep.pub [] k r.body } }

/-- The commit of an evaluation at 48,000 ns of its servo cycle (R234), then the requests and grants it allows (R244, R246). -/
def ChanState.commitEval (ch : ChanState) : ChanState :=
  match ch.sep.staged, ch.sep.lastK with
  | some res, some k =>
    let ch := ch.advanceTo (k * 16000 + 48000)
    let ch := res.foldl ChanState.commitArm ch
    let t := (Config.free ch.fresh).toNat % 3001
    let ch := ((ch.nextFresh.add Reg.SSM_SEQ 1).put Reg.SSM_ETIME_LAST t).put Reg.SSM_ETIME_MAX (max t (ch.get Reg.SSM_ETIME_MAX))
    let ch := { ch with sep := { ch.sep with staged := none, snap := ch.sep.stagedSnap } }
    let ch := res.foldl (fun ch r => forUpto 64 ch fun z ch =>
      if tbit r.near z && ch.bit (Reg.ZTK_ZCFG_AUTO z) && !tbit (ch.tok z).want r.arm then ch.tokenRequest r.arm z else ch) ch
    ch.grants
  | _, _ => ch

/-- An evaluation not committed by 48,000 ns (R236). -/
def ChanState.evalOverrun (ch : ChanState) : ChanState :=
  match ch.sep.staged, ch.sep.lastK with
  | some _, some k =>
    let ch := ch.advanceTo (k * 16000 + 48000)
    ({ ch with sep := { ch.sep with staged := none } }.put Reg.SSM_STS_OVRUN 1).sepEvent 0x0907
  | _, _ => ch

/-- The Y path's checks of an evaluation: bit 0 a witness, bit 1 the recomputation, bit 2 the solver poses, bit 3 the decision
or the stop time differs (R237 to R240). -/
def ChanState.yCheck (ch : ChanState) (flags : Nat) : ChanState :=
  if !ch.sepOn then ch else
  let ch := ch.put Reg.SSM_STS_YSUB (ch.get Reg.SSM_SEQ % 16)
  let bad := tbit flags 0 || tbit flags 3
  let ch := if bad then (ch.put Reg.SSM_STS_WITERR 1).sepEvent 0x0904 else ch
  let ch := if tbit flags 1 then (ch.put Reg.SSM_STS_YERR 1).sepEvent 0x0905 else ch
  if tbit flags 2 then (ch.put Reg.SSM_STS_FKERR 1).sepEvent 0x0906 else ch

/-! ### Lost sources and connections (R229, R282) -/

/-- A volume source whose connection is lost (R229). -/
def ChanState.sourceLost (ch : ChanState) (s : Nat) : ChanState :=
  let nv := min (ch.get (Reg.SSM_VSRC_NV s)) 8
  let base := ch.get (Reg.SSM_VSRC_VBASE s)
  let ch := forUpto nv ch fun e ch =>
    ({ ch with sep := { ch.sep with vols := Tab.set ch.sep.vols none (base + e) none } }).setBit Reg.SSM_VVAL (base + e) false
  let ch := (ch.put (Reg.SSM_VSTS_LOST s) 1).setBit Reg.SSM_VSLOST_LOST s true
  if ch.bit (Reg.SSM_VSRC_COVEN s) then ch.sepFault 0x0909 1 none s true
  else forUpto 8 ch fun k ch => if ch.monitored k then ch.sepFault 0x0908 2 (some k) s true else ch

/-- The watchdog of consumer connection `i` expires (R282). -/
def ChanState.watchdog (ch : ChanState) (i : Nat) : ChanState :=
  match (ch.conn i).wd with
  | none => ch
  | some t =>
    let ch := ch.advanceMono (t + 1000 * ch.get (Reg.SCX_WD_WD i))
    let ch := ch.setConn i { ch.conn i with wd := none, pay := [], eff := [] }
    let ch := ((ch.put (Reg.SCX_STS_STATE i) 3).put (Reg.SCX_STS_EXP i) 1).add (Reg.SCX_EXP i) 1
    let ch := ch.lasting 0x0A09 1 none i true
    let ch := if ch.get (Reg.SCX_CFG_KIND i) = 4 then (ch.sourcesOf i).foldl ChanState.sourceLost ch else ch
    if ch.logicOn then ch.safetyLogic false else ch

/-! ### Token recovery (R250) -/

/-- Whether anything lies in zone `z`: a volume, an occupancy, a parison present (R250). -/
def ChanState.zoneFull (ch : ChanState) (z : Nat) : Bool :=
  match Tab.get ch.sep.zones none z with
  | none => false
  | some zn =>
    ch.occupied z ||
    ((List.range 32).any fun v => match Tab.get ch.sep.vols none v with
      | some x => decide (prismDist zn x.axis < x.r)
      | none => false) ||
    ((List.range 8).any fun k => tbit (Tab.get ch.sep.inside 0 k) z) ||
    ch.sep.recs.any fun r => decide (r.2.miss < ch.get Reg.SSM_ABSN_ABSN) &&
      (recCaps r.2.body (ch.growth r.2.miss)).any fun c => decide (prismDist zn c < c.r)

/-- Whether the node of cell channel `c` has been absent for LOSTT matrix cycles; a channel never heard is absent. -/
def ChanState.cchAbsent (ch : ChanState) (c : Nat) : Bool :=
  match Tab.get ch.cb.acting none c with
  | none => true
  | some n => match Tab.get ch.cb.statT none n with
    | none => true
    | some t => decide (t + ch.get Reg.ZTK_CFG_LOSTT * 256000 ≤ ch.now)

/-- Whether this channel may carry out the recovery of zone `z`: its home, or the lowest present channel where the home is
absent (R250). -/
def ChanState.recoverer (ch : ChanState) (z : Nat) : Bool :=
  let home := ch.get (Reg.ZTK_ZCFG_HOMECCH z)
  home == ch.cch || (ch.cchAbsent home && (List.range ch.cch).all fun c => ch.cchAbsent c)

/-- The first reason against a recovery, in the order of R250's conditions; 1 where none stands. -/
def ChanState.recoverCode (ch : ChanState) (z code : Nat) : Nat :=
  let st := ch.get (Reg.ZTK_ZSTS_STATE z)
  let c := ch.get Reg.CHN_STATE_CODE
  let other := if ch.ours z then ch.get (Reg.ZTK_ZSTS_TCCH z) else ch.get (Reg.ZTK_ZSTS_HCCH z)
  if !ch.tokenZone z then 8
  else if !(c == 3 || c == 4) || !ch.recoverer z || !ch.tokenLive then 6
  else if !(st == 4 || ((st == 2 || st == 3) && ch.cchAbsent other)) then 4
  else if ch.zoneFull z then 5
  else if ch.get64 Reg.ZTK_EXCL ≠ 0 then 7
  else if !ch.bit Reg.SAF_STS_RSTQ then 3
  else if code ≠ ch.get Reg.CHN_ID_BCODE then 2
  else 1

/-- ZTK_RECOV written (R250). -/
def ChanState.recoverZone (ch : ChanState) (v : Nat) : ChanState :=
  let z := v % 64
  let k := v / 256 % 8
  let rc := ch.recoverCode z (v / 65536)
  let ch := ch.put Reg.ZTK_RSTS_RC rc
  if rc ≠ 1 then ch else
  let mv := (ch.get (Reg.ZTK_ZMOVE z) + 1) % 2 ^ 32
  let body := ch.tokenBody 5 z ch.cch k (ch.cch + 16 * k) mv
  let ch := ((ch.dropReset.ledger z 1 ch.cch k mv).add Reg.ZTK_MOVES 1).tokenQueue body
  { ch with sep := { ch.sep with recov := some ⟨body, 2⟩ } }

/-- RECOVER again in the next basic cycle, three times in all (R250). -/
def ChanState.recoverAgain (ch : ChanState) : ChanState :=
  match ch.sep.recov with
  | none => ch
  | some r =>
    let ch := (ch.advanceTo ((ch.cycle + 1) * 16000)).tokenQueue r.body
    { ch with sep := { ch.sep with recov := if r.left ≤ 1 then none else some { r with left := r.left - 1 } } }

/-! ### Meanings -/

/-- R234. -/
def execSeparationEvaluation (c : Chan) (s : State) : Host.Outcome State Fault Refusal := live s c ChanState.evaluate

/-- R233, R234. -/
def execEvaluationCommit (c : Chan) (s : State) : Host.Outcome State Fault Refusal := live s c ChanState.commitEval

/-- R236. -/
def execXPathOverrun (c : Chan) (s : State) : Host.Outcome State Fault Refusal := live s c ChanState.evalOverrun

/-- R237 to R240. -/
def execYPathCheck (c : Chan) (flags : BitVec 4) (s : State) : Host.Outcome State Fault Refusal :=
  live s c fun ch => ch.yCheck flags.toNat

/-- R246. -/
def execTokenRequest (c : Chan) (k : Fin 8) (z : Fin 64) (s : State) : Host.Outcome State Fault Refusal :=
  live s c fun ch => (ch.hostW .pcie).tokenRequest k.val z.val

/-- R246. -/
def execKeep (c : Chan) (k : Fin 8) (_ : Fin 64) (s : State) : Host.Outcome State Fault Refusal :=
  live s c fun ch => (ch.hostW .pcie).tokenKeep k.val

/-- R246. -/
def execUnkeep (c : Chan) (k : Fin 8) (_ : Fin 64) (s : State) : Host.Outcome State Fault Refusal :=
  live s c fun ch => (ch.hostW .pcie).tokenUnkeep k.val

/-- R245. -/
def execCancel (c : Chan) (k : Fin 8) (z : Fin 64) (s : State) : Host.Outcome State Fault Refusal :=
  live s c fun ch => (ch.hostW .pcie).tokenCancel k.val z.val

/-- R245. -/
def execTokenRetry (c : Chan) (s : State) : Host.Outcome State Fault Refusal := live s c ChanState.tokenRetry

/-- R245. -/
def execTransitTimeout (c : Chan) (z : Fin 64) (s : State) : Host.Outcome State Fault Refusal :=
  live s c fun ch => ch.transitTimeout z.val

/-- R247. -/
def execHolderLost (c : Chan) (z : Fin 64) (s : State) : Host.Outcome State Fault Refusal :=
  live s c fun ch => ch.holderLost z.val

/-- R247. -/
def execLedgerSend (c : Chan) (s : State) : Host.Outcome State Fault Refusal := live s c ChanState.ledgerSend

/-- R247. -/
def execProvisionalEnd (c : Chan) (s : State) : Host.Outcome State Fault Refusal := live s c ChanState.provisionalEnd

/-- R250. -/
def execTokenRecovery (c : Chan) (v : Word) (s : State) : Host.Outcome State Fault Refusal :=
  live s c fun ch => (ch.hostW .pcie).recoverZone v.toNat

/-- R250. -/
def execRecoverRepeat (c : Chan) (s : State) : Host.Outcome State Fault Refusal := live s c ChanState.recoverAgain

/-- R282, R229. -/
def execConnectionWatchdogExpiry (c : Chan) (i : Fin 128) (s : State) : Host.Outcome State Fault Refusal :=
  live s c fun ch => ch.watchdog i.val

end Sys2Proof.Machine
end

