-- ==== Sys2Proof/Machine/RedOps.lean ====
section
/-!
DEFINITION. What a unit of a redundant pair hears from its partner: checkpoints, edge records, claims (R339, R343, R344, R349).
-/
namespace Sys2Proof.Machine

open Sys2Proof

/-- Whether the unit stands by: STANDBY or RETURNING. -/
def ChanState.quiet (ch : ChanState) : Bool :=
  let c := ch.get Reg.CHN_STATE_CODE
  c == 9 || c == 0xA

/-- Shows whether the unit acts: a unit that is not quiet and is past its load step (R338, RED_STS.ACT). -/
def ChanState.redShow (ch : ChanState) : ChanState :=
  let c := ch.get Reg.CHN_STATE_CODE
  ch.putb Reg.RED_STS_ACT (ch.bit Reg.RED_CFG_EN && !ch.quiet && c != 1 && c != 2 && c != 0xB)

/-- Firmware version as the checkpoint's tag carries it (R342). -/
def ChanState.fwVersion (ch : ChanState) : Nat := ch.cfg.fwVer

/-- The registers of the profile units, the virtual masters and the compare units. -/
def profileOfs : List Nat := (List.range 0x1000).map fun i => 0xC000 + 4 * i

/-- The bits of a register that neither an image nor the loader sets: what a checkpoint carries of it (R32, R36). -/
def savedMask (o : Nat) : Nat := match rowAt o with | some r => 0xFFFFFFFF - r.rwl | none => 0

/-- Takes a register's carried bits from `v`. -/
def ChanState.adoptBits (ch : ChanState) (o : Nat) (v : Word) : ChanState :=
  match rowAt o with
  | none => ch
  | some row =>
    let f : RF := ⟨o, row.rst, 0, 32⟩
    let m := savedMask o
    let old := (ch.word f).toNat
    ch.putWord f (BitVec.ofNat 32 (Nat.lor (old - Nat.land old m) (Nat.land v.toNat m)))

/-- Re-bases the profile units on a staged checkpoint (R344): its layout is the maker's, so every value is free. -/
def ChanState.rebase (ch : ChanState) (bs : List Byte) : ChanState :=
  let ch := profileOfs.foldl (fun ch o => ch.adoptBits o (Config.adoptReg bs o)) ch
  let ch := ch.boundArms.foldl (fun ch k => ch.setArm k (Config.adoptArm bs k)) ch
  let ch := forUpto 64 ch fun j ch => if ch.bound j then ch.setJoint j (Config.adoptJoint bs j) else ch
  { ch with
    vm := forUpto 4 ch.vm fun v t => Tab.set t 0 v (Config.adoptMaster bs v).toInt
    cmps := forUpto 16 ch.cmps fun n t => Tab.set t {} n (Config.adoptCmp bs n) }

/-- A passed drill: its age is 0 in the flash and in RED_DAGE (R351). -/
def ChanState.drillPassed (ch : ChanState) : ChanState :=
  { ch with nvm := { ch.nvm with dage := 0 } }.put Reg.RED_DAGE_HRS 0

/-- Records a drill's result (R351). -/
def ChanState.drillEnd (ch : ChanState) (res : Nat) : ChanState :=
  let ch := { ch with red := { ch.red with drillT := none, drillBad := 0, drillOld := [] } }
  let ch := (ch.put Reg.RED_STS_DRES res).put Reg.RED_STS_DRILL 0
  if res = 1 then ch.drillPassed else ch

/-- A returning primary takes the result of its drill from the partner's checkpoint (R351). -/
def ChanState.drillHeard (ch : ChanState) (res : Nat) : ChanState :=
  if ch.get Reg.CHN_STATE_CODE != 0xA || res == 0 then ch
  else if res == 1 then (ch.put Reg.RED_STS_DRES res).drillPassed else ch.put Reg.RED_STS_DRES res

/-- Leaves the state of an acting unit: nothing is queued any more (R86). -/
def ChanState.standDown (ch : ChanState) : ChanState :=
  let ch := (ch.add Reg.SLV_INRUN (ch.queue 2).length).modelPend
  [0, 1, 2, 4].foldl (fun ch q =>
    if (ch.queue q).isEmpty then ch else ((ch.add Reg.SCH_ABRT (ch.queue q).length).schPend).setQueue q []) (ch.put Reg.SCH_STS_STALL 0)

/-- A complete checkpoint: CRC, tags, then staged in one of two buffers (R343). -/
def ChanState.stageCheckpoint (ch : ChanState) (bs : List Byte) : ChanState :=
  if leAt bs 0x3BFC 4 ≠ crc32c (bs.take 0x3BFC) then
    (((ch.put Reg.RED_STS_CPERR 1).add Reg.RED_CPLOST 1).fault 0x0D01 1 none 0 0)
  else if leAt bs 0 2 ≠ 1 ∨ leAt bs 4 4 ≠ ch.fwVersion ∨ leAt bs 8 4 ≠ ch.get Reg.CFG_CDIG ∨ leAt bs 16 8 ≠ ch.get64 Reg.RED_PDEV then
    (ch.put Reg.RED_STS_CPMIS 1).fault 0x0D02 1 none 0 0
  else
    let ch := { ch with red := { ch.red with staged := bs :: ch.red.staged.take 1 } }
    let ch := ((ch.add Reg.RED_CPRX 1).put Reg.RED_CPMCC (leAt bs 24 4)).putb Reg.RED_STS_READY
      (ch.mcc == leAt bs 24 4 || ch.mcc == (leAt bs 24 4 + 1) % 2 ^ 32)
    let ch := if ch.quiet then ch.rebase bs else ch
    ch.drillHeard (leAt bs 0x25 1 % 16)

/-- A checkpoint begun and not completed is discarded (R343). -/
def ChanState.dropChunks (ch : ChanState) : ChanState :=
  if ch.red.rxMcc.isSome && !ch.red.chunks.isEmpty then
    let ch := { ch with red := { ch.red with rxMcc := none, chunks := [] } }
    ((ch.put Reg.RED_STS_CPERR 1).add Reg.RED_CPLOST 1).fault 0x0D01 1 none 0 0
  else { ch with red := { ch.red with rxMcc := none, chunks := [] } }

/-- A CHKPT record of the partner (R300, R341, R343). -/
def ChanState.checkpointChunk (ch : ChanState) (b : List Byte) : ChanState :=
  let mcc := leAt b 0 2
  let i := leAt b 2 1
  if !ch.bit Reg.RED_CFG_EN || decide (14 < i) || leAt b 4 2 != 1024 || leAt b 3 1 != 15 || b.length < 1032 then ch else
  let ch := if ch.red.rxMcc = some mcc then ch else
    let ch := ch.dropChunks
    { ch with red := { ch.red with rxMcc := some mcc } }
  let ch := { ch with red := { ch.red with chunks := Tab.set ch.red.chunks [] i ((b.drop 8).take 1024) } }
  if ch.red.chunks.length = 15 then
    let bs := (List.range 15).flatMap fun i => Tab.get ch.red.chunks [] i
    ({ ch with red := { ch.red with rxMcc := none, chunks := [] } }).stageCheckpoint bs
  else ch

/-- An edge record of the partner, kept by a unit that stands by: the last four per joint (R344). -/
def ChanState.keepEdge (ch : ChanState) (dst : Nat) (b : List Byte) : ChanState :=
  let who := (List.range 64).find? fun j => ch.get (Reg.JNT_BIND_KIND j) == 3 && ch.get (Reg.JNT_BIND_NODE j) == dst &&
    ch.get (Reg.JNT_BIND_SLOT j) == leAt b 0 1 % 8
  match who with
  | some j => { ch with red := { ch.red with kept := Tab.set ch.red.kept [] j (b :: (Tab.get ch.red.kept [] j).take 3) } }
  | none => ch

/-- Whether a claim is accepted: not 0, and at least as high as every other unit's of the same cell channel in this or the
previous basic cycle (R338, R339). -/
def ChanState.claimOk (ch : ChanState) (node cch claim : Nat) : Bool :=
  claim != 0 && ch.cb.claims.all fun e =>
    e.1 == node || Tab.get ch.cb.nodeCch none e.1 != some cch || e.2.all fun c => decide (c.1 + 1 < ch.cycle) || decide (c.2 ≤ claim)

/-- Notes an accepted claim of a node. -/
def ChanState.noteClaim (ch : ChanState) (node cch claim : Nat) : ChanState :=
  let l := (ch.cycle, claim) :: (Tab.get ch.cb.claims [] node).filter fun c => decide (ch.cycle ≤ c.1 + 1)
  { ch with cb := { ch.cb with nodeCch := Tab.set ch.cb.nodeCch none node (some cch), claims := Tab.set ch.cb.claims [] node (l.take 4) } }

/-- The partner's claim as heard by an acting unit: a higher one sends it to STANDBY from the next cycle, a lower one in more
than one cycle raises F1 (R349). -/
def ChanState.partnerClaim (ch : ChanState) (node claim : Nat) : ChanState :=
  if !ch.bit Reg.RED_CFG_EN || node != ch.get Reg.RED_CFG_PNODE || ch.quiet || claim == 0 || !ch.bit Reg.RED_STS_ACT then ch else
  let own := ch.get Reg.RED_CFG_CLAIM
  if own < claim then
    let c := ch.get Reg.CHN_STATE_CODE
    if ch.bit Reg.RED_CFG_ROLE && decide (3 ≤ c) && decide (c ≤ 6) then
      let ch := match ch.red.drillT with
        | some t => ch.drillEnd (if t + 1000000000 < ch.mono then 5 else if ch.red.drillBad ≠ 0 then ch.red.drillBad else 1)
        | none => ch
      let ch := { ch with red := { ch.red with mute0 := true, lower := [], snap := [] } }
      ((ch.goState 9 9).redShow.standDown).event 0x36
    else ch
  else if claim < own then
    let l := (ch.cycle :: ch.red.lower.filter fun k => k != ch.cycle).take 4
    let ch := { ch with red := { ch.red with lower := l } }
    if 2 ≤ l.length then (ch.put Reg.RED_STS_BOTH 1).fault 0x0D09 1 none 0 0 else ch
  else ch

end Sys2Proof.Machine
end

