-- ==== Sys2Proof/Machine/CbOps.lean ====
section
/-!
DEFINITION. The Cell Bus: the schedule, credits, muting and integration, and the frames the channel sends (R295 to R317).
-/
namespace Sys2Proof.Machine

open Sys2Proof

/-- The channel's node ID. -/
def ChanState.node (ch : ChanState) : Nat := ch.get Reg.CBUS_CFG_NODE

def ChanState.cbState (ch : ChanState) : Nat := ch.get Reg.CBUS_STS_STATE

/-- The entry of a node in the node list. -/
def ChanState.cbNode (ch : ChanState) (n : Nat) : Option CbNode := ch.cb.nodes.find? fun e => e.id == n

/-- The cold-start rank of a node; 0 where it has none. -/
def ChanState.rankOf (ch : ChanState) (n : Nat) : Nat := match ch.cbNode n with | some e => e.rank | none => 0

/-- Whether a node is a controller channel. -/
def ChanState.isController (ch : ChanState) (n : Nat) : Bool := match ch.cbNode n with | some e => e.kind == 1 | none => false

/-- Whether the ports are in use under an accepted schedule. -/
def ChanState.cbUp (ch : ChanState) : Bool := ch.bit Reg.CBUS_CFG_EN && !ch.cb.nodes.isEmpty && !ch.blockDown 1

/-- Whether the channel sends its own frames (R308, R314). -/
def ChanState.transmits (ch : ChanState) : Bool :=
  ch.cbUp && ch.cbState == 5 && ch.get Reg.CHN_STATE_CODE != 0xB && decide (ch.cb.leadFrom ≤ ch.matrix)

/-- The ring budget: every declared forwarding and cable delay (R294). -/
def Cb.rdly (c : Cb) : Nat := (c.nodes.map fun n => n.fwd + n.cdly).sum

/-! ### Credits (R311, R312) -/

/-- Credits a sender holds. -/
def Pair.held (p : Pair) : Nat := if p.recv then 0 else (p.now.rtn + 2 ^ 16 - p.now.snt) % 2 ^ 16

/-- Shows the first 16 pairs in CBUS_CRSp and CBUS_CRCp. -/
def ChanState.pairShow (ch : ChanState) : ChanState :=
  forUpto 16 ch fun i ch =>
    match ch.cb.pairs[i]? with
    | none => ch
    | some p =>
      let ch := ((ch.put (Reg.CBUS_CRS_PEER i) p.peer).putb (Reg.CBUS_CRS_DIR i) p.recv).put (Reg.CBUS_CRS_HELD i) p.held
      (ch.put (Reg.CBUS_CRC_A i) (if p.recv then p.now.rcv else p.now.snt)).put (Reg.CBUS_CRC_B i)
        (if p.recv then p.now.iss else p.now.rtn)

/-- Changes the pairs and shows them. -/
def ChanState.onPairs (ch : ChanState) (f : Pair → Pair) : ChanState :=
  ({ ch with cb := { ch.cb with pairs := ch.cb.pairs.map f } }).pairShow

/-- A pair as after an integration (R311). -/
def Pair.fresh (p : Pair) : Pair :=
  { p with now := { iss := if p.recv then p.cr else 0 }, snap := none, theirs := none, due := false }

/-- Resets the pairs that `f` names, each counted (R311). -/
def ChanState.pairReset (ch : ChanState) (f : Pair → Bool) : ChanState :=
  let n := (ch.cb.pairs.filter f).length
  (ch.onPairs fun p => if f p then p.fresh else p).add Reg.CBUS_CRRST n

/-- Whether `a` is ahead of `b` modulo 2^16. -/
def ahead16 (a b : Nat) : Bool := a % 2 ^ 16 != b % 2 ^ 16 && decide ((a + 2 ^ 16 - b % 2 ^ 16) % 2 ^ 16 < 2 ^ 15)

/-- Hears an ISS of a receiver: RTN is the highest heard (R311). -/
def ChanState.hearIss (ch : ChanState) (peer iss : Nat) : ChanState :=
  ch.onPairs fun p => if p.peer == peer && !p.recv && ahead16 iss p.now.rtn then { p with now := { p.now with rtn := iss } } else p

/-- Whether a credit for node `n` is held. -/
def ChanState.credit (ch : ChanState) (n : Nat) : Bool := ch.cb.pairs.any fun p => p.peer == n && !p.recv && decide (0 < p.held)

/-- Takes a credit for a record sent to node `n`. -/
def ChanState.spend (ch : ChanState) (n : Nat) : ChanState :=
  ch.onPairs fun p => if p.peer == n && !p.recv then { p with now := { p.now with snt := (p.now.snt + 1) % 2 ^ 16 } } else p

/-- Counts a credited record accepted from node `n`. -/
def ChanState.received (ch : ChanState) (n : Nat) : ChanState :=
  ch.onPairs fun p => if p.peer == n && p.recv then { p with now := { p.now with rcv := (p.now.rcv + 1) % 2 ^ 16 } } else p

/-- Returns a credit to node `n`: a record is consumed (R311). -/
def ChanState.giveBack (ch : ChanState) (n : Nat) : ChanState :=
  ch.onPairs fun p =>
    if p.peer == n && p.recv then { p with now := { p.now with iss := (p.now.iss + 1) % 2 ^ 16 }, due := true } else p

/-- The failed audits of a snapshot against the one before (R312). -/
def Pair.auditFails (p : Pair) (mcc : Nat) : Bool :=
  match p.snap, p.theirs with
  | some (k, old), some (k', o) =>
    k == k' && mcc == (k + 1) % 2 ^ 32 &&
      (if p.recv then decide ((p.now.rcv + 2 ^ 16 - old.rcv) % 2 ^ 16 < (o.snt + 2 ^ 16 - old.rcv) % 2 ^ 16)
       else decide ((p.now.rtn + 2 ^ 16 - old.rtn) % 2 ^ 16 < (o.iss + 2 ^ 16 - old.rtn) % 2 ^ 16))
  | _, _ => false

/-- The audit snapshot at 15,840 ns of b = 15, and the audit of the snapshot before it (R312). -/
def ChanState.auditSnapshot (ch : ChanState) : ChanState :=
  if ch.cbState ≠ 5 then ch else
  let t := ch.matrix * 256000 + 255840
  let ch := ch.advanceTo (if ch.now ≤ t then t else t + 256000)
  let bad := ch.cb.pairs.filter fun p => p.auditFails ch.mcc
  let ch := bad.foldl (fun ch p => ((ch.add Reg.CBUS_CRAUD 1).put Reg.CBUS_STS_CRERR 1).fault 0x0B01 1 none p.peer 0) ch
  let ch := ch.pairReset fun p => bad.any fun q => q.peer == p.peer && q.recv == p.recv
  ch.onPairs fun p => { p with snap := some (ch.mcc, p.now) }

/-! ### Muting and integration (R310, R314) -/

/-- Whether any joint has torque on. -/
def ChanState.anyTorque (ch : ChanState) : Bool := (List.range 64).any fun j => ch.bound j && !ch.bit (Reg.JNT_STS_TOFF j)

/-- The node mutes and returns to integration (R310). -/
def ChanState.mute (ch : ChanState) : ChanState :=
  let ch := ((((ch.put Reg.CBUS_STS_MUTEEV 1).put Reg.CBUS_STS_STATE 6).put Reg.CBUS_STS_REF 0).put Reg.CBUS_STS_CONS 0)
  let ch := { ch with cb := { ch.cb with acquired := false, wait := none, arbWait := none, offs := [], rows := 0, oLast := none, steps := 0 } }
  if ch.anyTorque then ch.fault 0x0B04 2 none 0 0 else ch

/-- CBUS_CTL.REINT (R310): a node that is integrating or integrated mutes. -/
def ChanState.reint (ch : ChanState) : ChanState := if 4 ≤ ch.cbState then ch.mute else ch

/-- The node integrates (R314 step 7): SEQ starts at 0, its GEN changes, its ledger is provisional (R247). -/
def ChanState.integrate (ch : ChanState) : ChanState :=
  let ch := (ch.put Reg.CBUS_STS_STATE 5).add Reg.CBUS_INTCNT 1
  let ch := { ch with cb := { ch.cb with seq := 0, sentN := 0 } }
  (ch.pairReset fun _ => true).provisional

/-- Begins to listen for two matrix cycles of local time (R314 step 2). -/
def ChanState.cbListen (ch : ChanState) : ChanState :=
  let ch := ((ch.put Reg.CBUS_STS_STATE 2).put Reg.CBUS_STS_CONS 0).put Reg.CBUS_STS_REF 0
  { ch with cb := { ch.cb with listen := some (ch.mono + 512000), acquired := false, startDue := none, startSent := none,
                               retry := none, took := none } }

/-- Brings the ports up (R314 step 1): with both locked the node listens. -/
def ChanState.cbBringUp (ch : ChanState) : ChanState :=
  if !ch.cbUp then ch
  else if ch.bit Reg.CBUS_STS_LINK0 && ch.bit Reg.CBUS_STS_LINK1 then ch.cbListen else ch.put Reg.CBUS_STS_STATE 1

/-- A port reaches block lock. -/
def ChanState.portLock (ch : ChanState) (p : Nat) : ChanState :=
  let ch := ch.put (if p = 0 then Reg.CBUS_STS_LINK0 else Reg.CBUS_STS_LINK1) 1
  let ch := ch.causeGone 0x0B03 none p
  if ch.cbState = 1 then ch.cbBringUp else ch

/-- A port loses block lock (R318). -/
def ChanState.portLoss (ch : ChanState) (p : Nat) : ChanState :=
  let ch := ch.put (if p = 0 then Reg.CBUS_STS_LINK0 else Reg.CBUS_STS_LINK1) 0
  if ch.cbState = 5 then ch.raise 0x0B03 1 none p 0 true else ch

/-! ### Placement (R477) -/

/-- A record due in a row: an EDGE joint's, a SETPOINT joint's, a producer connection's. -/
inductive Due where
  | edge (j : Nat)
  | setpt (j : Nat)
  | safety (i : Nat)
deriving DecidableEq, Repr

/-- The size of a due record with its header. -/
def ChanState.dueSize (ch : ChanState) : Due → Nat
  | .edge _ => 20
  | .setpt _ => 28
  | .safety i => 4 + (22 + ch.get (Reg.SCX_CFG_LEN i) + 3) / 4 * 4

/-- The records due in row `b` for node `n`, in order. -/
def ChanState.dues (ch : ChanState) (b n : Nat) : List Due :=
  ((List.range 64).flatMap fun j =>
    if ch.get (Reg.JNT_BIND_KIND j) = 3 ∧ ch.get (Reg.JNT_BIND_NODE j) = n then [.edge j]
    else if ch.get (Reg.JNT_BIND_KIND j) = 4 ∧ ch.get (Reg.JNT_BIND_NODE j) = n ∧ b % 4 = 0 then [.setpt j] else []) ++
  ((List.range 128).filter fun i => ch.bit (Reg.SCX_CFG_EN i) && ch.bit (Reg.SCX_CFG_DIR i) && !ch.bit (Reg.SCX_CFG_PATH i) &&
    ch.get (Reg.SCX_CFG_NODE i) == n).map .safety

/-- Whether records of `n` bytes fit a slot: wire time and guard within its length (R299, R305). -/
def Slot.fits (s : Slot) (n : Nat) : Bool := decide ((max (14 + 16 + n + 4) 64 + 20) * 32 + 16000 ≤ s.len * 3200)

def Slot.sync (s : Slot) : Bool := tbit s.flg 0
def Slot.status (s : Slot) : Bool := tbit s.flg 1
def Slot.timed (s : Slot) : Bool := tbit s.flg 2

/-- The bytes of a slot's frame that placement finds taken: its STATUS record and its checkpoint chunk. -/
def ChanState.slotBase (ch : ChanState) (s : Slot) : Nat :=
  (if s.status then 36 + 12 * ch.cb.pairs.length else 0) + (if s.sync && ch.bit Reg.RED_CFG_EN && s.row != 0 then 1036 else 0)

/-- Places a record in the first slot it fits. -/
def placeIn (n : Nat) (d : Due) (size : Nat) : List (Slot × Nat × List Due) → List (Slot × Nat × List Due)
  | [] => []
  | (s, used, l) :: r =>
    if s.timed && s.tdst == n && s.fits (used + size) then (s, used + size, l ++ [d]) :: r
    else (s, used, l) :: placeIn n d size r

/-- The channel's own slots of row `b` with the records they carry. -/
def ChanState.placed (ch : ChanState) (b : Nat) : List (Slot × Nat × List Due) :=
  let own := (ch.cb.slots.filter fun s => s.node == ch.node && s.row == b).map fun s => (s, ch.slotBase s, ([] : List Due))
  ch.cb.nodes.foldl (fun l n => (ch.dues b n.id).foldl (fun l d => placeIn n.id d (ch.dueSize d) l) l) own

/-! ### Frames (R299 to R301, R306) -/

/-- A record: header, body, padding (R300). -/
def recordOf (rtype dst : Nat) (body : List Byte) : List Byte :=
  leBytes 1 rtype ++ leBytes 1 dst ++ leBytes 2 body.length ++ body ++ List.replicate ((4 - body.length % 4) % 4) 0

/-- The CLAIM of the channel's frames (R338, R348). -/
def ChanState.claimSent (ch : ChanState) : Nat := if ch.quiet || ch.red.mute0 then 0 else ch.get Reg.RED_CFG_CLAIM

/-- A frame from its header fields and its records, padded to the Ethernet minimum; SEQ is set when it is sent. -/
def ChanState.frameOf (ch : ChanState) (ftype hops slotid : Nat) (recs : List (List Byte)) : List Byte :=
  let body := leBytes 1 1 ++ leBytes 1 ch.node ++ leBytes 1 ftype ++ leBytes 1 hops ++ leBytes 2 ch.cb.seq ++ leBytes 2 ch.mcc ++
    leBytes 2 slotid ++ leBytes 1 ch.claimSent ++ leBytes 1 recs.length ++ leBytes 4 0 ++ recs.flatten
  body ++ List.replicate (46 - body.length) 0

/-- Sends an own frame on both ports with the next SEQ. -/
def ChanState.emit (ch : ChanState) (f : List Byte) : ChanState :=
  let f := f.take 4 ++ leBytes 2 ch.cb.seq ++ f.drop 6
  ({ ch with sent := ch.sent ++ [Sent.frame f]
             cb := { ch.cb with seq := (ch.cb.seq + 1) % 2 ^ 16, sentN := ch.cb.sentN + 1 } }).add Reg.CBUS_TXF 1

/-- HOPS of a frame that goes round the ring. -/
def ChanState.ringHops (ch : ChanState) : Nat := ch.cb.nodes.length - 1

/-- An own slot left empty (R306). -/
def ChanState.slotEmpty (ch : ChanState) (sidx : Nat) : ChanState := (ch.add Reg.CBUS_OWNEMPTY 1).fault 0x0B08 0 none sidx 0

/-- The STATUS record's body (R301). -/
def ChanState.statusBody (ch : ChanState) : List Byte :=
  let sflg := b2n ch.quiet + 2 * b2n (ch.bit Reg.CBUS_STS_REF) + 4 * b2n (ch.bit Reg.CBUS_STS_RINGOPEN) + 8 * b2n (ch.rankOf ch.node != 0)
  let pairs := ch.cb.pairs.take 16
  let mccs := match pairs with | p :: _ => (match p.snap with | some (k, _) => k | none => 0) | [] => 0
  leBytes 4 (ch.get Reg.CFG_CDIG) ++ leBytes 4 (ch.get Reg.CFG_ISEQ) ++ leBytes 2 (ch.get Reg.CFG_EPOCH) ++
  leBytes 1 (ch.get Reg.CHN_STATE_CODE) ++ leBytes 1 sflg ++ leBytes 2 (ofInt 16 (ch.geti Reg.CBUS_OFS / 64)) ++
  leBytes 2 (ch.get Reg.CBUS_PDLY0 / 64) ++ leBytes 2 (ch.get Reg.CBUS_PDLY1 / 64) ++ leBytes 1 pairs.length ++
  leBytes 1 (ch.get Reg.CBUS_INTCNT) ++ leBytes 4 mccs ++ leBytes 8 0 ++
  pairs.flatMap fun p =>
    let c := match p.snap with | some (_, c) => c | none => {}
    leBytes 1 (p.peer + 128 * b2n p.recv) ++ leBytes 1 ((Tab.get ch.cb.gen none p.peer).getD 0) ++ leBytes 2 (if p.recv then c.iss else 0) ++
    leBytes 2 (if p.recv then c.rcv else 0) ++ leBytes 2 (if p.recv then 0 else c.snt) ++ leBytes 2 (if p.recv then 0 else c.rtn) ++ leBytes 2 0

/-- The records of the due list, in order. -/
def ChanState.dueRecords (ch : ChanState) (dst : Nat) : List Due → List (List Byte) × ChanState
  | [] => ([], ch)
  | d :: ds =>
    let (r, ch) := match d with
      | .edge j => let (b, ch) := ch.edgeRecord j; ([recordOf 1 dst b], ch)
      | .setpt j => let (b, ch) := ch.driveRecord j; ([recordOf 3 dst b], ch)
      | .safety i => if ch.produces i then (let (b, ch) := ch.container i; ([recordOf 9 dst b], ch)) else ([], ch)
    let (rs, ch) := ch.dueRecords dst ds
    (r ++ rs, ch)

/-- CREDIT records due, as far as they fit, and the channel without them (R311). -/
def ChanState.creditRecords (ch : ChanState) (room : Nat) : List (List Byte) × ChanState :=
  let l := (ch.cb.pairs.filter (·.due)).take (room / 8)
  (l.map fun p => recordOf 0x0B p.peer (leBytes 1 p.peer ++ leBytes 1 ((Tab.get ch.cb.gen none p.peer).getD 0) ++ leBytes 2 p.now.iss),
   ch.onPairs fun p => if l.any fun q => q.peer == p.peer && q.recv == p.recv then { p with due := false } else p)

/-- The capsule records of the evaluation that has committed in this servo cycle (R241, R306). -/
def ChanState.capsuleRecords (ch : ChanState) : List (List Byte) :=
  if ch.sep.staged.isNone && ch.sep.lastK == some (ch.cycle / 4 * 4) then
    (List.range 8).flatMap fun k => let b := Tab.get ch.sep.pub [] k; if b.isEmpty then [] else [recordOf 5 0xFF b]
  else []

/-- The slot of a row that carries the capsule records: the first own slot that is not TIMED, else the SYNC slot (R234). -/
def ChanState.capsuleSlot (ch : ChanState) (b : Nat) : Option Nat :=
  let own := ch.cb.slots.filter fun s => s.node == ch.node && s.row == b
  match own.find? fun s => !s.timed with
  | some s => some s.sidx
  | none => (own.find? Slot.sync).map (·.sidx)

/-- The records of an own slot's frame (R306, R308, R341). -/
def ChanState.slotRecords (ch : ChanState) (s : Slot) : List (List Byte) × ChanState :=
  let b := ch.bIdx
  let live := !ch.quiet
  let place := match (ch.placed b).find? fun e => e.1.sidx == s.sidx with | some (_, _, l) => l | none => []
  let (rs, ch) := if live then ch.dueRecords s.tdst place else ([], ch)
  let rs := if live && b % 4 == 3 && ch.capsuleSlot b == some s.sidx then rs ++ ch.capsuleRecords else rs
  let rs := if s.status then rs ++ [recordOf 8 0xFF ch.statusBody] else rs
  let rs := if live && s.sync && ch.bit Reg.RED_STS_ACT && b != 0 && !ch.red.snap.isEmpty then
      rs ++ [recordOf 7 (ch.get Reg.RED_CFG_PNODE) (leBytes 2 ch.red.snapMcc ++ leBytes 1 (b - 1) ++ leBytes 1 15 ++ leBytes 2 1024 ++
        leBytes 2 0 ++ (ch.red.snap.drop (1024 * (b - 1))).take 1024)]
    else rs
  if !live then (rs, ch) else
  let used := (rs.map List.length).sum
  let (cs, ch) := ch.creditRecords (((s.len * 3200 - 16000) / 32 - 20 - 34 - used) / 8 * 8)
  (rs ++ cs, ch)

/-- The first instant at or after now at which an own slot with index `sidx` starts, with the slot. -/
def ChanState.nextSlot (ch : ChanState) (sidx : Nat) : Option (Nat × Slot) :=
  (ch.cb.slots.filter fun s => s.node == ch.node && s.sidx == sidx).foldl (fun o s =>
    let t := nextAt ch.now 256000 (s.row * 16000 + s.start * 32)
    match o with
    | some (u, _) => if t < u then some (t, s) else o
    | none => some (t, s)) none

/-- The start of an own exclusive slot (R306). -/
def ChanState.ownSlot (ch : ChanState) (sidx : Nat) (busy : Bool) : ChanState :=
  match ch.nextSlot sidx with
  | none => ch
  | some (t, s) =>
    let ch := ch.advanceTo t
    if !ch.transmits || (ch.quiet && !s.sync && !s.status) then ch else
    let (rs, ch) := ch.slotRecords s
    if rs.isEmpty && !s.sync then ch.slotEmpty sidx else
    let f := ch.frameOf 1 ch.ringHops (sidx + 256 * ch.bIdx) rs
    if busy then { ch with cb := { ch.cb with wait := some f } } else ch.emit f

/-- An own frame that has waited for its output: sent within 64 ns of the slot start, or dropped and counted (R306). -/
def ChanState.deferredSend (ch : ChanState) (ok : Bool) : ChanState :=
  match ch.cb.wait with
  | none => ch
  | some f =>
    let ch := { ch with cb := { ch.cb with wait := none } }
    if ok then ch.emit f else ch.slotEmpty (leAt f 8 1)

/-! ### The arbitrating window (R311) -/

/-- The node a token record goes to: 0xFF for all, none while the acting unit is not known (R300). -/
def ChanState.tokenDst (ch : ChanState) (b : List Byte) : Option Nat :=
  let z := leAt b 1 1 % 64
  let unit := fun c => if c = ch.cch then some ch.node else Tab.get ch.cb.acting none c
  match leAt b 0 1 with
  | 1 | 3 => unit (if leAt b 0 1 = 1 then ch.get (Reg.ZTK_ZSTS_HCCH z) else leAt b 3 1 % 16)
  | 2 | 4 => unit (leAt b 3 1 % 16)
  | _ => some 0xFF

/-- Takes the waiting token records that may be sent into a frame with `room` bytes left: those to an excluded node are
dropped, those without an address or a credit wait. -/
def ChanState.tokenRecords (ch : ChanState) (room : Nat) : List (List Byte) → List (List Byte) × List (List Byte) × ChanState
  | [] => ([], [], ch)
  | b :: bs =>
    match ch.tokenDst b with
    | none => let (rs, w, ch) := ch.tokenRecords room bs; (rs, b :: w, ch)
    | some n =>
      if n != 0xFF && n != ch.node && tbit (ch.get64 Reg.ZTK_EXCL) n then ch.tokenRecords room bs
      else if room < 20 ∨ (n ≠ 0xFF ∧ n ≠ ch.node ∧ !ch.credit n) then
        let (rs, w, ch) := ch.tokenRecords room bs; (rs, b :: w, ch)
      else
        let ch := if n = 0xFF ∨ n = ch.node then ch else ch.spend n
        let (rs, w, ch) := ch.tokenRecords (room - 20) bs
        (recordOf 6 n b :: rs, w, ch)

/-- The HOSTRELAY record that waits, once a credit allows; LAST is not given by any register. -/
def ChanState.relayRecord (ch : ChanState) (room : Nat) : List (List Byte) × ChanState :=
  match ch.cb.relay with
  | none => ([], ch)
  | some r =>
    if !ch.credit r.node || decide (room < 4 + 8 + (r.data.length + 3) / 4 * 4) then ([], ch) else
    let (v, ch) := ch.draw
    let b := leBytes 1 ch.cb.hrCount ++ leBytes 1 (v % 2) ++ leBytes 2 0 ++ leBytes 4 r.tag ++ r.data
    let ch := { ch with cb := { ch.cb with relay := none, hrCount := (ch.cb.hrCount + 1) % 256 } }
    ([recordOf 0x0A r.node b], (ch.put Reg.CBUS_HRSTS_TXBUSY 0).spend r.node)

/-- Sends an arbitrating frame of at most 300 bytes in minislot `m`; with nothing to send there is none. -/
def ChanState.arbSend (ch : ChanState) (m : Nat) : ChanState :=
  let (ts, w, ch) := ch.tokenRecords 266 ch.sep.out
  let ch := { ch with sep := { ch.sep with out := w } }
  let used := 20 * ts.length
  let (hs, ch) := ch.relayRecord (266 - used)
  let used := used + (hs.map List.length).sum
  let (cs, ch) := ch.creditRecords (266 - used)
  let rs := ts ++ hs ++ cs
  if rs.isEmpty then ch else ch.emit (ch.frameOf 2 ch.ringHops (m + 256 * ch.bIdx + 0x8000) rs)

/-- The start of minislot `m` of the present or the next basic cycle (R303, R311). -/
def ChanState.minislot (ch : ChanState) (m : Nat) (busy : Bool) : ChanState :=
  let ch := ch.advanceInCycle (9600 + 160 * m)
  if !ch.transmits || ch.quiet || ch.cb.minis[m]? != some ch.node then ch
  else if busy then { ch with cb := { ch.cb with arbWait := some m } }
  else ch.arbSend m

/-- The output frees: a waiting arbitrating frame starts before 15,040 ns, or waits for the next owned minislot. -/
def ChanState.arbDeferred (ch : ChanState) : ChanState :=
  match ch.cb.arbWait with
  | none => ch
  | some m =>
    let ch := { ch with cb := { ch.cb with arbWait := none } }
    if ch.now % 16000 ≤ 15040 ∧ ch.transmits ∧ !ch.quiet then ch.arbSend m else ch

/-- A write of CBUS_HRCTL with SEND: the TX buffer waits as one record of 1 to 224 bytes; a second one is ignored. -/
def ChanState.hrSend (ch : ChanState) (v : Nat) : ChanState :=
  let len := v / 2 ^ 16 % 256
  if v % 2 = 0 ∨ ch.bit Reg.CBUS_HRSTS_TXBUSY ∨ len = 0 ∨ 224 < len then ch else
  let data := ((List.range 56).flatMap fun i => leBytes 4 (ch.get (Reg.CBUS_HRTX i))).take len
  let r : Relay := { node := v / 256 % 64, tag := ch.get Reg.CBUS_HRTAG, data }
  ({ ch with cb := { ch.cb with relay := some r } }).put Reg.CBUS_HRSTS_TXBUSY 1

/-- Shows a HOSTRELAY record in the RX buffer. -/
def ChanState.relayShow (ch : ChanState) (r : Relay) : ChanState :=
  let ch := forUpto 56 ch fun i ch => ch.put (Reg.CBUS_HRRX i) (leAt r.data (4 * i) 4)
  (((ch.put Reg.CBUS_HRSTS_RXFULL 1).put Reg.CBUS_HRSTS_RXSRC r.node).put Reg.CBUS_HRSTS_RXLEN r.data.length).put Reg.CBUS_HRRTAG r.tag

/-- A HOSTRELAY record for this node is held, or waits while another is held. -/
def ChanState.relayTake (ch : ChanState) (r : Relay) : ChanState :=
  if ch.bit Reg.CBUS_HRSTS_RXFULL then { ch with cb := { ch.cb with rxq := ch.cb.rxq ++ [r] } } else ch.relayShow r

/-- The host clears RXFULL: the record is consumed, the next one follows. -/
def ChanState.rxClear (ch : ChanState) : ChanState :=
  if !ch.bit Reg.CBUS_HRSTS_RXFULL then ch else
  let ch := (ch.giveBack (ch.get Reg.CBUS_HRSTS_RXSRC)).put Reg.CBUS_HRSTS_RXFULL 0
  match ch.cb.rxq with
  | [] => ch
  | r :: q => ({ ch with cb := { ch.cb with rxq := q } }).relayShow r

/-- CBUS_CTL.CLRCNT (R307). -/
def ChanState.cbClear (ch : ChanState) : ChanState :=
  forUpto 64 { ch with cb := { ch.cb with ecnt := [] } } fun n ch => if n < 48 then ch.put (Reg.CBUS_NSTAT n) 0 else ch

end Sys2Proof.Machine
end

