-- ==== Sys2Proof/Machine/CbRx.lean ====
section
/-!
DEFINITION. Frames received on the Cell Bus: forwarding, checks, records, the start on the ring (R295 to R302, R309 to R314).
-/
namespace Sys2Proof.Machine

open Sys2Proof

/-! ### Checks (R297, R302) -/

/-- Cuts `n` records; none where they do not fit the bytes (R300). -/
def cutRecords : Nat → List Byte → Option (List (Nat × Nat × List Byte))
  | 0, _ => some []
  | n + 1, bs =>
    let len := leAt bs 2 2
    let pad := (len + 3) / 4 * 4
    if bs.length < 4 + pad then none
    else match cutRecords n (bs.drop (4 + pad)) with
      | some l => some ((leAt bs 0 1, leAt bs 1 1, (bs.drop 4).take len) :: l)
      | none => none

def ChanState.srcOf (ch : ChanState) (key : Nat) : Option Src := Tab.get ch.cb.src none key

/-- The duplicate check of a source's record: 0 accepted, 1 duplicate, 2 behind (R297). -/
def ChanState.dupCheck (ch : ChanState) (key seq : Nat) : Nat :=
  match ch.srcOf key with
  | none => 0
  | some r =>
    if r.last + 16 < ch.cycle then 0
    else
      let d := (r.h + 2 ^ 16 - seq) % 2 ^ 16
      if 2 ^ 15 ≤ d then 0 else if 256 ≤ d then 2 else if tbit r.seen d then 1 else 0

/-- Marks a SEQ accepted (R297). -/
def ChanState.dupMark (ch : ChanState) (key seq : Nat) : ChanState :=
  let new : Src := match ch.srcOf key with
    | none => { h := seq, seen := 1, last := ch.cycle }
    | some r =>
      if r.last + 16 < ch.cycle then { h := seq, seen := 1, last := ch.cycle } else
      let d := (r.h + 2 ^ 16 - seq) % 2 ^ 16
      if 2 ^ 15 ≤ d then
        let up := 2 ^ 16 - d
        { h := seq, seen := (r.seen * 2 ^ min up 256 + 1) % 2 ^ 256, last := ch.cycle }
      else { r with seen := insertBits r.seen d 1 1, last := ch.cycle }
  { ch with cb := { ch.cb with src := Tab.set ch.cb.src none key (some new) } }

/-- A frame that fails check 2 or 5 (CBUS_RXBAD, CBUS_NSTATn.BAD). -/
def ChanState.frameBad (ch : ChanState) (node : Nat) : ChanState :=
  let ch := ch.add Reg.CBUS_RXBAD 1
  if node < 48 then ch.incSat (Reg.CBUS_NSTAT_BAD node) else ch

/-- Check 2: node in the list, known type, no reserved bit set; the records where they fit. -/
def ChanState.frameRecords (ch : ChanState) (bs : List Byte) : Option (List (Nat × Nat × List Byte)) :=
  let ft := leAt bs 2 1
  let id := leAt bs 8 2
  let plain := ft == 1 || ft == 2
  if leAt bs 0 1 != 1 || (ch.cbNode (leAt bs 1 1)).isNone || ft == 0 || decide (5 < ft) || (plain && id / 4096 % 8 != 0) || (!plain && id != 0) then none
  else cutRecords (leAt bs 11 1) (bs.drop 16)

/-- A frame of the channel's own node is removed and counted; a SEQ not sent within the last 256 frames shows that another
node uses the ID (R298, R302). -/
def ChanState.ownFrame (ch : ChanState) (port seq : Nat) : ChanState :=
  let d := (ch.cb.seq + 2 ^ 16 - 1 - seq) % 2 ^ 16
  if d < 256 ∧ d < ch.cb.sentN then
    { ch with cb := if port = 0 then { ch.cb with ret0 := ch.cb.ret0 + 1 } else { ch.cb with ret1 := ch.cb.ret1 + 1 } }
  else
    let ch := (ch.put Reg.CBUS_STS_DUPID 1).fault 0x0B06 2 none 0 0
    if ch.cbState = 5 then ch.mute else ch

/-- Forwards a frame out of the other port (R296): HOPS, CORR with its residence, which is free, and the ingress link's delay;
a frame that fails its FCS leaves with an inverted one. -/
def ChanState.forward (ch : ChanState) (port : Nat) (fcsOk : Bool) (bs : List Byte) : ChanState :=
  let hops := leAt bs 3 1
  let own := ch.bit Reg.CBUS_CFG_EN && leAt bs 1 1 == ch.node
  let ft := leAt bs 2 1
  if bs.length < 16 || own || hops == 0 || ft == 4 || ft == 5 || ch.blockDown 1 then ch else
  let (v, ch) := ch.draw
  let corr := leAt bs 12 4 + v % 2 ^ 24 + ch.get (if port = 0 then Reg.CBUS_PDLY0 else Reg.CBUS_PDLY1)
  let f := bs.take 3 ++ leBytes 1 (hops - 1) ++ (bs.drop 4).take 8 ++ leBytes 4 corr ++ bs.drop 16
  { ch with sent := ch.sent ++ [if fcsOk then Sent.hop (1 - port) f else Sent.hopBad (1 - port) f] }

/-! ### Time taken from the ring (R309, R314) -/

/-- Cell time of the arrival expected of slot `s` in the basic cycle `k`, in 2^-16 ns (R309). -/
def ChanState.expected (ch : ChanState) (k : Nat) (s : Slot) (port corr : Nat) : Nat :=
  (k * 16000 + s.start * 32) * 2 ^ 16 + (corr + ch.get (if port = 0 then Reg.CBUS_PDLY0 else Reg.CBUS_PDLY1)) * 256

/-- Steps cell time by `d` in 2^-16 ns. -/
def ChanState.stepCell (ch : ChanState) (d : Int) : ChanState := { ch with ct := ofInt 80 (ch.ct + d) }

/-- Cell time is acquired: its armed time-event units are disarmed (R331). -/
def ChanState.acquireTime (ch : ChanState) (d : Int) : ChanState :=
  let ch := (ch.stepCell d).tevCancel
  { ch with cb := { ch.cb with acquired := true, offs := [], rows := 0, oLast := none, steps := 0 } }

/-- The matrix cycle nearest to the present one whose low 16 bits are `m`. -/
def ChanState.nearMatrix (ch : ChanState) (m : Nat) : Nat := ((ch.matrix : Int) + wrapS 16 ((m : Int) - ch.matrix)).toNat

/-- A node that has heard the ring running goes to integration (R314 steps 2 to 6). -/
def ChanState.heardRing (ch : ChanState) : ChanState :=
  if ch.cbState = 2 ∨ ch.cbState = 3 then
    ({ ch with cb := { ch.cb with listen := none, startDue := none, startSent := none, retry := none, acquired := false } }).put
      Reg.CBUS_STS_STATE 4
  else ch

/-- A SYNC frame before cell time is acquired sets it so that the frame arrives as expected (R314 step 6); with it goes the SFD's
cell time. -/
def ChanState.takeSync (ch : ChanState) (bs : List Byte) (port sfd : Nat) : ChanState × Nat :=
  if ch.cb.acquired ∨ ¬(ch.cbState = 4 ∨ ch.cbState = 6) then (ch, sfd) else
  let id := leAt bs 8 2
  let n := leAt bs 1 1
  match ch.cb.slots.find? fun s => s.node == n && s.sidx == id % 256 && s.row == id / 256 % 16 with
  | none => (ch, sfd)
  | some s =>
    if !s.sync ∨ ch.rankOf n = 0 then (ch, sfd) else
    let t := ch.expected (16 * ch.nearMatrix (leAt bs 6 2) + s.row) s port (leAt bs 12 4)
    ((ch.acquireTime ((t : Int) - sfd)).put Reg.CBUS_STS_REFN n, t)

/-- A startup frame (R314 steps 4 and 6). -/
def ChanState.startup (ch : ChanState) (port sfd : Nat) (corr : Nat) (body : List Byte) : ChanState :=
  let st := ch.cbState
  let within : Option Nat → Bool := fun o => match o with | some t => decide (ch.mono ≤ t + 12000) | none => false
  if st = 3 ∧ within ch.cb.startSent then
    { ch with cb := { ch.cb with startSent := none, rivalAt := some ch.mono, retry := some (ch.mono + 256000 + 16000 * ch.rankOf ch.node) } }
  else if st = 4 then
    match ch.cb.took with
    | some (d, t, prev) =>
      if ch.mono ≤ t + 12000 then
        let ch := (ch.stepCell (-d)).put Reg.CBUS_STS_STATE prev
        { ch with cb := { ch.cb with took := none, acquired := false, rivalAt := some ch.mono } }
      else ch
    | none => ch
  else if (st = 2 ∨ st = 3) ∧ !within ch.cb.rivalAt then
    let t : Nat := (leAt body 0 8 * 2 ^ 16 + leAt body 8 2) + (corr + ch.get (if port = 0 then Reg.CBUS_PDLY0 else Reg.CBUS_PDLY1)) * 256
    let d : Int := (t : Int) - sfd
    let ch := ch.acquireTime d
    ({ ch with cb := { ch.cb with took := some (d, ch.mono, st) } }).put Reg.CBUS_STS_STATE 4
  else if st = 2 ∨ st = 3 then { ch with cb := { ch.cb with rivalAt := some ch.mono } }
  else ch

/-! ### Records -/

/-- A node's digest and epoch against the channel's own (R251). -/
def ChanState.digestCompare (ch : ChanState) (n dig epoch : Nat) : ChanState :=
  if !ch.isController n || !ch.bit Reg.ZTK_CFG_EN then ch else
  let same := dig == ch.get Reg.CFG_CDIG
  let inR := decide (ch.get Reg.ZTK_EPOCH_MINEP ≤ epoch) && decide (epoch ≤ ch.get Reg.ZTK_EPOCH_MAXEP)
  let excl := !same
  let incomp := !same && !inR
  let ch := ch.put64 Reg.ZTK_EXCL (insertBits (ch.get64 Reg.ZTK_EXCL) n 1 (b2n excl))
  let ch := ch.put64 Reg.ZTK_INCOMP (insertBits (ch.get64 Reg.ZTK_INCOMP) n 1 (b2n incomp))
  ((ch.exclShow).sepFault 0x090C 1 none n (excl && !incomp)).sepFault 0x0910 1 none n incomp

/-- A STATUS record of node `n` (R301, R311, R312). -/
def ChanState.statusTake (ch : ChanState) (n : Nat) (b : List Byte) : ChanState :=
  let ch := (((ch.put (Reg.CBUS_NODEDIG n) (leAt b 0 4)).put (Reg.CBUS_NODESEQ n) (leAt b 4 4)).put (Reg.CBUS_NODEINF_EPOCH n)
    (leAt b 8 2)).put (Reg.CBUS_NODEINF_NSTATE n) (leAt b 10 1)
  let ch := (ch.put (Reg.CBUS_NODEINF_SFLG n) (leAt b 11 1)).put (Reg.CBUS_NODEINF_VALID n) 1
  let gen := leAt b 19 1
  let changed := match Tab.get ch.cb.gen none n with | some g => g != gen | none => false
  let ch := { ch with cb := { ch.cb with statT := Tab.set ch.cb.statT none n (some ch.now), gen := Tab.set ch.cb.gen none n (some gen) } }
  let ch := if changed then ch.pairReset fun p => p.peer == n else ch
  let mccs := leAt b 20 4
  let ch := forUpto (min (leAt b 18 1) 16) ch fun i ch =>
    let e := b.drop (32 + 12 * i)
    if leAt e 0 1 % 64 ≠ ch.node ∨ leAt e 1 1 ≠ ch.get Reg.CBUS_INTCNT % 256 then ch else
    let peerRecv := tbit (leAt e 0 1) 7
    let c : Counts := { iss := leAt e 2 2, rcv := leAt e 4 2, snt := leAt e 6 2, rtn := leAt e 8 2 }
    let ch := ch.onPairs fun p => if p.peer == n && p.recv != peerRecv then { p with theirs := some (mccs, c) } else p
    if peerRecv then ch.hearIss n c.iss else ch
  let ch := if tbit (leAt b 11 1) 1 && ch.cbState != 5 then ch.put Reg.CBUS_STS_REFN n else ch
  let ch := if n = ch.get Reg.RED_CFG_PNODE then { ch with red := { ch.red with pstate := leAt b 10 1 } } else ch
  ch.digestCompare n (leAt b 0 4) (leAt b 8 2)

/-- A SAMPLE record: reserved bits or another length make it absent (R148, R183). -/
def ChanState.sampleTake (ch : ChanState) (n : Nat) (b : List Byte) : ChanState :=
  if b.length ≠ 20 ∨ leAt b 0 1 / 8 ≠ 0 then ch else
  match (List.range 64).find? fun j => ch.get (Reg.JNT_BIND_KIND j) == 3 && ch.get (Reg.JNT_BIND_NODE j) == n && ch.slotOf j == leAt b 0 1 with
  | none => ch
  | some j => (ch.sampleRecord j b).remSample j (wrapS 32 (leAt b 12 4)) 65536 32 (leAt b 16 4)

/-- A DSTAT record (R152, R183). -/
def ChanState.dstatTake (ch : ChanState) (n : Nat) (b : List Byte) : ChanState :=
  if b.length ≠ 24 ∨ leAt b 0 1 / 8 ≠ 0 ∨ leAt b 1 1 / 32 ≠ 0 then ch else
  match (List.range 64).find? fun j => ch.get (Reg.JNT_BIND_KIND j) == 4 && ch.get (Reg.JNT_BIND_NODE j) == n && ch.slotOf j == leAt b 0 1 with
  | none => ch
  | some j => (ch.driveStatus j b).remSample j (wrapS 64 (leAt b 4 8)) 1 64 (leAt b 16 4)

/-- A CAPSULE record of another cell channel whose claim is accepted and whose node is compatible (R241, R251, R339). -/
def ChanState.capsuleTake (ch : ChanState) (n claim : Nat) (b : List Byte) : ChanState :=
  let c := leAt b 0 1 % 16
  let k := leAt b 0 1 / 16 % 8
  if b.length < 32 || !ch.claimOk n c claim || tbit (ch.get64 Reg.ZTK_INCOMP) n then ch else
  let ch := ch.noteClaim n c claim
  let ch := { ch with cb := { ch.cb with acting := Tab.set ch.cb.acting none c (some n) } }
  if c = ch.cch then ch else
  let r := Tab.get ch.sep.recs {} (c * 8 + k)
  { ch with sep := { ch.sep with recs := Tab.set ch.sep.recs {} (c * 8 + k) { r with body := b, got := true } } }

/-- A TOKEN record (R243, R251, R311): taken whatever its DST; consumed when processed. -/
def ChanState.tokenFrame (ch : ChanState) (n dst claim : Nat) (b : List Byte) : ChanState :=
  if b.length ≠ 16 then ch else
  let mine := dst == ch.node
  let ch := if mine then (ch.received n).giveBack n else ch
  let c := leAt b 2 1 % 16
  if tbit (ch.get64 Reg.ZTK_EXCL) n || !ch.claimOk n c claim then ch else (ch.noteClaim n c claim).tokenRecord b

/-- Whether a SAFETY record's claim is accepted: records of other nodes than controllers carry none (R339). -/
def ChanState.safetyClaim (ch : ChanState) (n claim : Nat) : Bool :=
  !ch.isController n || match Tab.get ch.cb.nodeCch none n with
    | some c => ch.claimOk n c claim
    | none => claim != 0

/-- One record of a frame accepted from node `n` (R300). -/
def ChanState.recordTake (ch : ChanState) (n claim : Nat) (r : Nat × Nat × List Byte) : ChanState :=
  let (ty, dst, b) := r
  if ty = 0 ∨ 0x0D < ty then ch.add Reg.CBUS_RXSKIP 1
  else if ty = 6 then ch.tokenFrame n dst claim b
  else if ty = 1 then (if ch.quiet && n == ch.get Reg.RED_CFG_PNODE then ch.keepEdge dst b else ch)
  else if dst ≠ ch.node ∧ dst ≠ 0xFF then ch
  else match ty with
    | 2 => ch.sampleTake n b
    | 4 => ch.dstatTake n b
    | 5 => ch.capsuleTake n claim b
    | 7 => if n = ch.get Reg.RED_CFG_PNODE then ch.checkpointChunk b else ch
    | 8 => if b.length < 32 then ch else ch.statusTake n b
    | 9 => if ch.safetyClaim n claim then ch.scxReceive false n b else ch
    | 0x0A =>
      if b.length < 9 ∨ dst = 0xFF then ch
      else (ch.received n).relayTake { node := n, tag := leAt b 4 4, data := b.drop 8 }
    | 0x0B =>
      if b.length = 4 ∧ leAt b 0 1 % 64 = ch.node ∧ leAt b 1 1 = ch.get Reg.CBUS_INTCNT % 256 then ch.hearIss n (leAt b 2 2) else ch
    | _ => ch

/-- An accepted exclusive frame of slot `s`: its SYNC, its claim, its records (R302, R315, R316, R349). -/
def ChanState.exclusiveTake (ch : ChanState) (n claim sfd exp : Nat) (s : Slot) (rs : List (Nat × Nat × List Byte)) : ChanState :=
  let k := ch.cycle
  let ref := s.sync && n == ch.get Reg.CBUS_STS_REFN
  let ch := { ch with cb := { ch.cb with
    got := (k * 256 + s.sidx, n) :: ch.cb.got.filter fun e => decide (k ≤ e.1 / 256 + 1)
    offs := if ref then ch.cb.offs ++ [(sfd : Int) - exp] else ch.cb.offs
    rows := if ref && ch.cb.refAt != some k then ch.cb.rows + 1 else ch.cb.rows
    refAt := if ref then some k else ch.cb.refAt
    coldAt := if ch.rankOf n ≠ 0 then some k else ch.cb.coldAt } }
  let ch := if s.sync && n == ch.get Reg.RED_CFG_PNODE then { ch with red := { ch.red with syncAt := some k } } else ch
  let ch := ch.partnerClaim n claim
  rs.foldl (fun ch r => ch.recordTake n claim r) ch

/-- An exclusive frame after check 3 (R302 checks 4 to 7). -/
def ChanState.exclusiveIn (ch : ChanState) (port sfd : Nat) (bs : List Byte) (rs : List (Nat × Nat × List Byte)) : ChanState :=
  let (ch, sfd) := (ch.heardRing).takeSync bs port sfd
  let n := leAt bs 1 1
  let id := leAt bs 8 2
  let k := sfd / 2 ^ 16 / 16000
  if leAt bs 6 2 ≠ k / 16 % 2 ^ 16 ∨ id / 256 % 16 ≠ k % 16 then ch.add Reg.CBUS_STALE 1
  else match ch.cb.slots.find? fun s => s.node == n && s.sidx == id % 256 && s.row == k % 16 && decide (id < 0x8000) with
    | none => ch.frameBad n
    | some s =>
      let exp := ch.expected k s port (leAt bs 12 4)
      let d : Int := (sfd : Int) - exp
      if d < -(128 * 2 ^ 16) then ch.incSat (Reg.CBUS_NSTAT_EARLY n)
      else if 128 * 2 ^ 16 < d then ch.incSat (Reg.CBUS_NSTAT_LATE n)
      else match ch.dupCheck n (leAt bs 4 2) with
        | 1 => ch.add Reg.CBUS_CULLET 1
        | 2 => ch.add Reg.CBUS_STALE 1
        | _ => ((ch.dupMark n (leAt bs 4 2)).add Reg.CBUS_RXOK 1).exclusiveTake n (leAt bs 10 1) sfd exp s rs

/-- An arbitrating frame after check 3. -/
def ChanState.arbitratingIn (ch : ChanState) (sfd : Nat) (bs : List Byte) (rs : List (Nat × Nat × List Byte)) : ChanState :=
  let ch := if ch.cbState = 3 then ch.heardRing else ch
  let n := leAt bs 1 1
  let m := sfd / 2 ^ 16 / 256000
  let l := leAt bs 6 2
  if l ≠ m % 2 ^ 16 ∧ l ≠ (m + 2 ^ 16 - 1) % 2 ^ 16 then ch.add Reg.CBUS_STALE 1
  else match ch.dupCheck n (leAt bs 4 2) with
    | 1 => ch.add Reg.CBUS_CULLET 1
    | 2 => ch.add Reg.CBUS_STALE 1
    | _ =>
      let ch := ((ch.dupMark n (leAt bs 4 2)).add Reg.CBUS_RXOK 1).partnerClaim n (leAt bs 10 1)
      rs.foldl (fun ch r => ch.recordTake n (leAt bs 10 1) r) ch

/-- A startup frame after check 3; its copies are told apart from the frames of the schedule. -/
def ChanState.startupIn (ch : ChanState) (port sfd : Nat) (bs : List Byte) (rs : List (Nat × Nat × List Byte)) : ChanState :=
  let key := 64 + leAt bs 1 1
  match ch.dupCheck key (leAt bs 4 2) with
  | 0 =>
    let ch := (ch.dupMark key (leAt bs 4 2)).add Reg.CBUS_RXOK 1
    match rs.find? fun r => r.1 == 0x0C && r.2.2.length == 12 with
    | some r => ch.startup port sfd (leAt bs 12 4) r.2.2
    | none => ch
  | 1 => ch.add Reg.CBUS_CULLET 1
  | _ => ch.add Reg.CBUS_STALE 1

/-! ### Link delays (R313) -/

/-- A hop-local frame of the channel on one port. -/
def ChanState.hopFrame (ch : ChanState) (port ftype : Nat) (recs : List (List Byte)) : ChanState :=
  { ch with sent := ch.sent ++ [Sent.hop port (ch.frameOf ftype 0 0 recs)] }

/-- A delay request is answered at once; the time between its SFDs is free. -/
def ChanState.delayAnswer (ch : ChanState) (port sfd node : Nat) : ChanState :=
  let (v, ch) := ch.draw
  let t3 := sfd + v % 2 ^ 26
  let time := fun t : Nat => leBytes 8 (t / 2 ^ 16) ++ leBytes 2 (t % 2 ^ 16) ++ leBytes 2 0
  ch.hopFrame port 5 [recordOf 0x0D node (time sfd ++ time t3)]

/-- The declared delay of the cable at a port: the own one at port 0, the previous node's at port 1 (R304). -/
def ChanState.declared (ch : ChanState) (port : Nat) : Nat :=
  let l := ch.cb.nodes
  match l.findIdx? fun e => e.id == ch.node with
  | none => 0
  | some i => match l[if port = 0 then i else (i + l.length - 1) % l.length]? with
    | some e => e.cdly
    | none => 0

/-- A delay response gives the link delay; how the measured ring delay is summed is not stated. -/
def ChanState.delayResult (ch : ChanState) (port sfd : Nat) (b : List Byte) : ChanState :=
  match Tab.get ch.cb.t1 none port with
  | none => ch
  | some t1 =>
    let ch := { ch with cb := { ch.cb with t1 := Tab.set ch.cb.t1 none port none } }
    let time := fun i => leAt b i 8 * 2 ^ 16 + leAt b (i + 8) 2
    let (v, ch) := ch.draw
    let d := divFree v (((sfd : Int) - t1) - ((time 12 : Int) - time 0)) 512
    let ch := ch.puti (if port = 0 then Reg.CBUS_PDLY0 else Reg.CBUS_PDLY1) d
    let (w, ch) := ch.draw
    let ch := ch.put Reg.CBUS_RDLY_MEAS w
    if 256 * 11 * (ch.declared port : Int) < 10 * d then ch.fault 0x0B09 1 none port 0 else ch

/-- The node asks both neighbours: at 15,360 ns of b = 15, or at any time before integration. -/
def ChanState.delayAsk (ch : ChanState) : ChanState :=
  if !ch.cbUp || ch.cbState == 0 then ch else
  let t := ch.matrix * 256000 + 255360
  let ch := if ch.cbState = 5 then ch.advanceTo (if ch.now ≤ t then t else t + 256000) else ch
  let ask := fun (ch : ChanState) p => ({ ch with cb := { ch.cb with t1 := Tab.set ch.cb.t1 none p (some ch.ct) } }).hopFrame p 4 []
  ask (ask ch 0) 1

/-! ### Frames -/

/-- A frame arrives at a port: `macOk` says that FCS, destination and Ethertype hold, `sfd` is cell time at its SFD in
2^-16 ns (R296, R302). -/
def ChanState.frameIn (ch : ChanState) (port : Nat) (macOk : Bool) (bs : List Byte) (sfd : Nat) : ChanState :=
  let ch := if ch.ct < sfd then ch.advanceTo ((sfd + 2 ^ 16 - 1) / 2 ^ 16) else ch
  let ch := ch.forward port macOk bs
  if !ch.cbUp then ch else
  let n := leAt bs 1 1
  if !macOk || leAt bs 0 1 % 16 != 1 || bs.length < 16 then ch.add Reg.CBUS_RXBAD 1
  else match ch.frameRecords bs with
    | none => ch.frameBad n
    | some rs =>
      if n = ch.node then ch.ownFrame port (leAt bs 4 2)
      else match leAt bs 2 1 with
        | 1 => ch.exclusiveIn port sfd bs rs
        | 2 => ch.arbitratingIn sfd bs rs
        | 3 => ch.startupIn port sfd bs rs
        | 4 => ch.delayAnswer port sfd n
        | _ => match rs.find? fun r => r.1 == 0x0D && r.2.2.length == 24 with
          | some r => ch.delayResult port sfd r.2.2
          | none => ch

end Sys2Proof.Machine
end

