-- ==== Sys2Proof/Machine/CellBus.lean ====
section
/-!
DEFINITION. The Cell Bus in time: cold start, the time discipline, windows, the ring check (R298, R307, R314 to R316), and
the commands of the family.
-/
namespace Sys2Proof.Machine

open Sys2Proof

/-! ### Start on the ring (R314) -/

/-- Listening has ended: a cold-start node prepares its startup frame, r times 2 µs later. -/
def ChanState.listenOver (ch : ChanState) : ChanState :=
  match ch.cb.listen with
  | none => ch
  | some t =>
    if ch.cbState ≠ 2 then ch else
    let ch := ch.advanceMono t
    let r := ch.rankOf ch.node
    if r = 0 then { ch with cb := { ch.cb with listen := none } }
    else ({ ch with cb := { ch.cb with listen := none, startDue := some (t + 2000 * r) } }).put Reg.CBUS_STS_STATE 3

/-- The startup frame goes out with the cell time of its SFD (R300). -/
def ChanState.sendStartup (ch : ChanState) : ChanState :=
  match ch.cb.startDue with
  | none => ch
  | some t =>
    if ch.cbState ≠ 3 then ch else
    let ch := ch.advanceMono t
    let body := leBytes 8 ch.now ++ leBytes 2 (ch.ct % 2 ^ 16) ++ leBytes 1 (ch.rankOf ch.node) ++ leBytes 1 0
    let ch := ch.emit (ch.frameOf 3 ch.ringHops 0 [recordOf 0x0C 0xFF body])
    { ch with cb := { ch.cb with startDue := none, startSent := some ch.mono } }

/-- No rival within 12 µs: the node leads and is the reference, from its next matrix-cycle boundary. -/
def ChanState.lead (ch : ChanState) : ChanState :=
  match ch.cb.startSent with
  | none => ch
  | some t =>
    if ch.cbState ≠ 3 then ch else
    let ch := ch.advanceMono (t + 12000)
    let ch := ch.integrate
    let ch := ((ch.put Reg.CBUS_STS_LEADER 1).put Reg.CBUS_STS_REF 1).put Reg.CBUS_STS_REFN ch.node
    { ch with cb := { ch.cb with startSent := none, acquired := true, leadFrom := ch.matrix + 1 } }

/-- An abandoned cold start is tried again. -/
def ChanState.coldRetry (ch : ChanState) : ChanState :=
  match ch.cb.retry with
  | none => ch
  | some t =>
    if ch.cbState ≠ 3 then ch else
    let ch := ch.advanceMono t
    { ch with cb := { ch.cb with retry := none, startDue := some ch.mono } }

/-! ### The time discipline (R310, R315, R316) -/

/-- The nearest whole number; which one at a tie is not stated. -/
def roundFree (k : Nat) (a : Int) (b : Nat) : Int :=
  if 2 * (a % b) = b then a / b + (Config.roundUp k).toNat else (2 * a + b) / (2 * b)

/-- Once per matrix cycle: consistency and integration, and the increment's correction by the change of offset `o` with the
steps removed. -/
def ChanState.matrixTime (ch : ChanState) (o : Option Int) : ChanState :=
  let good := ch.cb.rows == 16 && match o with | some o => decide (o.natAbs ≤ 32 * 2 ^ 16) | none => false
  let ch := { ch with cb := { ch.cb with rows := 0 } }
  let ch := if ch.cbState = 4 ∨ ch.cbState = 6 then
      let ch := ch.put Reg.CBUS_STS_CONS (if good then min (ch.get Reg.CBUS_STS_CONS + 1) 4 else 0)
      if ch.get Reg.CBUS_STS_CONS = 4 then ch.integrate else ch
    else ch
  match o with
  | none => { ch with cb := { ch.cb with oLast := none } }
  | some o =>
    let ch := match ch.cb.oLast with
      | none => ch
      | some p =>
        let (v, ch) := ch.draw
        let inc := (ch.get Reg.CBUS_INC_INC : Int) - roundFree v (o - p - ch.cb.steps) 64000
        ch.put Reg.CBUS_INC_INC (clampI inc (0x40000 - 26) (0x40000 + 26)).toNat
    { ch with cb := { ch.cb with oLast := some o, steps := 0 } }

/-- 15,520 ns of a row: the offset of the row, the mute decision, the step (R310, R315). -/
def ChanState.offsetStep (ch : ChanState) : ChanState :=
  let st := ch.cbState
  if !(st == 5 || ((st == 4 || st == 6) && ch.cb.acquired)) || ch.bit Reg.CBUS_STS_REF then ch else
  let ch := ch.advanceInCycle 15520
  let l := ch.cb.offs
  let ch := { ch with cb := { ch.cb with offs := [] } }
  let last := ch.bIdx == 15
  if l.isEmpty then (if last then ch.matrixTime none else ch) else
  let (v, ch) := ch.draw
  let o := divFree v l.sum l.length
  let (w, ch) := ch.draw
  let ch := ch.puti Reg.CBUS_OFS (divFree w o 256)
  if st = 5 ∧ 64 * 2 ^ 16 < o.natAbs ∧ ch.cb.refChg ≠ some ch.cycle then ch.mute else
  let ch := if last then ch.matrixTime (some o) else ch
  let d := -clampI o (-(8 * 2 ^ 16)) (8 * 2 ^ 16)
  let ch := (ch.stepCell d).tevStep 0
  { ch with cb := { ch.cb with steps := ch.cb.steps + d } }

/-- The cold-start nodes heard in the last matrix cycle, with the channel itself where it sends; the present reference is
not among them. -/
def ChanState.referees (ch : ChanState) : List CbNode :=
  ch.cb.nodes.filter fun n => n.rank != 0 && n.id != ch.get Reg.CBUS_STS_REFN &&
    ((n.id == ch.node && ch.transmits) || match ch.srcOf n.id with | some r => decide (ch.cycle ≤ r.last + 16) | none => false)

/-- The node of lowest rank. -/
def lowestRank : List CbNode → Option CbNode
  | [] => none
  | n :: l => match lowestRank l with
    | some m => if m.rank < n.rank then some m else some n
    | none => some n

/-- No SYNC of the reference in two basic cycles: the next one takes its place (R316). -/
def ChanState.refSilent (ch : ChanState) : ChanState :=
  match ch.cb.refAt with
  | none => ch
  | some k =>
    if ch.cbState < 4 ∨ ch.bit Reg.CBUS_STS_REF then ch else
    let ch := ch.advanceTo ((k + 3) * 16000)
    match lowestRank ch.referees with
    | none => ch
    | some n =>
      let ch := (ch.put Reg.CBUS_STS_REFN n.id).putb Reg.CBUS_STS_REF (n.id == ch.node)
      { ch with cb := { ch.cb with refAt := some ch.cycle, refChg := some ch.cycle, offs := [], oLast := none } }

/-- No cold-start node heard for 16 basic cycles: the node mutes and listens again (R316, R331). -/
def ChanState.refLost (ch : ChanState) : ChanState :=
  match ch.cb.coldAt with
  | none => ch
  | some k =>
    if ch.cbState < 4 ∨ ch.bit Reg.CBUS_STS_REF then ch else
    let ch := ch.advanceTo ((k + 17) * 16000)
    let ch := { ch with cb := { ch.cb with coldAt := none, refAt := none } }
    (((ch.mute).cbListen).tevCancel).fault 0x0B05 2 none 0 0

/-! ### Windows and the ring (R298, R301, R307) -/

/-- Whether node `n` is present: a STATUS record within the last matrix cycle (R301). -/
def ChanState.nodePresent (ch : ChanState) (n : Nat) : Bool :=
  match Tab.get ch.cb.statT none n with
  | some t => decide (ch.now ≤ t + 256000)
  | none => false

/-- The records of node `n` that have not come in this basic cycle are absent (R27, R154, R184). -/
def ChanState.absent (ch : ChanState) (n b : Nat) : ChanState :=
  forUpto 64 ch fun j ch =>
    if ch.get (Reg.JNT_BIND_NODE j) ≠ n then ch
    else if ch.get (Reg.JNT_BIND_KIND j) = 3 ∧ (ch.brick j).smpK ≠ some ch.cycle then ch.remFail j none
    else if ch.get (Reg.JNT_BIND_KIND j) = 4 ∧ b % 4 = 0 ∧ (ch.brick j).dstK ≠ some ch.cycle then (ch.driveAbsent j).remFail j none
    else ch

/-- The acceptance window of a slot of the present row closes (R307): a transmitting owner's slot without a frame is counted;
once the owner's last slot of the row has closed, its records are absent. -/
def ChanState.windowClose (ch : ChanState) (sidx : Nat) : ChanState :=
  let b := ch.bIdx
  match ch.cb.slots.find? fun s => s.row == b && s.sidx == sidx with
  | none => ch
  | some s =>
    let n := s.node
    if ch.cbState ≠ 5 ∨ n = ch.node ∨ ch.cb.got.contains (ch.cycle * 256 + sidx, n) then ch else
    let ch := if ch.nodePresent n && !tbit (ch.get (Reg.CBUS_NODEINF_SFLG n)) 0 then
        let key := (n * 16 + b) * 256 + sidx
        let ch := ch.incSat (Reg.CBUS_NSTAT_EMPTY n)
        { ch with cb := { ch.cb with ecnt := Tab.set ch.cb.ecnt 0 key (Tab.get ch.cb.ecnt 0 key + 1) } }
      else ch
    if ch.cb.slots.any fun x => x.row == b && x.node == n && decide (s.start < x.start) then ch else ch.absent n b

/-- The source records that have not run out (R301). -/
def ChanState.liveSrc (ch : ChanState) : Tab (Option Src) :=
  ch.cb.src.filter fun e => match e.2 with | some r => decide (ch.cycle ≤ r.last + 16) | none => false

/-- The counts of own frames returned are shown and start anew, with the source records that run out (R297, R301). -/
def ChanState.ringCount (ch : ChanState) : ChanState :=
  let ch := (ch.put Reg.CBUS_RET_RET0 ch.cb.ret0).put Reg.CBUS_RET_RET1 ch.cb.ret1
  { ch with cb := { ch.cb with ret0 := 0, ret1 := 0, src := ch.liveSrc } }

/-- What the counts of a matrix cycle say: the ring open, nodes absent (R297, R298). -/
def ChanState.ringJudge (r0 r1 : Nat) (ch : ChanState) : ChanState :=
  if ch.cbState ≠ 5 then ch else
  let ch := if !ch.transmits then ch
    else if r0 = 0 ∨ r1 = 0 then (ch.put Reg.CBUS_STS_RINGOPEN 1).fault 0x0B02 0 none 0 0
    else ch.put Reg.CBUS_STS_RINGOPEN 0
  ch.cb.nodes.foldl (fun ch n =>
    if n.id == ch.node || ch.nodePresent n.id then ch
    else (ch.put (Reg.CBUS_NODEINF_VALID n.id) 0).fault 0x0B0A 0 none n.id 0) ch

/-- The end of a matrix cycle: own frames returned, absent nodes, source records that run out (R297, R298, R301). -/
def ChanState.ringCheck (ch : ChanState) : ChanState :=
  let ch := ch.advanceTo ((ch.matrix + 1) * 256000)
  ChanState.ringJudge ch.cb.ret0 ch.cb.ret1 ch.ringCount

/-! ### Commands -/

/-- PORT_BLOCK_LOCK (R314). -/
def execPortBlockLock (c : Chan) (port : Fin 2) (s : State) : Host.Outcome State Fault Refusal := live s c fun ch => ch.portLock port.val

/-- PORT_LOCK_LOSS (R318). -/
def execPortLockLoss (c : Chan) (port : Fin 2) (s : State) : Host.Outcome State Fault Refusal := live s c fun ch => ch.portLoss port.val

/-- EXCLUSIVE_FRAME (R302). -/
def execExclusiveFrame (c : Chan) (port : Fin 2) (macOk : Bool) (bytes : List Byte) (sfd : Nat) (s : State) :
    Host.Outcome State Fault Refusal := live s c fun ch => ch.frameIn port.val macOk bytes sfd

/-- ARBITRATING_FRAME (R302, R311). -/
def execArbitratingFrame (c : Chan) (port : Fin 2) (macOk : Bool) (bytes : List Byte) (sfd : Nat) (s : State) :
    Host.Outcome State Fault Refusal := live s c fun ch => ch.frameIn port.val macOk bytes sfd

/-- STARTUP_FRAME (R314). -/
def execStartupFrame (c : Chan) (port : Fin 2) (macOk : Bool) (bytes : List Byte) (sfd : Nat) (s : State) :
    Host.Outcome State Fault Refusal := live s c fun ch => ch.frameIn port.val macOk bytes sfd

/-- DELAY_REQUEST (R313). -/
def execDelayRequest (c : Chan) (port : Fin 2) (macOk : Bool) (bytes : List Byte) (sfd : Nat) (s : State) :
    Host.Outcome State Fault Refusal := live s c fun ch => ch.frameIn port.val macOk bytes sfd

/-- DELAY_RESPONSE (R313). -/
def execDelayResponse (c : Chan) (port : Fin 2) (macOk : Bool) (bytes : List Byte) (sfd : Nat) (s : State) :
    Host.Outcome State Fault Refusal := live s c fun ch => ch.frameIn port.val macOk bytes sfd

/-- DELAY_MEASUREMENT_SEND (R313). -/
def execDelayMeasurementSend (c : Chan) (s : State) : Host.Outcome State Fault Refusal := live s c ChanState.delayAsk

/-- OWN_SLOT_START (R306). -/
def execOwnSlotStart (c : Chan) (sidx : Fin 256) (busy : Bool) (s : State) : Host.Outcome State Fault Refusal :=
  live s c fun ch => ch.ownSlot sidx.val busy

/-- OWN_FRAME_DEFERRED_SEND (R306). -/
def execOwnFrameDeferredSend (c : Chan) (ok : Bool) (s : State) : Host.Outcome State Fault Refusal := live s c fun ch => ch.deferredSend ok

/-- MINISLOT_START (R311). -/
def execMinislotStart (c : Chan) (m : Fin 34) (busy : Bool) (s : State) : Host.Outcome State Fault Refusal :=
  live s c fun ch => ch.minislot m.val busy

/-- ARBITRATING_DEFERRED_SEND (R311). -/
def execArbitratingDeferredSend (c : Chan) (s : State) : Host.Outcome State Fault Refusal := live s c ChanState.arbDeferred

/-- ACCEPTANCE_WINDOW_CLOSE (R307). -/
def execAcceptanceWindowClose (c : Chan) (sidx : Fin 256) (s : State) : Host.Outcome State Fault Refusal :=
  live s c fun ch => ch.windowClose sidx.val

/-- AUDIT_SNAPSHOT (R312). -/
def execAuditSnapshot (c : Chan) (s : State) : Host.Outcome State Fault Refusal := live s c ChanState.auditSnapshot

/-- OFFSET_STEP (R315). -/
def execOffsetStep (c : Chan) (s : State) : Host.Outcome State Fault Refusal := live s c ChanState.offsetStep

/-- REINT (R310): CBUS_CTL.REINT. -/
def execReint (c : Chan) (s : State) : Host.Outcome State Fault Refusal := live s c fun ch => (ch.hostW .pcie).reint

/-- CLRCNT (R307): CBUS_CTL.CLRCNT. -/
def execClrcnt (c : Chan) (s : State) : Host.Outcome State Fault Refusal := live s c fun ch => (ch.hostW .pcie).cbClear

/-- RING_OPEN_CHECK (R298). -/
def execRingOpenCheck (c : Chan) (s : State) : Host.Outcome State Fault Refusal := live s c ChanState.ringCheck

/-- LISTEN_END (R314). -/
def execListenEnd (c : Chan) (s : State) : Host.Outcome State Fault Refusal := live s c ChanState.listenOver

/-- STARTUP_SEND (R314). -/
def execStartupSend (c : Chan) (s : State) : Host.Outcome State Fault Refusal := live s c ChanState.sendStartup

/-- STARTUP_RIVAL_WAIT (R314). -/
def execStartupRivalWait (c : Chan) (s : State) : Host.Outcome State Fault Refusal := live s c ChanState.lead

/-- COLD_START_RETRY (R314). -/
def execColdStartRetry (c : Chan) (s : State) : Host.Outcome State Fault Refusal := live s c ChanState.coldRetry

/-- REFERENCE_SILENT (R316). -/
def execReferenceSilent (c : Chan) (s : State) : Host.Outcome State Fault Refusal := live s c ChanState.refSilent

/-- NO_REFERENCE (R316). -/
def execNoReference (c : Chan) (s : State) : Host.Outcome State Fault Refusal := live s c ChanState.refLost

/-- HOSTRELAY_SEND (R311): a write of CBUS_HRCTL. -/
def execHostrelaySend (c : Chan) (v : Word) (s : State) : Host.Outcome State Fault Refusal := live s c fun ch => (ch.hostW .pcie).hrSend v.toNat

/-- RXFULL_CLEAR (R311). -/
def execRxfullClear (c : Chan) (s : State) : Host.Outcome State Fault Refusal := live s c fun ch => (ch.hostW .pcie).rxClear

end Sys2Proof.Machine
end

