-- ==== Sys2Proof/Machine/Sha.lean ====
section
/-!
DEFINITION. SHA-256 (R380, R443), as FIPS 180-4 defines it.
-/
namespace Sys2Proof.Machine

open Sys2Proof

/-- The round constants: the first 32 fraction bits of the cube roots of the first 64 primes. -/
def shaK : List Nat := [
  0x428A2F98, 0x71374491, 0xB5C0FBCF, 0xE9B5DBA5, 0x3956C25B, 0x59F111F1,
  0x923F82A4, 0xAB1C5ED5, 0xD807AA98, 0x12835B01, 0x243185BE, 0x550C7DC3,
  0x72BE5D74, 0x80DEB1FE, 0x9BDC06A7, 0xC19BF174, 0xE49B69C1, 0xEFBE4786,
  0x0FC19DC6, 0x240CA1CC, 0x2DE92C6F, 0x4A7484AA, 0x5CB0A9DC, 0x76F988DA,
  0x983E5152, 0xA831C66D, 0xB00327C8, 0xBF597FC7, 0xC6E00BF3, 0xD5A79147,
  0x06CA6351, 0x14292967, 0x27B70A85, 0x2E1B2138, 0x4D2C6DFC, 0x53380D13,
  0x650A7354, 0x766A0ABB, 0x81C2C92E, 0x92722C85, 0xA2BFE8A1, 0xA81A664B,
  0xC24B8B70, 0xC76C51A3, 0xD192E819, 0xD6990624, 0xF40E3585, 0x106AA070,
  0x19A4C116, 0x1E376C08, 0x2748774C, 0x34B0BCB5, 0x391C0CB3, 0x4ED8AA4A,
  0x5B9CCA4F, 0x682E6FF3, 0x748F82EE, 0x78A5636F, 0x84C87814, 0x8CC70208,
  0x90BEFFFA, 0xA4506CEB, 0xBEF9A3F7, 0xC67178F2]

/-- The initial state: the first 32 fraction bits of the square roots of the first eight primes. -/
def shaInit : List Nat := [
  0x6A09E667, 0xBB67AE85, 0x3C6EF372, 0xA54FF53A, 0x510E527F, 0x9B05688C,
  0x1F83D9AB, 0x5BE0CD19]

/-- A 32-bit word rotated right by `n`. -/
def rotr (x n : Nat) : Nat := x / 2 ^ n + x * 2 ^ (32 - n) % 2 ^ 32

/-- XOR of three words. -/
def xor3 (a b c : Nat) : Nat := Nat.xor (Nat.xor a b) c

/-- One round over the state a to h with round constant and message word. -/
def shaRound (st : List Nat) (k w : Nat) : List Nat :=
  match st with
  | [a, b, c, d, e, f, g, h] =>
    let t1 := h + xor3 (rotr e 6) (rotr e 11) (rotr e 25) + Nat.xor (Nat.land e f) (Nat.land (0xFFFFFFFF - e) g) + k + w
    let t2 := xor3 (rotr a 2) (rotr a 13) (rotr a 22) + xor3 (Nat.land a b) (Nat.land a c) (Nat.land b c)
    [(t1 + t2) % 2 ^ 32, a, b, c, (d + t1) % 2 ^ 32, e, f, g]
  | _ => st

/-- The next message word from the last sixteen. -/
def shaNext (w : List Nat) : Nat :=
  let s0 := fun x => xor3 (rotr x 7) (rotr x 18) (x / 2 ^ 3)
  let s1 := fun x => xor3 (rotr x 17) (rotr x 19) (x / 2 ^ 10)
  (s1 (w.getD 14 0) + w.getD 9 0 + s0 (w.getD 1 0) + w.getD 0 0) % 2 ^ 32

/-- The rounds of a block, the message words kept as a window of sixteen. -/
def shaRounds : List Nat → List Nat → List Nat → List Nat
  | [], _, st => st
  | k :: ks, w, st => shaRounds ks (w.drop 1 ++ [shaNext w]) (shaRound st k (w.getD 0 0))

/-- A big-endian word of a block. -/
def beWord (bs : List Byte) : Nat := bs.foldl (fun v b => 256 * v + b.toNat) 0

/-- One block into the chaining state. -/
def shaBlock (st : List Nat) (bs : List Byte) : List Nat :=
  let w := (List.range 16).map fun i => beWord ((bs.drop (4 * i)).take 4)
  List.zipWith (fun a b => (a + b) % 2 ^ 32) st (shaRounds shaK w st)

/-- `n` blocks into the chaining state. -/
def shaBlocks : Nat → List Byte → List Nat → List Nat
  | 0, _, st => st
  | n + 1, bs, st => shaBlocks n (bs.drop 64) (shaBlock st (bs.take 64))

/-- `n` bytes of `v`, big-endian. -/
def beBytes (n v : Nat) : List Byte := (leBytes n v).reverse

/-- The SHA-256 digest of bytes. -/
def sha256 (bs : List Byte) : List Byte :=
  let n := bs.length
  let m := bs ++ [0x80] ++ List.replicate ((119 - n % 64) % 64) 0 ++ beBytes 8 (8 * n)
  (shaBlocks (m.length / 64) m shaInit).flatMap (beBytes 4)

end Sys2Proof.Machine
end

