-- ==== Sys2Proof/Machine/Image.lean ====
section
/-!
DEFINITION. The configuration image: header, validity, records and the checks of one record (R379 to R385, R388, R201, R218,
R222, R304).
-/
namespace Sys2Proof.Machine

open Sys2Proof

/-! ### The image (R379 to R381, R388) -/

/-- `n` bytes replaced at offset `i`. -/
def patch (bs : List Byte) (i : Nat) (v : List Byte) : List Byte := bs.take i ++ v ++ bs.drop (i + v.length)

/-- The SHA-256 an image must carry: its bytes with WCNT and SHA taken as 0 (R380). -/
def imageSha (bs : List Byte) : List Byte := sha256 (patch (patch bs 32 (leBytes 4 0)) 64 (leBytes 32 0))

def imgLen (bs : List Byte) : Nat := leAt bs 12 4
def imgSeq (bs : List Byte) : Nat := leAt bs 8 4

/-- Whether a slot's content is valid (R388). -/
def slotValid (bs : List Byte) : Bool :=
  leAt bs 0 4 == 0x49435645 && leAt bs 4 2 == 1 && leAt bs 6 2 == 128 && decide (128 ≤ imgLen bs) && decide (imgLen bs ≤ 4194304) &&
    imgLen bs % 4 == 0 && decide (imgLen bs ≤ bs.length) && imageSha (bs.take (imgLen bs)) == (bs.drop 64).take 32

/-- A record of an image: type and body. -/
structure ImgRec where
  ty : Nat
  body : List Byte
deriving DecidableEq, Repr

/-- A failed check: reason, low byte of the record's type, index of the record (CFG_REJ). -/
structure Reject where
  reason : Nat
  ty : Nat
  idx : Nat
deriving DecidableEq, Repr

/-- Cuts the records after the header, `n` at most, from index `i` on; the framing error that ends it, if any (R381). -/
def cutImage : Nat → Nat → List Byte → List ImgRec × Option Reject
  | 0, i, bs => ([], if bs.isEmpty then none else some ⟨1, leAt bs 0 1, i⟩)
  | n + 1, i, bs =>
    let ty := leAt bs 0 2
    let len := leAt bs 4 4
    if bs.length < 8 ∨ leAt bs 2 2 ≠ 0 ∨ len % 4 ≠ 0 ∨ bs.length < 8 + len then ([], some ⟨1, leAt bs 0 1, i⟩)
    else if ty = 0 ∨ 9 < ty then ([], some ⟨2, leAt bs 0 1, i⟩)
    else
      let (l, e) := cutImage n (i + 1) (bs.drop (8 + len))
      (⟨ty, (bs.drop 8).take len⟩ :: l, e)

/-- The records of an image. -/
def imageRecords (bs : List Byte) : List ImgRec × Option Reject := cutImage (leAt bs 36 4) 0 ((bs.take (imgLen bs)).drop 128)

/-! ### Register runs (R383) -/

/-- Cuts register runs into writes; none where a run is malformed. -/
def cutRuns : Nat → List Byte → Option (List (Nat × Nat))
  | 0, _ => none
  | n + 1, bs =>
    if bs.isEmpty then some [] else
    let blk := leAt bs 0 2
    let ofs := leAt bs 2 2
    let cnt := leAt bs 4 4
    if bs.length < 8 ∨ 31 < blk ∨ ofs % 4 ≠ 0 ∨ 0x1000 ≤ ofs ∨ cnt = 0 ∨ 1024 < cnt ∨ bs.length < 8 + 4 * cnt then none
    else match cutRuns n (bs.drop (8 + 4 * cnt)) with
      | none => none
      | some l => some ((List.range cnt).map (fun i => (blk * 4096 + ofs + 4 * i, leAt bs (8 + 4 * i) 4)) ++ l)

/-- The writes of a run body. -/
def runWrites (bs : List Byte) : List (Nat × Nat) := (cutRuns (bs.length + 1) bs).getD []

/-- The bits of a row a run may set. -/
def Row.runMask (r : Row) : Nat := Nat.lor r.rw r.rwl

/-- Whether a run may make a write: a writable register without a WO field, no other bit set, in its record's blocks. -/
def runOk (safety : Bool) (w : Nat × Nat) : Bool :=
  let blk := w.1 / 4096
  (decide (0x14 ≤ blk) && decide (blk ≤ 0x19)) == safety &&
    match rowAt w.1 with
    | some r => r.runMask != 0 && r.wo == 0 && Nat.land w.2 r.runMask == w.2
    | none => false

/-! ### Checks of one record -/

/-- The value of a binary32 word in units of 2^-149; none where it is not finite. -/
def f32 (w : Nat) : Option Int :=
  let e := w / 2 ^ 23 % 256
  let m := w % 2 ^ 23
  let n : Nat := if e = 0 then m else (m + 2 ^ 23) * 2 ^ (e - 1)
  let v : Int := n
  if e = 255 then none else some (if w / 2 ^ 31 % 2 = 1 then -v else v)

/-- Whether a vector of binary32 words has a norm within 1 ± 2^-16 (R201). -/
def unitNorm (ws : List Nat) : Bool :=
  let n := (ws.map fun w => match f32 w with | some v => v * v | none => 0).sum
  let one := fun (k : Int) => (k * 2 ^ 133) * (k * 2 ^ 133)
  decide (one (2 ^ 16 - 1) ≤ n) && decide (n ≤ one (2 ^ 16 + 1))

/-- Word `i` of a byte string. -/
def wordAt (bs : List Byte) (i : Nat) : Nat := leAt bs (4 * i) 4

/-- The checks of an arm model record that read nothing else (R200, R201). -/
def modelOk (b : List Byte) : Bool :=
  let m := b.drop 4
  let nj := leAt m 0 1
  let ws := fun i n => (List.range n).map fun k => wordAt m (i + k)
  let fin := fun w => (f32 w).isSome
  let nonneg := fun w => match f32 w with | some v => decide (0 ≤ v) | none => false
  decide (leAt b 0 1 < 8) && leAt b 1 3 == 0 && decide (1 ≤ nj) && decide (nj ≤ 10) && m.length == 80 + 96 * nj && leAt m 1 3 == 0 &&
    wordAt m 11 == 0 && (ws 1 10).all fin && unitNorm (ws 4 4) && (ws (12 + 24 * nj) 7).all fin && unitNorm (ws (15 + 24 * nj) 4) &&
    wordAt m (19 + 24 * nj) == 0 &&
    (List.range nj).all fun i =>
      let o := 12 + 24 * i
      decide (leAt m (4 * o) 4 < 2) && (ws (o + 1) 21).all fin && unitNorm (ws (o + 4) 4) && unitNorm (ws (o + 8) 3) &&
        nonneg (wordAt m (o + 12)) && (ws (o + 16) 3).all nonneg && wordAt m (o + 22) == 0 && wordAt m (o + 23) == 0

/-- The checks of a capsule record that read nothing else (R218). -/
def capsulesOk (b : List Byte) : Bool :=
  let n := leAt b 1 1
  decide (leAt b 0 1 < 8) && leAt b 2 2 == 0 && decide (1 ≤ n) && decide (n ≤ 16) && b.length == 4 + 32 * n &&
    (List.range n).all fun i => leAt b (4 + 32 * i + 1) 1 == 0

/-- A zone entry's vertices. -/
def zoneVerts (e : List Byte) : List (Int × Int) :=
  (List.range (leAt e 1 1)).map fun i => (wrapS 32 (leAt e (12 + 8 * i) 4), wrapS 32 (leAt e (16 + 8 * i) 4))

/-- A convex polygon, counter-clockwise: every other vertex lies to the left of every side (R222). -/
def convexCcw (vs : List (Int × Int)) : Bool :=
  let n := vs.length
  (List.range n).all fun i =>
    let a := vs.getD i (0, 0)
    let b := vs.getD ((i + 1) % n) (0, 0)
    (List.range n).all fun k =>
      let p := vs.getD k (0, 0)
      k == i || k == (i + 1) % n || decide (0 < (b.1 - a.1) * (p.2 - a.2) - (b.2 - a.2) * (p.1 - a.1))

/-- One zone entry (R222, R382). -/
def zoneOk (e : List Byte) : Bool :=
  let nv := leAt e 1 1
  decide (leAt e 0 1 < 64) && decide (3 ≤ nv) && decide (nv ≤ 8) && leAt e 2 2 == 0 && leAt e 76 4 == 0 &&
    decide (wrapS 32 (leAt e 4 4) < wrapS 32 (leAt e 8 4)) && ((e.drop (12 + 8 * nv)).take (64 - 8 * nv)).all (· == 0) &&
    convexCcw (zoneVerts e)

def zonesOk (b : List Byte) : Bool :=
  let n := leAt b 0 4
  let ent := fun i => (b.drop (4 + 80 * i)).take 80
  decide (1 ≤ n) && decide (n ≤ 64) && b.length == 4 + 80 * n && (List.range n).all (fun i => zoneOk (ent i)) &&
    ((List.range n).map fun i => leAt (ent i) 0 1).Nodup

/-- Where the parts of a schedule section begin: nodes, minislots, pairs, slots (R304). -/
def schedParts (b : List Byte) : Nat × Nat × Nat × Nat :=
  let nn := leAt b 0 1
  let np := leAt b 1 1
  (16, 16 + 8 * nn, 16 + 8 * nn + 36, 16 + 8 * nn + 36 + 4 * np)

def schedNodes (b : List Byte) : List CbNode :=
  let (o, _, _, _) := schedParts b
  (List.range (leAt b 0 1)).map fun i =>
    let e := b.drop (o + 8 * i)
    { id := leAt e 0 1, kind := leAt e 1 1, rank := leAt e 2 1, fwd := leAt e 3 1, cdly := leAt e 4 2 }

def schedMinis (b : List Byte) : List Nat := let (_, o, _, _) := schedParts b; (List.range 34).map fun i => leAt b (o + i) 1

/-- Credit pairs as sender, receiver, initial credits. -/
def schedPairs (b : List Byte) : List (Nat × Nat × Nat) :=
  let (_, _, o, _) := schedParts b
  (List.range (leAt b 1 1)).map fun i => (leAt b (o + 4 * i) 1, leAt b (o + 4 * i + 1) 1, leAt b (o + 4 * i + 2) 1)

def schedSlots (b : List Byte) : List Slot :=
  let (_, _, _, o) := schedParts b
  (List.range (leAt b 2 2)).map fun i =>
    let e := b.drop (o + 8 * i)
    { start := leAt e 0 2, len := leAt e 2 1, node := leAt e 3 1, row := leAt e 4 1, sidx := leAt e 5 1, flg := leAt e 6 1, tdst := leAt e 7 1 }

/-- The checks of a schedule section by itself: reserved bits, ranges, order (R304). -/
def schedOk (b : List Byte) : Bool :=
  let nodes := schedNodes b
  let (_, om, op, os) := schedParts b
  let listed := fun n => nodes.any fun e => e.id == n
  let cold := nodes.filter fun e => e.rank != 0
  let slots := schedSlots b
  decide (2 ≤ leAt b 0 1) && decide (leAt b 0 1 ≤ 48) && decide (1 ≤ leAt b 2 2) && decide (leAt b 2 2 ≤ 4096) && leAt b 4 12 == 0 &&
    b.length == os + 8 * slots.length && leAt b (om + 34) 2 == 0 &&
    (List.range nodes.length).all (fun i => leAt b (16 + 8 * i + 6) 2 == 0) &&
    (List.range (leAt b 1 1)).all (fun i => leAt b (op + 4 * i + 3) 1 == 0) &&
    (nodes.map (·.id)).Nodup &&
    nodes.all (fun e => decide (e.id < 48) && decide (1 ≤ e.kind) && decide (e.kind ≤ 6) && decide (e.rank ≤ 4) && decide (1 ≤ e.fwd) &&
      decide (e.fwd ≤ 120) && decide (1 ≤ e.cdly) && decide (e.cdly ≤ 600) && (e.rank == 0 || e.kind == 1)) &&
    decide (2 ≤ cold.length) && decide (cold.length ≤ 4) && (cold.map (·.rank)).Nodup &&
    (schedMinis b).all (fun n => n == 0xFF || listed n) &&
    (schedPairs b).all (fun p => listed p.1 && listed p.2.1 && decide (1 ≤ p.2.2) && decide (p.2.2 ≤ 15)) &&
    slots.all (fun s => decide (s.start ≤ 294) && decide (6 ≤ s.len) && listed s.node && decide (s.row < 16) && decide (s.flg < 8) &&
      (if s.timed then decide (s.tdst < 48) else s.tdst == 0)) &&
    (slots.map fun s => (s.row, s.sidx)).Nodup && (slots.zip (slots.drop 1)).all (fun p => decide (p.1.row < p.2.row) ||
      (p.1.row == p.2.row && decide (p.1.start ≤ p.2.start)))

/-- The reason for which a record fails a check of its own, 0 where it passes (R382 to R385). -/
def recordCheck (r : ImgRec) : Nat :=
  let b := r.body
  let size := fun ok : Bool => if ok then 0 else 5
  match r.ty with
  | 1 => match cutRuns (b.length + 1) b with
    | none => 5
    | some l => if l.all (runOk false) then 0 else 3
  | 2 => size (b.length == 8 + 16 * leAt b 4 4 && decide (leAt b 0 4 + leAt b 4 4 ≤ 65536))
  | 3 => size (decide (1 ≤ leAt b 0 2) && decide (leAt b 0 2 ≤ 2048) && leAt b 2 2 == 0 && b.length == 4 + 8 * leAt b 0 2)
  | 4 => size (schedOk b)
  | 5 => size (modelOk b)
  | 6 => size (capsulesOk b)
  | 7 => size (zonesOk b)
  | 8 =>
    if leAt b 0 4 ≠ crc32c (b.drop 4) then 4
    else match cutRuns (b.length + 1) (b.drop 4) with
      | none => 5
      | some l => if l.all (runOk true) then 0 else 3
  | _ => size (decide (1 ≤ leAt b 2 2) && decide (leAt b 2 2 ≤ 8192) && decide (leAt b 0 2 + leAt b 2 2 ≤ 0x2000) &&
      b.length == 4 + 4 * leAt b 2 2)

end Sys2Proof.Machine
end

