-- ==== Sys2Proof/Machine/Load.lean ====
section
/-!
DEFINITION. What each record of an image puts in force, and the values derived from them (R51, R84, R127, R200, R201, R218,
R304, R383 to R387).
-/
namespace Sys2Proof.Machine

open Sys2Proof

/-! ### Records in force -/

/-- A run's write of one register: its writable bits change, its other fields stay (R383). -/
def ChanState.runWrite (ch : ChanState) (w : Nat × Nat) : ChanState :=
  match rowAt w.1 with
  | some r =>
    let f : RF := ⟨w.1, r.rst, 0, 32⟩
    let old := (ch.word f).toNat
    ch.putWord f (BitVec.ofNat 32 (Nat.lor (old - Nat.land old r.runMask) (Nat.land w.2 r.runMask)))
  | none => ch

/-- The binary32 groups of a model record that are unit vectors: byte offset and words (R201). -/
def unitGroups (nj : Nat) : List (Nat × Nat) :=
  [(16, 4), (60 + 96 * nj, 4)] ++ (List.range nj).flatMap fun i => [(64 + 96 * i, 4), (80 + 96 * i, 3)]

/-- Normalises a group whose norm is not exactly 1: each component that is not 0 takes a free value (R201). -/
def ChanState.normGroup (ch : ChanState) (a n : Nat) : ChanState :=
  let word := fun i => leNat ((List.range 4).map fun b => Tab.get ch.smem 0 (a + 4 * i + b))
  let sq := ((List.range n).map fun i => match f32 (word i) with | some v => v * v | none => 0).sum
  if sq = (2 ^ 149 : Int) * 2 ^ 149 then ch else
  forUpto n ch fun i ch =>
    if word i % 2 ^ 31 = 0 then ch
    else ({ ch with smem := storeBytes ch.smem (a + 4 * i) (leBytes 4 (Config.free ch.fresh).toNat) }).nextFresh

/-- A model record into solver memory (R200, R201). -/
def ChanState.putModel (ch : ChanState) (b : List Byte) : ChanState :=
  let a := 0x800 * leAt b 0 1
  let ch := { ch with smem := storeBytes ch.smem a (b.drop 4) }
  (unitGroups (leAt b 4 1)).foldl (fun ch g => ch.normGroup (a + g.1) g.2) ch

/-- Release-table entries (R84). -/
def relEntries (b : List Byte) : List RelEnt :=
  (List.range (leAt b 0 2)).map fun i =>
    let e := b.drop (4 + 8 * i)
    { ofs := leAt e 0 2, b := leAt e 2 1, kind := leAt e 3 1, dl := leAt e 4 2, joint := leAt e 6 1, clim := leAt e 7 1 }

/-- A zone entry as a prism (R222). -/
def zoneOf (e : List Byte) : Zone := { verts := zoneVerts e, zlo := wrapS 32 (leAt e 4 4), zhi := wrapS 32 (leAt e 8 4) }

/-- The zone entries of a ZONES record by zone. -/
def zoneEntries (b : List Byte) : List (Nat × List Byte) :=
  (List.range (leAt b 0 4)).map fun i => let e := (b.drop (4 + 80 * i)).take 80; (leAt e 0 1, e)

/-- Puts a record in force (R382). -/
def ChanState.putRecord (ch : ChanState) (r : ImgRec) : ChanState :=
  let b := r.body
  match r.ty with
  | 1 => (runWrites b).foldl ChanState.runWrite ch
  | 2 => { ch with pool := storeBytes ch.pool (16 * leAt b 0 4) (b.drop 8) }
  | 3 => { ch with sch := { ch.sch with table := relEntries b } }
  | 4 => { ch with cb := { ch.cb with nodes := schedNodes b, minis := schedMinis b, slots := schedSlots b } }
  | 5 => ch.putModel b
  | 6 => { ch with sep := { ch.sep with caps := Tab.set ch.sep.caps [] (leAt b 0 1) (b.drop 4) } }
  | 7 => { ch with sep := { ch.sep with zones := (zoneEntries b).foldl (fun t z => Tab.set t none z.1 (some (zoneOf z.2))) ch.sep.zones } }
  | 8 => (runWrites (b.drop 4)).foldl ChanState.runWrite ch
  | _ =>
    let p := leAt b 0 2
    { ch with prog := forUpto (leAt b 2 2) ch.prog fun i t => Tab.set t 0xFFFFFFFF (p + i) (BitVec.ofNat 32 (wordAt b (i + 1))) }

/-- The credit pairs of the schedule that this node takes part in (R311). -/
def ChanState.ownPairs (ch : ChanState) (recs : List ImgRec) : List Pair :=
  recs.flatMap fun r => if r.ty ≠ 4 then [] else (schedPairs r.body).filterMap fun (s, d, cr) =>
    if s = ch.node then some { peer := d, recv := false, cr }
    else if d = ch.node then some { peer := s, recv := true, cr, now := { iss := cr } } else none

/-- Puts records in force with what is derived from them: joints per arm, capsules per arm, length of the table, the pairs of
this node, the ring budget (R84, R294, R386). -/
def ChanState.putRecords (ch : ChanState) (recs : List ImgRec) : ChanState :=
  let ch := recs.foldl ChanState.putRecord ch
  let ch := forUpto 8 ch fun k ch =>
    (ch.put (Reg.PRF_ACFG_NJ k) (ch.armJoints k).length).put (Reg.SSM_ACFG_NCAP k) ((Tab.get ch.sep.caps [] k).length / 32)
  let ch := { ch with cb := { ch.cb with pairs := ch.ownPairs recs } }
  (ch.put Reg.SCH_RTLEN_LEN ch.sch.table.length).put Reg.CBUS_RDLY_RDLY ch.cb.rdly

/-- The cell-section digest of the records applied (R387). -/
def ChanState.cellDigest (ch : ChanState) (recs : List ImgRec) : Nat :=
  let ents := (recs.filter fun r => r.ty == 7).flatMap fun r => zoneEntries r.body
  let zones := (List.range 64).flatMap fun z =>
    if !ch.bit (Reg.ZTK_ZCFG_EN z) then [] else
    let e := match ents.find? fun x => x.1 == z with | some x => x.2 | none => []
    e ++ leBytes 1 (ch.get (Reg.ZTK_ZCFG_TOKEN z)) ++ leBytes 1 (ch.get (Reg.ZTK_ZCFG_HOMECCH z)) ++
      leBytes 1 (ch.get (Reg.ZTK_ZCFG_HOMEARM z)) ++ leBytes 1 0
  crc32c (zones ++ (recs.filter fun r => r.ty == 4).flatMap (·.body))

end Sys2Proof.Machine
end

