-- ==== Sys2Proof/Machine/LoadCheck.lean ====
section
/-!
DEFINITION. The cross-record checks of the loader (R386 and the rules cited as the reaction of R17), and which records of an
image end up in force (R390).
-/
namespace Sys2Proof.Machine

open Sys2Proof

/-- A failed check: the registers, pool entries, program words and record types (with the arm of an arm's record) it reads. -/
structure Chk where
  regs : List Nat := []
  tys : List (Nat × Option Nat) := []
  ents : List Nat := []
  words : List Nat := []
deriving DecidableEq, Repr

/-- A condition over registers and record types. -/
def need (ok : Bool) (fs : List RF) (tys : List Nat := []) : List Chk :=
  if ok then [] else [{ regs := fs.map (·.ofs), tys := tys.map fun t => (t, none) }]

/-! ### Joints, arms, trajectory (R16 to R19, R53, R58, R62, R64, R101, R102) -/

/-- Whether two joints name one unit or one slot (R17). -/
def ChanState.sameUnit (ch : ChanState) (i j : Nat) : Bool :=
  let k := ch.get (Reg.JNT_BIND_KIND i)
  k == ch.get (Reg.JNT_BIND_KIND j) &&
    (if k == 1 || k == 2 then ch.get (Reg.JNT_BIND_UNIT i) == ch.get (Reg.JNT_BIND_UNIT j)
     else k == 3 && ch.get (Reg.JNT_BIND_NODE i) == ch.get (Reg.JNT_BIND_NODE j) &&
      ch.get (Reg.JNT_BIND_SLOT i) == ch.get (Reg.JNT_BIND_SLOT j))

def ChanState.checkJoint (ch : ChanState) (j : Nat) : List Chk :=
  let kind := ch.get (Reg.JNT_BIND_KIND j)
  let src := ch.get (Reg.JNT_FB_SRC j)
  need (sourceOk (ch.get (Reg.PRF_JCFG_MSRC j)) (ch.get (Reg.PRF_JCFG_MIDX j))) [Reg.PRF_JCFG j] ++
  need (ch.get (Reg.JNT_CFG_AFF j) != 3) [Reg.JNT_CFG j] ++
  need (ch.bit (Reg.JSP_RATIO_DEN j)) [Reg.JSP_RATIO j] ++ need (ch.bit (Reg.JSP_CFG_STCNT j)) [Reg.JSP_CFG j] ++
  if kind = 0 then [] else
  need (decide (kind ≤ 4) && !(kind == 2 && decide (8 ≤ ch.get (Reg.JNT_BIND_UNIT j)))) [Reg.JNT_BIND j] ++
  need ((src == 0 && decide (ch.get (Reg.JNT_FB_PORT j) < 24)) || (src == 1 && decide (3 ≤ kind)) || (src == 2 && kind == 2))
    [Reg.JNT_FB j, Reg.JNT_BIND j] ++
  (List.range j).flatMap (fun i => need (!ch.sameUnit i j) [Reg.JNT_BIND i, Reg.JNT_BIND j]) ++
  need (!(kind == 1 || kind == 3) || ch.bit (Reg.JNT_VLIM_VDCMIN j)) [Reg.JNT_VLIM j, Reg.JNT_BIND j]

def ChanState.checkArm (ch : ChanState) (recs : List ImgRec) (k : Nat) : List Chk :=
  let js := (List.range 64).filter fun j => ch.bound j && ch.armOf j == k
  let binds := js.map Reg.JNT_BIND
  let nj := js.length
  need (decide (nj ≤ 10) && js.all (fun j => decide (ch.get (Reg.JNT_BIND_ORD j) < nj)) &&
    (js.map fun j => ch.get (Reg.JNT_BIND_ORD j)).Nodup) binds ++
  need (ch.bit (Reg.PRF_OVRDEC k)) [Reg.PRF_OVRDEC k] ++ need (ch.bit (Reg.PRF_OVRJRK k)) [Reg.PRF_OVRJRK k] ++
  -- models and capsules (R201, R218, R386)
  (recs.filter fun r => (r.ty == 5 || r.ty == 6) && leAt r.body 0 1 == k).flatMap (fun r =>
    let own : List Chk := [{ regs := binds.map (·.ofs), tys := [(r.ty, some k)] }]
    if nj = 0 then own
    else if r.ty = 5 then (if leAt r.body 4 1 = nj then [] else own)
    else
      let cap := fun c n => leAt r.body (4 + 32 * c + n)
      let n := leAt r.body 1 1
      (if (List.range n).all fun c => decide (cap c 0 1 ≤ nj) then [] else own) ++
      (if ch.bit (Reg.SSM_ACFG_LEVEL k) || (List.range n).all fun c => cap c 2 2 == 0 then []
       else [{ regs := [(Reg.SSM_ACFG k).ofs], tys := [(6, some k)] }])) ++
  (let model := recs.any fun r => r.ty == 5 && leAt r.body 0 1 == k
   (if model || !js.any fun j => ch.get (Reg.JNT_CFG_AFF j) == 2 then []
    else [{ regs := binds.map (·.ofs) ++ js.map fun j => (Reg.JNT_CFG j).ofs, tys := [(5, some k)] }]) ++
   (if model || !ch.sch.table.any fun e => e.kind == 3 && e.joint == k then [] else [{ tys := [(3, none), (5, some k)] }])) ++
  -- separation (R220, R233)
  need (!ch.bit (Reg.SSM_ACFG_EN k) || ch.bit Reg.SSM_CFG_EN) [Reg.SSM_ACFG k, Reg.SSM_CFG] ++
  js.flatMap (fun j => need (!ch.bit (Reg.SSM_ACFG_EN k) || ch.bit (Reg.JSP_CFG_SRC j)) [Reg.SSM_ACFG k, Reg.JSP_CFG j, Reg.JNT_BIND j]) ++
  (let ovt := (List.range 8).map fun e => if e = 0 then
       (ch.get (Reg.SSM_OVT0_THR k), ch.get (Reg.SSM_OVT0_FACT k)) else (ch.get (Reg.SSM_OVTN_THR k (e - 1)), ch.get (Reg.SSM_OVTN_FACT k (e - 1)))
   need ((ovt.zip (ovt.drop 1)).all fun p => decide (p.2.1 ≤ p.1.1) && decide (p.2.2 ≤ p.1.2))
     (Reg.SSM_OVT0 k :: (List.range 7).map (Reg.SSM_OVTN k))) ++
  -- one category for the groups of an arm (R269)
  need (match js.map fun j => ch.get (Reg.SAF_STOCFG_CAT (ch.groupOf j)) with
    | [] => true
    | c :: cs => cs.all fun x => x == c) (binds ++ js.map (fun j => Reg.SAF_JGRP (j / 16)) ++ js.map fun j => Reg.SAF_STOCFG (ch.groupOf j))

/-- The pool regions in use with the registers that set them (R53, R58). -/
def ChanState.poolRegions (ch : ChanState) : List (Nat × Nat × List RF) :=
  let binds := fun k => ((List.range 64).filter fun j => ch.bound j && ch.armOf j == k).map Reg.JNT_BIND
  ((List.range 8).filterMap fun k =>
    let b := ch.get (Reg.PRF_RBASE_BASE k)
    let n := ch.get (Reg.PRF_RSIZE_SIZE k) * (ch.nj k + 1)
    if ch.nj k = 0 ∨ n = 0 then none else some (b, b + n, [Reg.PRF_RBASE k, Reg.PRF_RSIZE k] ++ binds k)) ++
  (List.range 32).filterMap fun t =>
    let b := ch.get (Reg.PRF_TBLB_BASE t)
    let k := ch.get (Reg.PRF_TBLL_ARM t)
    let n := ch.get (Reg.PRF_TBLL_LEN t) * (ch.nj k + 1)
    if n = 0 then none else some (b, b + n, [Reg.PRF_TBLB t, Reg.PRF_TBLL t] ++ binds k)

def ChanState.checkPool (ch : ChanState) : List Chk :=
  let rs := ch.poolRegions
  rs.flatMap (fun r => need (decide (r.2.1 ≤ 65536)) r.2.2) ++
  (List.range rs.length).flatMap (fun i => (List.range i).flatMap fun k =>
    match rs[i]?, rs[k]? with
    | some a, some b => need (decide (a.2.1 ≤ b.1) || decide (b.2.1 ≤ a.1)) (a.2.2 ++ b.2.2)
    | _, _ => []) ++
  (List.range 32).flatMap fun t =>
    let n := ch.get (Reg.PRF_TBLL_LEN t)
    let k := ch.get (Reg.PRF_TBLL_ARM t)
    let e := ch.get (Reg.PRF_TBLB_BASE t) + (n - 1) * (ch.nj k + 1)
    if n = 0 then []
    else if ch.nj k = 0 then need false [Reg.PRF_TBLL t]
    else if tbit (leNat (ch.poolBytes (16 * e + 2) 2)) 2 then []
    else [{ regs := [(Reg.PRF_TBLB t).ofs, (Reg.PRF_TBLL t).ofs] ++
              ((List.range 64).filter fun j => ch.bound j && ch.armOf j == k).map fun j => (Reg.JNT_BIND j).ofs
            ents := [e] }]

/-- Compare units, divided-pulse outputs, local units, ports, time events, engines (R64, R88, R132, R137, R156, R177, R178, R187,
R329, R331). -/
def ChanState.checkUnits (ch : ChanState) : List Chk :=
  (List.range 16).flatMap (fun n => need (sourceOk (ch.get (Reg.CMP_CFG_SRC n)) (ch.get (Reg.CMP_CFG_IDX n))) [Reg.CMP_CFG n]) ++
  (List.range 4).flatMap (fun m => need (sourceOk (ch.get (Reg.DPO_CFG_SRC m)) (ch.get (Reg.DPO_CFG_IDX m))) [Reg.DPO_CFG m] ++
    need (ch.bit (Reg.DPO_DEN m)) [Reg.DPO_DEN m]) ++
  (List.range 8).flatMap (fun n => need (!tbit (ch.get (Reg.LPE_CFG_CMASK n)) 2 && !tbit (ch.get (Reg.LPE_CFG_CMASK n)) 3) [Reg.LPE_CFG n] ++
    need (decide (ch.get (Reg.STP_CFG_MRES n) ≤ 8)) [Reg.STP_CFG n] ++
    need (decide (1000 ≤ ch.get (Reg.TIM_EVPER n)) && decide (ch.get (Reg.TIM_EVPER n) < 2 ^ 31)) [Reg.TIM_EVPER n] ++
    need (decide (ch.get (Reg.TIM_EVDLY n) < 2 ^ 31)) [Reg.TIM_EVDLY n]) ++
  (List.range 16).flatMap (fun e => need (ch.get (Reg.SCH_EVT_Q e) == 1 || ch.get (Reg.SCH_EVT_Q e) == 4) [Reg.SCH_EVT e] ++
    need (decide (ch.get (Reg.SCH_EVT_SRC e) < 0x3A)) [Reg.SCH_EVT e]) ++
  (List.range 16).flatMap fun u =>
    let per := ch.get (Reg.PWM_CFG_PER u)
    let loop := !ch.bit (Reg.PWM_CFG_MODE u)
    need (decide (per < 3) && decide (ch.get (Reg.PWM_PHOFS_OFS u) < 4000 * 2 ^ per)) [Reg.PWM_CFG u, Reg.PWM_PHOFS u] ++
    need (!loop || per != 2) [Reg.PWM_CFG u] ++
    match ch.unitJoint 1 u with
    | none => []
    | some j =>
      let crate := ch.get (Reg.JNT_CFG_CRATE j)
      need loop [Reg.PWM_CFG u, Reg.JNT_BIND j] ++
      need (!loop || per == crate) [Reg.PWM_CFG u, Reg.JNT_BIND j, Reg.JNT_CFG j] ++
      need (!loop || crate == 0 || !ch.sch.table.any fun e => e.kind == 1 && e.joint == j && e.b % 2 == 1)
        [Reg.PWM_CFG u, Reg.JNT_BIND j, Reg.JNT_CFG j] [3]

/-- Whether bit ranges (first, length) lie apart. -/
def apart : List (Nat × Nat) → Bool
  | [] => true
  | r :: rs => rs.all (fun q => decide (r.1 + r.2 ≤ q.1) || decide (q.1 + q.2 ≤ r.1)) && apart rs

def ChanState.checkPort (ch : ChanState) (p : Nat) : List Chk :=
  if ch.get (Reg.ENC_CFG_MODE p) = 3 then need false [Reg.ENC_CFG p] else
  if ch.get (Reg.ENC_CFG_MODE p) ≠ 2 then [] else
  let tclk := 4 * (ch.get (Reg.ENC_SCFG_DIV p) + 1)
  let wlen := ch.get (Reg.ENC_SLAY_WLEN p)
  let f := (wlen + if ch.bit (Reg.ENC_SCFG_STB p) then ch.get (Reg.ENC_STMO_WTMO p) else 0) * tclk + 4 * ch.get (Reg.ENC_SCFG_DLY p)
  let ivl := ch.get (Reg.ENC_SCFG_IVL p)
  let ivt := 4000 * 4 ^ ivl
  let lead := ch.get (Reg.ENC_LEAD_LEAD p)
  let regs := [Reg.ENC_CFG p, Reg.ENC_SCFG p, Reg.ENC_SLAY p, Reg.ENC_STMO p]
  let posl := ch.get (Reg.ENC_SLAY_POSL p)
  let crcw := ch.get (Reg.ENC_STMO_CRCW p)
  let fields := [(ch.get (Reg.ENC_SLAY_POSB p), posl)] ++
    (if ch.bit (Reg.ENC_SLAY_ERREN p) then [(ch.get (Reg.ENC_SLAY_ERRB p), 1)] else []) ++ if crcw = 0 then [] else [(wlen - crcw, crcw)]
  need (decide (f + 40 ≤ lead * 4)) (Reg.ENC_LEAD p :: regs) ++
  need (decide (f + 1000 * ch.get (Reg.ENC_STMO_MONO p) ≤ 4 * ivt)) regs ++
  need (decide (lead < ivt)) [Reg.ENC_LEAD p, Reg.ENC_CFG p, Reg.ENC_SCFG p] ++
  need (decide (8 ≤ wlen) && decide (wlen ≤ 48)) [Reg.ENC_CFG p, Reg.ENC_SLAY p] ++
  need (decide (8 ≤ posl) && decide (posl ≤ 40) && decide (crcw ≤ 16) && decide (crcw ≤ wlen) &&
    fields.all (fun x => decide (x.1 + x.2 ≤ wlen)) && apart fields) [Reg.ENC_CFG p, Reg.ENC_SLAY p, Reg.ENC_STMO p] ++
  ((List.range 64).filter fun j => ch.bound j && ch.get (Reg.JNT_FB_SRC j) == 0 && ch.get (Reg.JNT_FB_PORT j) == p).flatMap fun j =>
    let cur := ch.sch.table.any fun e => e.kind == 1 && e.joint == j
    need (if cur then ivl == 0 else decide (ivl ≤ 1)) [Reg.ENC_CFG p, Reg.ENC_SCFG p, Reg.JNT_BIND j, Reg.JNT_FB j] [3]

/-- Sources of the safety positions (R185). -/
def ChanState.checkJsp (ch : ChanState) (j : Nat) : List Chk :=
  let fbPort := fun i p => ch.bound i && ch.get (Reg.JNT_FB_SRC i) == 0 && ch.get (Reg.JNT_FB_PORT i) == p
  let idx := ch.get (Reg.JSP_CFG_IDX j)
  match ch.get (Reg.JSP_CFG_SRC j) with
  | 1 => need (decide (idx < 24)) [Reg.JSP_CFG j] ++
      (List.range 64).flatMap fun i => need (!fbPort i idx) [Reg.JSP_CFG j, Reg.JNT_BIND i, Reg.JNT_FB i]
  | 2 => need (!ch.bound j || ch.get (Reg.JNT_FB_SRC j) == 0) [Reg.JSP_CFG j, Reg.JNT_BIND j, Reg.JNT_FB j]
  | _ => []

/-! ### Release table and microcode (R85, R127, R128, R204) -/

/-- Whether two consecutive entries stand in order of (B, OFS). -/
def relOrder (l : List RelEnt) : Bool :=
  (l.zip (l.drop 1)).all fun p => decide (p.1.b < p.2.b) || (p.1.b == p.2.b && decide (p.1.ofs ≤ p.2.ofs))

/-- The tick at which the slot of a joint's edge or set-point record begins in a row (R85, R477). -/
def ChanState.recordTick (ch : ChanState) (b : Nat) (d : Due) : Option Nat :=
  (((ch.placed b).find? fun x => x.2.2.any (· == d))).map fun x => 8 * x.1.start

/-- The checks R85 makes of one entry. -/
def ChanState.checkEntry (ch : ChanState) (e : RelEnt) : List Chk :=
  let j := e.joint
  let kind := ch.get (Reg.JNT_BIND_KIND j)
  let chk := fun ok fs tys => need ok fs (3 :: tys)
  let bind := [Reg.JNT_BIND j]
  let slot := fun d => match ch.recordTick e.b d with | some t => decide (e.dl + 16 ≤ t) | none => true
  let slotRegs := bind ++ [Reg.CBUS_CFG] ++ (List.range 64).map Reg.JNT_BIND
  chk (decide (e.ofs < 4000) && decide (e.b < 16) && decide (1 ≤ e.kind) && decide (e.kind ≤ 4) && decide (e.ofs < e.dl) &&
    decide (e.dl < 16000) && decide (j < (if e.kind = 3 then 8 else 64)) && e.clim != 0) [] [] ++
  (if e.kind = 1 ∨ e.kind = 2 then chk (kind != 0 && !(e.kind == 1 && (kind == 2 || kind == 4))) bind [] else []) ++
  (if e.kind = 1 then
    let u := ch.get (Reg.JNT_BIND_UNIT j)
    let per := ch.get (Reg.PWM_CFG_PER u)
    let h := 2000 * 2 ^ per
    let ph := ch.get (Reg.PWM_PHOFS_OFS u)
    -- the release and the valley of the carrier period it falls in, both one period later
    let r := 4000 * e.b + e.ofs + 2 * h
    let v := r - (r - ph % (2 * h)) % (2 * h)
    chk (decide (e.clim ≤ 75)) [] [] ++
    (if kind = 1 then chk (decide (v + 600 * (1 + ch.get (Reg.PWM_CFG_SDOSR u)) ≤ r) && decide (4000 * e.b + e.dl + 2 * h + 16 ≤ v + h))
      (bind ++ [Reg.PWM_CFG u, Reg.PWM_PHOFS u]) []
     else if kind = 3 then chk (slot (.edge j)) slotRegs [4] else [])
   else if e.kind = 2 then
    chk (decide (400 ≤ e.ofs) && e.b % 4 == 0) [] [] ++
    (if kind = 1 ∨ kind = 3 then chk (decide (e.dl ≤ 4000)) bind []
     else if kind = 4 then chk (slot (.setpt j)) slotRegs [4] else [])
   else [])

/-- The cost of the model of an arm with `nj` joints (R211, R212). -/
def modelCost (nj : Nat) : Nat := 60 + 48 * nj + 4 * nj * nj

/-- The checks of the model entries (R204). -/
def ChanState.checkModels (ch : ChanState) : List Chk :=
  let es := ch.sch.table.filter fun e => e.kind == 3
  let cost := fun e : RelEnt => 8 * e.clim + 12
  need (es.all (fun e => e.b == 0 && decide (400 ≤ e.ofs)) && (es.zip (es.drop 1)).all (fun p => p.1.ofs == p.2.ofs) &&
    (es.map (·.joint)).Nodup) [] [3] ++
  (List.range es.length).flatMap fun i =>
    match es[i]? with
    | none => []
    | some e =>
      need (decide (modelCost (ch.nj e.joint) ≤ 8 * e.clim))
        (((List.range 64).filter fun j => ch.bound j && ch.armOf j == e.joint).map Reg.JNT_BIND) [3] ++
      need (decide (ch.get Reg.SLV_HCMAX_CMAX + ((es.take (i + 1)).map cost).sum ≤ 2 * (e.dl - e.ofs))) [Reg.SLV_HCMAX] [3]

/-- The cycle-budget check (R128). -/
def ChanState.checkBudget (ch : ChanState) : List Chk :=
  let en := (List.range 8).filter fun n => ch.bit (Reg.LPE_CFG_EN n)
  let mask := fun n b => tbit (ch.get (Reg.LPE_CFG_CMASK n)) b
  let eN := (en.filter fun n => mask n 0 && mask n 1).length
  let evt := (List.range 16).filter fun x => ch.bit (Reg.SCH_EVT_EN x)
  let ecost := fun x => 8 * ch.get (Reg.SCH_EVTT_CLIM x) + 12
  let cost := fun e : RelEnt => 8 * e.clim + 12
  let bg := (ch.sch.table.filter fun e => e.kind == 4).map cost ++ (evt.filter fun x => ch.get (Reg.SCH_EVT_Q x) == 4).map ecost
  let h := (en.filter fun n => mask n 4).length * bg.foldl max 0 + ((evt.filter fun x => ch.get (Reg.SCH_EVT_Q x) == 1).map ecost).sum
  let jobs := (ch.sch.table.filter fun e => e.kind == 1 || e.kind == 2).flatMap fun e =>
    let r := 4000 * e.b + e.ofs
    let d := 4000 * e.b + e.dl
    [(e, r, d, true), (e, r + 64000, d + 64000, false)]
  let fs := (List.range 8).map Reg.LPE_CFG ++ (List.range 16).map Reg.SCH_EVT ++ (List.range 16).map Reg.SCH_EVTT
  need (jobs.isEmpty || decide (1 ≤ eN)) fs [3] ++
  -- every job is judged once with both matrix cycles around it
  ch.sch.table.flatMap fun e =>
    if e.kind ≠ 1 ∧ e.kind ≠ 2 then [] else
    let c := cost e
    let judge := fun sh : Nat =>
      let r := 4000 * e.b + e.ofs + sh
      let d := 4000 * e.b + e.dl + sh
      let lap := jobs.filter fun x => decide (x.2.1 < d) && decide (r < x.2.2.1)
      let dsum := (lap.map fun x => cost x.1).sum
      let others := lap.filter fun x => x.1.joint == e.joint && !(x.2.1 == r && x.1 == e)
      let cs := (others.map fun x => cost x.1).foldl max 0
      decide (dsum + h + (eN - 1) * c + eN * cs ≤ 2 * eN * (d - r))
    need (decide (c ≤ 2 * (e.dl - e.ofs)) && judge 0 && judge 64000) fs [3]

/-- The words the image loads and the checks of R127; `loaded` gives the addresses of the UCODE records. -/
def ChanState.checkCode (ch : ChanState) (recs : List ImgRec) : List Chk :=
  let segs := (recs.filter fun r => r.ty == 9).map fun r => (leAt r.body 0 2, leAt r.body 2 2)
  let loaded := fun a => segs.any fun s => decide (s.1 ≤ a) && decide (a < s.1 + s.2)
  let addrs := segs.flatMap fun s => (List.range s.2).map fun i => s.1 + i
  let word := fun a => (Tab.get ch.prog 0xFFFFFFFF a).toNat
  let bodies := addrs.filterMap fun a =>
    let w := word a
    if w / 2 ^ 26 = 4 ∨ w / 2 ^ 26 = 5 then some (a, w % 1024) else none
  let bad := fun ws : List Nat => ([{ words := ws }] : List Chk)
  (if apart segs then [] else [{ tys := [(9, none)] }]) ++
  addrs.flatMap (fun a =>
    let w := word a
    let op := w / 2 ^ 26
    (if leLegal w then [] else bad [a]) ++ if (op = 1 ∨ op = 2) ∧ !loaded (w % 2 ^ 16) then bad [a] else []) ++
  bodies.flatMap (fun b => if (List.range b.2).all fun i => loaded (b.1 + 1 + i) then [] else bad [b.1]) ++
  bodies.flatMap (fun b => bodies.flatMap fun d =>
    let bl := b.1 + b.2
    let dl := d.1 + d.2
    if b.1 < d.1 ∧ d.1 + 1 ≤ bl ∧ bl < dl then bad [b.1, d.1] else []) ++
  (List.range 64).flatMap (fun j =>
    let uses := fun k => ch.sch.table.any fun e => e.kind == k && e.joint == j
    let user := ch.bound j && ch.bit (Reg.JNT_CFG_LEVEL j)
    need (!(user && uses 1) || loaded (ch.get (Reg.JNT_UENT_CUR j))) [Reg.JNT_UENT j, Reg.JNT_CFG j, Reg.JNT_BIND j] [3] ++
    need (!(user && uses 2) || loaded (ch.get (Reg.JNT_UENT_SRV j))) [Reg.JNT_UENT j, Reg.JNT_CFG j, Reg.JNT_BIND j] [3] ++
    need (!uses 4 || loaded (ch.get (Reg.JNT_UBG_BG j))) [Reg.JNT_UBG j] [3]) ++
  (List.range 16).flatMap fun e => need (!ch.bit (Reg.SCH_EVT_EN e) || loaded (ch.get (Reg.SCH_EVT_ENTRY e))) [Reg.SCH_EVT e]

def ChanState.checkTable (ch : ChanState) : List Chk :=
  let t := ch.sch.table
  need (relOrder t) [] [3] ++
  need ((List.range 16).all fun b => (List.range 5).all fun k => decide ((t.filter fun e => e.b == b && e.kind == k).length ≤ 128)) [] [3] ++
  t.flatMap ch.checkEntry ++ ch.checkModels ++ ch.checkBudget

/-! ### Safety (R185, R221, R261 to R271) -/

/-- A signal code that names a signal (R262). -/
def sigOk (c : Nat) : Bool := decide (c ≤ 0x13) || (decide (0x1E ≤ c) && decide (c ≤ 0x48)) || (decide (0x50 ≤ c) && decide (c ≤ 0x7F))

/-- The bits of a logic mask over four words that name reserved codes. -/
def maskResv : Nat := (2 ^ 0x1E - 2 ^ 0x14) + (2 ^ 0x50 - 2 ^ 0x49)

/-- The checks of function block `f` (R263). -/
def ChanState.checkFb (ch : ChanState) (f : Nat) : List Chk :=
  let ty := ch.get (Reg.SAF_FBCFG_TYPE f)
  let t0 := ch.get (Reg.SAF_FBTIM_T0 f)
  let t1 := ch.get (Reg.SAF_FBTIM_T1 f)
  let rst := ch.bit (Reg.SAF_FBCFG_RST f)
  let ins := [ch.get (Reg.SAF_FBIN_IN0 f), ch.get (Reg.SAF_FBIN_IN1 f), ch.get (Reg.SAF_FBIN_IN2 f), ch.get (Reg.SAF_FBIN_IN3 f)]
  let used := match ty with
    | 1 => ins.take 2
    | 2 => ins.take (if ch.bit (Reg.SAF_FBCFG_LOCKEN f) then 3 else 2)
    | 3 => ins
    | 4 => ins.take 2
    | _ => ins.take 1
  let rng := fun (v a b : Nat) => decide (a ≤ v) && decide (v ≤ b)
  let inOk := fun c : Nat => decide (c ≤ 0x13) || (ty != 4 && rng c 0x50 0x7F)
  let regs := [Reg.SAF_FBCFG f, Reg.SAF_FBTIM f]
  if ty = 0 then [] else
  need (match ty with
    | 1 => rng t0 10 500 && t1 == 0 && rst
    | 2 => rng t0 10 500 && t1 == 0
    | 3 => rng t0 1 500 && rng t1 10 500 && !rst
    | 4 => rng t0 1 100 && t1 == 0
    | 5 => rng t0 100 4000 && rng t1 t0 4000 && !rst
    | _ => false) regs ++
  need (used.all inOk) [Reg.SAF_FBCFG f, Reg.SAF_FBIN f] ++
  (if ty = 4 then used.flatMap fun i => if i < 20 then
      need (rng (ch.get (Reg.SAF_SIFLT_FLT i)) 25 200) [Reg.SAF_FBCFG f, Reg.SAF_FBIN f, Reg.SAF_SIFLT i] else []
   else []) ++
  need (!rst || ch.get (Reg.SAF_FBCFG_TYPE (ch.get (Reg.SAF_FBCFG_RFB f))) == 5)
    [Reg.SAF_FBCFG f, Reg.SAF_FBCFG (ch.get (Reg.SAF_FBCFG_RFB f))]

def ChanState.checkSafety (ch : ChanState) : List Chk :=
  let basic := !ch.bit Reg.SAF_CFG_LEVEL
  need (decide (ch.get Reg.SAF_TPCFG_WID * 10 ≤ ch.get Reg.SAF_TPCFG_PER * 250)) [Reg.SAF_TPCFG] ++
  (List.range 20).flatMap (fun i => need (!ch.bit (Reg.SAF_SIFLT_TP i) || decide (ch.get Reg.SAF_TPCFG_WID < ch.get (Reg.SAF_SIFLT_FLT i)))
    [Reg.SAF_TPCFG, Reg.SAF_SIFLT i]) ++
  (List.range 16).flatMap ch.checkFb ++
  (List.range 64).flatMap (fun t =>
    let words := fun (g : Nat → RF) => ch.get (g t)
    let pos := words Reg.SAF_LTPOS_0 + words Reg.SAF_LTPOS_1 * 2 ^ 32 + words Reg.SAF_LTPOS_2 * 2 ^ 64 + words Reg.SAF_LTPOS_3 * 2 ^ 96
    let neg := words Reg.SAF_LTNEG_0 + words Reg.SAF_LTNEG_1 * 2 ^ 32 + words Reg.SAF_LTNEG_2 * 2 ^ 64 + words Reg.SAF_LTNEG_3 * 2 ^ 96
    let regs := [Reg.SAF_LTPOS_0 t, Reg.SAF_LTPOS_1 t, Reg.SAF_LTPOS_2 t, Reg.SAF_LTPOS_3 t, Reg.SAF_LTNEG_0 t, Reg.SAF_LTNEG_1 t,
      Reg.SAF_LTNEG_2 t, Reg.SAF_LTNEG_3 t]
    need (Nat.land pos maskResv == 0 && Nat.land neg maskResv == 0) regs ++ need (!basic || (pos == 0 && neg == 0)) (Reg.SAF_CFG :: regs)) ++
  (List.range 4).flatMap (fun g =>
    need (sigOk (ch.get (Reg.SAF_STOCFG_SIG g))) [Reg.SAF_STOCFG g] ++
    need (!basic || !ch.bit (Reg.SAF_STOCFG_EN g) || ch.get (Reg.SAF_STOCFG_SIG g) == 0x1F) [Reg.SAF_CFG, Reg.SAF_STOCFG g]) ++
  (List.range 8).flatMap (fun p =>
    need (sigOk (ch.get (Reg.SAF_SOCFG_SIG p))) [Reg.SAF_SOCFG p] ++
    need (!basic || !ch.bit (Reg.SAF_SOCFG_EN p) || ch.get (Reg.SAF_SOCFG_SIG p) == 0x1F) [Reg.SAF_CFG, Reg.SAF_SOCFG p]) ++
  (List.range 64).flatMap (fun z =>
    let o := ch.get (Reg.ZTK_ZCFG_OCC z)
    need (o == 0xFF || sigOk o) [Reg.ZTK_ZCFG z] ++
    need (!basic || !(decide (0x30 ≤ o) && decide (o ≤ 0x3F))) [Reg.SAF_CFG, Reg.ZTK_ZCFG z]) ++
  (List.range 128).flatMap (fun i =>
    if ch.bit (Reg.SCX_CFG_EN i) ∧ ch.get (Reg.SCX_CFG_KIND i) = 2 then
      need ((List.range 16).all fun b => sigOk (ch.get (Reg.SCX_EXPV i (b / 4)) / 256 ^ (b % 4) % 256))
        (Reg.SCX_CFG i :: (List.range 4).map (Reg.SCX_EXPV i))
    else []) ++
  -- groups (R269)
  (List.range 64).flatMap (fun j =>
    let u := ch.get (Reg.JNT_BIND_UNIT j)
    match ch.get (Reg.JNT_BIND_KIND j) with
    | 1 => need (ch.groupOf j == u / 4) [Reg.JNT_BIND j, Reg.SAF_JGRP (j / 16)]
    | 2 => need (ch.groupOf j == ch.get (Reg.STP_CFG_GRP u)) [Reg.JNT_BIND j, Reg.SAF_JGRP (j / 16), Reg.STP_CFG u]
    | _ => []) ++
  -- torque-on connections (R271)
  (List.range 64).flatMap (fun j =>
    let n := ch.get (Reg.JNT_BIND_NODE j)
    if ch.get (Reg.JNT_BIND_KIND j) < 3 then [] else
    need ((List.range 128).any fun i => ch.bit (Reg.SCX_CFG_EN i) && ch.bit (Reg.SCX_CFG_DIR i) && ch.get (Reg.SCX_CFG_KIND i) == 1 &&
      ch.get (Reg.SCX_CFG_NODE i) == n && !ch.bit (Reg.SCX_CFG_PATH i) && ch.get (Reg.SCX_CFG_PER i) == 1)
      (Reg.JNT_BIND j :: (List.range 128).map Reg.SCX_CFG)) ++
  -- the reaction time (R229)
  need (decide (160000 + 1000 * ((List.range 8).map fun s => ch.get (Reg.SSM_VLAT_TSENS s)).foldl max 0 ≤ ch.get Reg.SSM_TR))
    (Reg.SSM_TR :: (List.range 8).map Reg.SSM_VLAT)

/-! ### The ring and the schedule (R294, R305, R337, R477) -/

def ChanState.checkSched (ch : ChanState) : List Chk :=
  let c := ch.cb
  let nn := c.nodes.length
  let stop := fun s : Slot => (s.start + s.len) * 32
  let nms := (c.minis.filter fun m => m != 0xFF).length
  let minis := c.minis.zip (List.range c.minis.length)
  let me := ch.node
  let redOk := (List.range 16).all fun b =>
    let own := c.slots.filter fun s => s.node == me && s.row == b
    own.any fun s => s.sync && s.timed && own.all fun x => decide (x.start ≤ s.start)
  let due := (List.range 16).all fun b =>
    let rows := ch.placed b
    (List.range 64).all fun n => (ch.dues b n).all fun d => rows.any fun r => r.2.2.any (· == d)
  let cfg := Reg.CBUS_CFG
  let dueRegs := cfg :: ((List.range 64).map Reg.JNT_BIND ++ (List.range 128).map Reg.SCX_CFG)
  need (!ch.bit Reg.RED_CFG_EN || redOk) [Reg.RED_CFG, cfg] [4] ++
  if c.nodes.isEmpty then [] else
  need (ch.isController me) [cfg] [4] ++
  need (decide (c.rdly ≤ 5760)) [] [4] ++
  need (match ch.cbNode me with | some n => decide (n.fwd ≤ 72) | none => true) [cfg] [4] ++
  need ((c.slots.zip (c.slots.drop 1)).all (fun p => p.1.row != p.2.row || decide (stop p.1 ≤ p.2.start * 32)) &&
    c.slots.all fun s => decide (stop s ≤ 9600)) [] [4] ++
  need (c.nodes.all fun n => n.rank == 0 || (List.range 16).all fun b => c.slots.any fun s => s.node == n.id && s.row == b && s.sync) [] [4] ++
  need (c.nodes.all fun n => (c.slots.filter fun s => s.node == n.id && s.status).length == 1) [] [4] ++
  need (c.slots.all fun s => !s.timed || decide (10 * (stop s + c.rdly) + 1024 * (nn - 1) ≤ 150400)) [] [4] ++
  need (minis.all fun m => m.1 == 0xFF || decide (10 * (9600 + 160 * m.2 + c.rdly) + 1024 * (nms + 1) ≤ 153600)) [] [4] ++
  -- the largest frame of an own slot, as placed
  need ((List.range 16).all fun b => (ch.placed b).all fun x => x.1.fits x.2.1) (Reg.RED_CFG :: dueRegs) [4] ++
  need due dueRegs [4] ++
  need (c.slots.all fun s => !s.timed || c.nodes.any fun n => n.id == s.tdst) [] [4]

/-- Every cross-record check that fails on the records applied (R386). -/
def ChanState.crossChecks (ch : ChanState) (recs : List ImgRec) : List Chk :=
  (List.range 64).flatMap ch.checkJoint ++ (List.range 8).flatMap (ch.checkArm recs) ++ ch.checkPool ++ ch.checkUnits ++
  (List.range 24).flatMap ch.checkPort ++ (List.range 64).flatMap ch.checkJsp ++ ch.checkTable ++ ch.checkCode recs ++
  ch.checkSafety ++ ch.checkSched

/-! ### Records in force (R382, R386, R390) -/

/-- Whether a record supplies register `o`. -/
def ImgRec.writes (r : ImgRec) (o : Nat) : Bool :=
  (r.ty == 1 && (runWrites r.body).any fun w => w.1 == o) || (r.ty == 8 && (runWrites (r.body.drop 4)).any fun w => w.1 == o)

/-- The records involved in a failed check: those of its types and those that supply what it reads (R390). -/
def Chk.involved (c : Chk) (recs : List (Nat × ImgRec)) : List Nat :=
  let latest := fun p : ImgRec → Bool => match (recs.filter fun r => p r.2).getLast? with | some r => [r.1] | none => []
  let covers := fun (r : ImgRec) (ty a : Nat) => r.ty == ty && (if ty = 2
    then decide (leAt r.body 0 4 ≤ a) && decide (a < leAt r.body 0 4 + leAt r.body 4 4)
    else decide (leAt r.body 0 2 ≤ a) && decide (a < leAt r.body 0 2 + leAt r.body 2 2))
  c.regs.flatMap (fun o => latest fun r => r.writes o) ++
  (recs.filter fun r => c.tys.any fun t => t.1 == r.2.ty && (t.2.isNone || t.2 == some (leAt r.2.body 0 1))).map (·.1) ++
  c.ents.flatMap (fun a => latest fun r => covers r 2 a) ++ c.words.flatMap fun a => latest fun r => covers r 9 a

/-- The types that may stand once, for an arm or for the image (R382). -/
def onceTypes : List (Nat × Option Nat) := [(3, none), (4, none), (7, none), (8, none)] ++
  (List.range 8).flatMap fun k => [(5, some k), (6, some k)]

/-- What a load leaves: the records in force and the first failed check (R390, CFG_REJ). -/
structure Loaded where
  recs : List ImgRec := []
  rej : Option Reject := none
deriving DecidableEq, Repr

/-- The earlier of two failed checks: the one of the record with the lower index. -/
def Reject.first (a : Option Reject) (b : Reject) : Option Reject :=
  match a with
  | none => some b
  | some x => if b.idx < x.idx then some b else some x

/-- Judges an image over a channel at its reset values (R381 to R387, R390). -/
def judgeImage (base : ChanState) (img : List Byte) : Loaded :=
  match imageRecords img with
  | (_, some e) => { rej := some e }
  | (all, none) =>
    let idx : List (Nat × ImgRec) := (List.range all.length).zip all
    let own := idx.filterMap fun r => let e := recordCheck r.2; if e = 0 then none else some (Reject.mk e r.2.ty r.1)
    let ok := idx.filter fun r => recordCheck r.2 == 0
    let ch := base.putRecords (ok.map (·.2))
    let counts := onceTypes.filterMap fun t =>
      let of := idx.filter fun r => r.2.ty == t.1 && (t.2.isNone || t.2 == some (leAt r.2.body 0 1))
      match of with
      | _ :: x :: _ => some (Reject.mk 6 t.1 x.1, of.map (·.1))
      | [] => if t.1 = 8 then some (Reject.mk 6 8 all.length, []) else none
      | [_] => none
    let digest := if ch.cellDigest (ok.map (·.2)) = leAt img 24 4 then []
      else
        let of := (ok.filter fun r => r.2.ty == 4 || r.2.ty == 7 || r.2.ty == 8)
        [(match of with | r :: _ => Reject.mk 7 r.2.ty r.1 | [] => Reject.mk 7 0 all.length, of.map (·.1))]
    let cross := (ch.crossChecks (ok.map (·.2))).map fun c =>
      let of := c.involved ok
      match (ok.filter fun r => of.any (· == r.1)) with
      | r :: _ => (Reject.mk 8 r.2.ty r.1, of)
      | [] => (Reject.mk 8 0 all.length, of)
    let bad := counts ++ digest ++ cross
    { recs := (ok.filter fun r => !bad.any fun b => b.2.any (· == r.1)).map (·.2)
      rej := (own ++ bad.map (·.1)).foldl Reject.first none }

end Sys2Proof.Machine
end

