-- ==== Sys2Proof/Machine/Reset.lean ====
section
/-!
DEFINITION. Reset levels and sources, the trim load, the clock root, block-alone resets and the fuse table (R400 to R417).
-/
namespace Sys2Proof.Machine

open Sys2Proof

/-! ### Levels (R404, R405) -/

/-- The registers a reset of level `lvl` keeps: identity; through L1 and L2 those of the RST and CLK blocks marked as kept,
LEHR_OTRIP and the host port's; through L1 the counts of the trace FIFO (R365, R371, R404, R427, R442). -/
def keptReg (lvl o : Nat) : Bool :=
  o == 0x0 || o == 0x10 || o == 0x14 ||
  (decide (lvl ≤ 2) && (o == 0x1004 || o == 0x101C || (decide (0x1020 ≤ o) && decide (o < 0x1040)) || o == 0x1108 || o == 0x1E830 ||
    decide (0x1F000 ≤ o))) ||
  (decide (lvl ≤ 1) && (o == 0x400C || o == 0x4010 || o == 0x4018 || o == 0x401C || o == 0x4020 || o == 0x4024 || o == 0x4028 ||
    (decide (0x4040 ≤ o) && decide (o < 0x4060))))

/-- The level codes in force: the burned table raised to the minimums, or the defaults (R406, R408). -/
def fuseTable (r : Rst) : Nat :=
  if !r.fuseProg || r.fuseBad then 0x00E6A98B
  else forUpto 16 0 fun e t =>
    let low := if e = 0 then 3 else if e = 1 ∨ e = 4 ∨ e = 9 then 1 else if e = 2 ∨ e = 3 ∨ 12 ≤ e then 0 else 2
    t + max low (if e = 0 then 3 else r.fuseTab.toNat / 4 ^ e % 4) * 4 ^ e

/-- What the fuses, the flash and the reset controller show in registers whatever the reset (R408, R413, R424, R444). -/
def ChanState.fusedShow (ch : ChanState) : ChanState :=
  ((((((((ch.put Reg.RST_FTAB (fuseTable ch.rst)).putb Reg.RST_FSTS_PROG ch.rst.fuseProg).putb Reg.RST_FSTS_BAD ch.rst.fuseBad).putb
    Reg.RST_STS_LMARK ch.lockMark).putb Reg.RST_STS_TRIMDONE (ch.rst.trim == .loaded)).put Reg.UPD_CURVER ch.nvm.curver).put
    Reg.UPD_FLOOR_STEPS ch.nvm.floor).put Reg.RED_DAGE_HRS ch.nvm.dage).put Reg.CLK_STS 0

/-- The channel after a reset of level `lvl`: every register and unit at its reset value but for what is kept; held in reset
(R371, R404, R405, R413). -/
def ChanState.resetTo (ch : ChanState) (lvl : Nat) (trim : Bool) : ChanState :=
  let warm := decide (lvl ≤ 1)
  ChanState.fusedShow {
    id := ch.id
    devid := ch.devid
    regs := ch.regs.filter fun r => keptReg lvl r.1
    mono := if warm then ch.mono else 0
    trc := if warm then { ch.trc with waiting := [], latchHi := 0 } else {}
    sent := ch.sent
    fresh := ch.fresh
    ring := ch.ring
    lockMark := ch.lockMark
    nvm := ch.nvm
    cfg := if warm then { image := ch.cfg.image, fwVer := ch.cfg.fwVer } else {}
    cps := if warm then ch.cps else []
    fn := if lvl ≤ 2 then ch.fn else {}
    rst := { held := true, trim := if trim then .loading else ch.rst.trim, trimFails := 0, clkWait := ch.rst.clkWait, level := lvl,
             src := ch.get Reg.RST_CAUSE_SRC, pinLow := ch.rst.pinLow, por := ch.rst.por, fuseTab := ch.rst.fuseTab,
             fuseProg := ch.rst.fuseProg, fuseBad := ch.rst.fuseBad } }

/-- A_FAULT_N: low in the trim hold, in LOCKOUT and in LOADER; high elsewhere once the load step has completed; at its pull-up,
high, before (R416). -/
def ChanState.faultN (ch : ChanState) : Bool :=
  !(ch.rst.trim == .held || (!ch.rst.held && (ch.get Reg.CHN_STATE_CODE == 7 || ch.get Reg.CHN_STATE_CODE == 0xB)))

/-! ### Sources (R406, R407, R414, R415) -/

/-- The level a source is taken at; the table is not in force during the hold after three failed trim loads (R406, R415). -/
def ChanState.sourceLevel (ch : ChanState) (q : Nat) : Nat :=
  if q = 15 then 3
  else if ch.rst.trim = .held then (if q = 1 then 2 else if q = 0 ∨ q = 11 then 3 else 0)
  else fuseTable ch.rst / 4 ^ q % 4

/-- Counts a source in RST_CNTq (R407); an L3 of the other channel is no entry. -/
def ChanState.countSource (ch : ChanState) (q : Nat) : ChanState :=
  if q = 15 then ch else ch.add (if q % 2 = 0 then Reg.RST_CNT_LO (q / 2) else Reg.RST_CNT_HI (q / 2)) 1

/-- Takes source `q` (R404, R407, R414): a source of no reset is only counted; during a trim load the load starts again with its
count of failures; an L1 during a start restarts that start from its step 2. -/
def ChanState.takeSource (ch : ChanState) (q : Nat) : ChanState :=
  let lvl := ch.sourceLevel q
  if lvl = 0 then ch.countSource q else
  let during := ch.get Reg.CHN_STATE_CODE == 1
  let old := ch.rst
  let keep := during && lvl == 1 && old.level != 1
  let ch := ch.resetTo lvl (decide (lvl = 3) || (q == 1 && decide (lvl = 2)) || old.trim == .loading)
  let ch := (ch.countSource q).put Reg.RST_CAUSE_LVL lvl
  let ch := ch.put Reg.RST_CAUSE_SRC q
  { ch with rst := { ch.rst with
      trimFails := if old.trim = .loading then old.trimFails else 0
      level := if keep then old.level else lvl
      src := if keep then old.src else q
      why := if during && lvl == 1 then old.why else 0
      clkWait := old.clkWait || q == 6 || q == 7 } }

/-- An internal request for L2 by RESTART or the end of an update (R29, R406): no source is counted or named. -/
def ChanState.internalReset (ch : ChanState) (why : Nat) : ChanState :=
  let ch := ch.resetTo 2 false
  { ch with rst := { ch.rst with why, src := 0 } }

/-- The L1 of a yielding unit (R348, R406): it bypasses the table. -/
def ChanState.yieldReset (ch : ChanState) : ChanState :=
  let ch := ch.resetTo 1 false
  { ch with rst := { ch.rst with src := 0 } }

/-- The other channel. -/
def other : Chan → Chan
  | .A => .B
  | .B => .A

/-- Takes a source in a channel; one taken at L3 reaches the other channel as source 0xF and resets the host port
(R404, R406). -/
def State.source (s : State) (c : Chan) (q : Nat) : State :=
  let l3 := s.present c && (s.chan c).sourceLevel q == 3
  let s := s.onChan c fun ch => ch.takeSource q
  if l3 then
    let s := s.onChan (other c) fun ch => ch.takeSource 15
    { s with dev := { s.dev with spiSel := none, spiErr := false, spiUe := false, spiData := [] } }
  else s

/-! ### Clocks (R402, R403) -/

/-- Ends the wait of a clock source's reset: the reference in tolerance for 1 ms and the PLL locked (R402). -/
def ChanState.clockBack (ch : ChanState) : ChanState := { ch with rst := { ch.rst with clkWait := false } }

/-- Whether the channel may start: in reset with its trim loaded and nothing that holds it (R402, R403, R406, R409, R413). -/
def ChanState.canStart (ch : ChanState) : Bool :=
  ch.rst.held && ch.rst.trim == .loaded && !ch.rst.clkWait && !ch.rst.pinLow && !ch.rst.por

/-! ### Trim load (R413 to R415) -/

/-- The end of a trim load: reads that agree with a good CRC load it; three failures in a row hold the channel. The fuse table
is read with it, and not used where its own CRC fails (R408). -/
def ChanState.trimDone (ch : ChanState) (agree crcOk tabOk : Bool) : ChanState :=
  if ch.rst.trim ≠ .loading ∨ ch.rst.por then ch
  else if agree && crcOk then
    ChanState.fusedShow { ch with rst := { ch.rst with trim := .loaded, trimFails := 0, trimNew := true, fuseBad := ch.rst.fuseProg && !tabOk } }
  else if ch.rst.trimFails < 2 then { ch with rst := { ch.rst with trimFails := ch.rst.trimFails + 1 } }
  else { ch with rst := { ch.rst with trimFails := 3, trim := .held } }

/-! ### Block-alone reset (R410 to R412) -/

/-- The blocks L0 is available for (R411). -/
def l0Block (b : Nat) : Bool := (decide (1 ≤ b) && decide (b ≤ 4)) || (decide (8 ≤ b) && decide (b ≤ 15))

/-- The bit of CLK_STS.STABLE of a block's clock (R400, R403). -/
def blockDomain (b : Nat) : Nat := if b = 1 then 3 else if b = 2 then 4 else if b = 3 then 1 else if b = 4 then 5 else 0

end Sys2Proof.Machine
end

