-- ==== Sys2Proof/Machine/Start.lean ====
section
/-!
DEFINITION. The start of a channel: firmware and slot choice, the load step, positions, the local checkpoint, the end of BOOT
(R29, R36, R388 to R390, R418 to R424).
-/
namespace Sys2Proof.Machine

open Sys2Proof

/-! ### Firmware and slots (R388, R389, R443, R444) -/

/-- The header fields of a firmware image (R443, R444): 0 where they stand, else the reason of UPD_STS.RES. -/
def fwHeaderCheck (step : Nat) (h : List Byte) : Nat :=
  if h.length < 256 ∨ leAt h 0 4 ≠ 0x57464645 ∨ leAt h 4 2 ≠ 1 ∨ leAt h 6 2 ≠ 256 ∨ leAt h 12 4 % 4 ≠ 0 ∨ leAt h 12 4 < 256 ∨
    8388608 < leAt h 12 4 ∨ 64 < leAt h 16 1 ∨ 1 < leAt h 17 1 ∨ ((h.drop 19).take 13).any (· != 0) ∨
    ((h.drop 128).take 128).any (· != 0) then 5
  else if leAt h 18 1 ≠ step then 0xE else 0

/-- The SHA-256 of a firmware image with bytes 32 to 127 taken as 0 (R443). -/
def fwSha (bs : List Byte) : List Byte := sha256 (patch bs 32 (List.replicate 96 0))

/-- The firmware image in flash. -/
def Nvm.fw (n : Nvm) : List Byte := n.fwHead ++ n.fwBody

/-- Whether the installed firmware passes its checks at a start: header, stepping, length and digest (R29, R420, R444). -/
def ChanState.fwValid (ch : ChanState) : Bool :=
  let bs := ch.nvm.fw
  let len := leAt bs 12 4
  fwHeaderCheck (ch.get Reg.CHN_ID_STEP) bs == 0 && decide (len ≤ bs.length) && fwSha (bs.take len) == (bs.drop 32).take 32

/-- The content of a configuration slot. -/
def ChanState.slot (ch : ChanState) (n : Nat) : List Byte := Tab.get ch.nvm.slots [] n

/-- The fields of a slot's header as they are shown, and its write count (R391, R392). -/
def ChanState.slotShow (ch : ChanState) (n : Nat) : ChanState :=
  let bs := ch.slot n
  let w := Tab.get ch.nvm.wear 0 n
  let ch := (ch.put (Reg.CFG_SLOT_WCNT_WCNT n) w).putb (Reg.CFG_SLOT_WCNT_WEAR n) (decide (100000 < w))
  if !slotValid bs then ch else
  ((((ch.put (Reg.CFG_SLOT_SEQ n) (imgSeq bs)).put64 (Reg.CFG_SLOT_BIND n) (leAt bs 16 8)).put (Reg.CFG_SLOT_CDIG n) (leAt bs 24 4)).put
    (Reg.CFG_SLOT_INFO_EPOCH n) (leAt bs 28 2)).put (Reg.CFG_SLOT_INFO_CHAN n) (leAt bs 30 1)

/-- Which slot is chosen; none where neither is valid (R389). -/
def ChanState.chooseSlot (ch : ChanState) : Option Nat :=
  match slotValid (ch.slot 0), slotValid (ch.slot 1) with
  | true, true => if 0 < wrapS 32 ((imgSeq (ch.slot 1) : Int) - imgSeq (ch.slot 0)) then some 1 else some 0
  | true, false => some 0
  | false, true => some 1
  | false, false => none

/-- The flash start: its identity, its read mode, and the F1 of a flash without the features of R376 (R376, R418). -/
def ChanState.flashStart (ch : ChanState) : ChanState :=
  let ch := ((ch.put Reg.NVM_JEDEC_ID ch.nvm.jedec).put Reg.NVM_SIZE_MB ch.nvm.sizeMB).put Reg.NVM_MODE_RD ch.nvm.sfdp
  let ch := if ch.nvm.sfdp = 0 then ch.fault 0x0205 1 none 0xFFFF 0 else ch
  ch.putb Reg.UPD_STS_RESUMABLE ch.nvm.prog.isSome

/-! ### The load step (R26, R127, R170, R220, R386) -/

/-- The entry pointer at the first release not yet past (R86). -/
def ChanState.ptrSync (ch : ChanState) : ChanState :=
  let m0 := ch.cycle / 16 * 16
  match (List.range ch.sch.table.length).find? fun i => match ch.sch.table[i]? with
    | some e => decide (ch.now ≤ (m0 + e.b) * 16000 + 4 * e.ofs)
    | none => false with
  | some i => { ch with sch := { ch.sch with ptr := i, cyc := m0 } }
  | none => { ch with sch := { ch.sch with ptr := 0, cyc := m0 + 16 } }

/-- The arms that have a joint which is not protected (R336). -/
def ChanState.unprotected (ch : ChanState) : Nat :=
  (List.range 8).foldl (fun m k =>
    if (List.range 64).any fun j => ch.bound j && ch.armOf j == k &&
        !(decide (3 ≤ ch.get (Reg.JNT_BIND_KIND j)) && ch.get (Reg.JNT_FB_SRC j) == 1 &&
          (ch.get (Reg.JSP_CFG_SRC j) == 0 || ch.get (Reg.JSP_CFG_SRC j) == 3))
    then m + 2 ^ k else m) 0

/-- What the load step sets going once registers and tables are in force: periods, profile parameters, ports referenced at once,
engines at ASK, restart interlocks, the pair (R50, R95, R139, R171, R187, R267, R335, R336). -/
def ChanState.loadEffects (ch : ChanState) : ChanState :=
  let ch := { ch with loaded := true, saf := { ch.saf with tickMono := ch.mono } }
  let ch := forUpto 64 ch fun j ch => if ch.bound j then ch.paramsLoad j else ch
  let ch := forUpto 16 ch fun u ch => ch.put (Reg.PWM_STS_PERA u) (ch.get (Reg.PWM_CFG_PER u))
  let ch := forUpto 24 ch fun p ch =>
    if ch.get (Reg.ENC_CFG_MODE p) = 1 ∧ !ch.bit (Reg.ENC_CFG_REFM p) then (ch.put (Reg.ENC_STS_REF p) 1).put (Reg.ENC_STS_VALID p) 1 else ch
  let ch := forUpto 8 ch fun n ch => ch.engineIdle n
  let ch := forUpto 16 ch fun f ch => ch.put (Reg.SAF_FBSTS_WAITRST f) (ch.get (Reg.SAF_FBCFG_RST f))
  let ch := forUpto 4 ch fun m ch => if ch.bit (Reg.DPO_CFG_EN m) then ch.dpoRestart m else ch
  let ch := ch.put Reg.RED_UNPROT_ARMS ch.unprotected
  if ch.bit Reg.RED_CFG_EN && ch.get64 Reg.RED_PDEV == ch.devid.toNat then
    (ch.put Reg.RED_STS_SAMEPKG 1).fault 0x0D0A 0 none 0xFFFF 0
  else ch

/-- The header values of the image in force (CFG_ISEQ, CFG_CDIG, CFG_EPOCH). -/
def ChanState.imageShow (ch : ChanState) (img : List Byte) : ChanState :=
  ((ch.put Reg.CFG_ISEQ (imgSeq img)).put Reg.CFG_CDIG (leAt img 24 4)).put Reg.CFG_EPOCH_EPOCH (leAt img 28 2)

/-! ### The end of a start (R29, R416, R424, R437) -/

/-- The end of a start in state `code` for `cause`: F0 0x0101 for the reset, the lockout marker, the over-temperature trip (R29,
R424, R426, R437). -/
def ChanState.endStart (ch : ChanState) (code cause : Nat) : ChanState :=
  let ch := { ch with loaded := ch.loaded || code == 2
                      rst := { ch.rst with starting := false, acquiring := false }
                      cfg := { ch.cfg with refused := code == 2 } }
  let ch := (ch.goState code cause).redShow.ptrSync
  let ch := if ch.rst.why = 0 then ch.fault 0x0101 0 none ch.rst.src 0 else ch
  let ch := ch.putb Reg.RST_STS_LMARK ch.lockMark
  let ch := if ch.lockMark then ch.fault 0x0107 3 none 0xFFFF 0 else ch
  if ch.bit Reg.LEHR_OTRIP_TRIP then (ch.put Reg.LEHR_OTRIP_TRIP 0).fault 0x0E03 3 none 0xFFFF 0 else ch

/-- Whether every bound joint's position is valid (R30, R423). -/
def ChanState.positionsValid (ch : ChanState) : Bool := (List.range 64).all fun j => !ch.bound j || (ch.feedback j).2

/-- Whether every serial port and remote joint in use has its first valid value (R423). -/
def ChanState.acquired (ch : ChanState) : Bool :=
  (List.range 24).all (fun p => ch.get (Reg.ENC_CFG_MODE p) != 2 || (ch.encU p).acq) &&
  (List.range 64).all fun j => !ch.bound j || ch.get (Reg.JNT_FB_SRC j) != 1 || (ch.remU j).acq

/-- The state a start that finds no fault in its image ends in (R29). -/
def ChanState.startEnd (ch : ChanState) (warm : Bool) : Nat :=
  if !ch.bit Reg.RED_CFG_EN then 3 else if ch.bit Reg.RED_CFG_ROLE then 9 else if warm then 0xA else 3

/-- START_COMPLETE: BOOT passes to the state R29 gives once positions are acquired or their time has run out (R420, R423). -/
def ChanState.finishStart (ch : ChanState) : ChanState :=
  if !ch.rst.starting || ch.get Reg.CHN_STATE_CODE != 1 || (ch.rst.acquiring && !ch.acquired) then ch else
  ch.endStart ch.rst.endIn (if ch.rst.endIn = 2 then (if ch.get Reg.CFG_STS_RES = 5 then 3 else 4) else 2)

/-! ### Cold start (R420) -/

/-- Leaves reset with its clocks stable: the kind of start, a new confirmation code (R396, R403, R427). -/
def ChanState.leaveReset (ch : ChanState) (kind fall : Nat) : ChanState :=
  let bcode := (Config.free ch.fresh).toNat
  let ch := { ch.nextFresh with rst := { ch.rst with held := false, starting := true, acquiring := false, fall } }
  let hz := 24750000 + (Config.free ch.fresh).toNat % 500001
  let ch := (((ch.nextFresh.put Reg.CHN_ID_BCODE bcode).put Reg.CLK_STS_STABLE 0x7F).put Reg.CLK_STS_REFOK 1).put Reg.CLK_REFMON hz
  ((ch.put Reg.CHN_STARTREASON_KIND kind).put Reg.CHN_STARTREASON_SRC (if ch.rst.why = 0 then ch.rst.src else 0)).put
    Reg.CHN_STARTREASON_FALL fall

/-- Steps 7 to 9 with the records of an image: registers and tables, the first failed check, the ring, positions (R386, R390). -/
def ChanState.loadImage (ch : ChanState) (img : List Byte) (warm : Bool) : ChanState :=
  let l := judgeImage ch img
  let ch := (ch.putRecords l.recs).imageShow img
  let ch := { ch with cfg := { ch.cfg with image := img } }
  let bind := leAt img 16 8 == ch.devid.toNat
  let ch := match l.rej with
    | some e => ((((ch.put Reg.CFG_REJ_REASON e.reason).put Reg.CFG_REJ_RTYPE e.ty).put Reg.CFG_REJ_IDX e.idx).put
        Reg.CFG_STS_RES 4).fault 0x0204 1 none 0xFFFF 0
    | none => if bind then ch.put Reg.CFG_STS_RES 1 else (ch.put Reg.CFG_STS_RES 5).fault 0x0206 1 none 0xFFFF 0
  let ch := ch.loadEffects
  let endIn := if l.rej.isSome ∨ !bind then 2 else ch.startEnd warm
  let ch := { ch with rst := { ch.rst with acquiring := true, endIn } }
  ch.cbBringUp

/-- Steps 3 to 10 of a cold start, as far as they run (R390, R420): a failed BIST holds the channel in BOOT; a failed self-test is
an F3; firmware that fails its checks ends in LOADER; rows 1 and 2 of R390 end the start with reset values in force. -/
def ChanState.coldSteps (ch : ChanState) (bistOk selfTestOk : Bool) : ChanState :=
  if !bistOk then { ch.fault 0x0108 2 none 0xFFFF 0 with rst := { ch.rst with starting := false } }
  else if !selfTestOk then
    let ch := { ch with rst := { ch.rst with starting := false }, cfg := { ch.cfg with refused := true } }
    (ch.put Reg.SAF_STS_OSTERR 1).fault 0x0A05 3 none 0xFFFF 0
  else
  let ch := ch.flashStart
  if !ch.fwValid then
    let ch := if ch.nvm.fwHead.isEmpty then ch.fault 0x0F05 1 none 0xFFFF 0 else ch
    ch.endStart 0xB 0xB
  else
  let ch := { ch with cfg := { ch.cfg with fwVer := leAt ch.nvm.fw 8 4 } }
  let v := fun n => slotValid (ch.slot n)
  let ch := (ch.slotShow 0).slotShow 1
  let ch := ((ch.putb Reg.CFG_STS_VALID0 (v 0)).putb Reg.CFG_STS_VALID1 (v 1)).putb Reg.CFG_STS_SEQEQ
    (v 0 && v 1 && imgSeq (ch.slot 0) == imgSeq (ch.slot 1))
  let ch := if v 0 then ch else ch.fault 0x0201 0 none 0 0
  let ch := if v 1 then ch else ch.fault 0x0201 0 none 1 0
  match ch.chooseSlot with
  | none => ((ch.put Reg.CFG_STS_RES 2).fault 0x0202 1 none 0xFFFF 0).endStart 2 4
  | some n =>
    let ch := ch.put Reg.CFG_STS_ACT n
    let img := (ch.slot n).take (imgLen (ch.slot n))
    if leAt img 30 1 ≠ ch.get Reg.CHN_ID_CHAN ∨ ch.cfg.fwVer < leAt img 40 4 then
      ((ch.put Reg.CFG_STS_RES 3).fault 0x0203 1 none 0xFFFF 0).endStart 2 4
    else (ch.loadImage img false).ledgerHome

/-- The kind of a cold start (CHN_STARTREASON.KIND). -/
def ChanState.coldKind (ch : ChanState) : Nat :=
  if ch.rst.why = 1 then 5 else if ch.rst.why = 2 then 6 else if ch.rst.level = 3 then 1 else 2

/-- The F1 of a fuse table that failed its CRC at the trim load before this start (R408). -/
def ChanState.fuseReport (ch : ChanState) : ChanState :=
  let bad := ch.rst.trimNew && ch.rst.fuseBad
  let ch := { ch with rst := { ch.rst with trimNew := false } }
  if bad then ch.fault 0x0102 1 none 0xFFFF 0 else ch

/-- COLD_START (R419, R420): after every reset but an L1. -/
def ChanState.coldStart (ch : ChanState) (bistOk selfTestOk : Bool) : ChanState :=
  if !ch.canStart || (ch.rst.level == 1 && ch.rst.why == 0) then ch else
  ((ch.leaveReset ch.coldKind 0).fuseReport).coldSteps bistOk selfTestOk

/-! ### Local checkpoint and warm start (R36, R247, R421 to R423) -/

/-- The registers a local checkpoint carries: profile state and counts, virtual masters, compare units, scheduler counts, positions
and their sums, steps, divided pulses, solver counts, the ledger, credit audit counts (R36, R342). -/
def savedReg (o : Nat) : Bool :=
  let io := fun a b => decide (a ≤ o) && decide (o < b)
  io 0xC000 0x10000 || io 0x5000 0x5100 || io 0x11000 0x11400 || io 0x12000 0x12D00 || io 0x13000 0x13100 || io 0x15000 0x16000 ||
    o == Reg.CBUS_CRAUD.ofs || o == Reg.CBUS_CRRST.ofs

/-- Writes the local checkpoint (R421). -/
def ChanState.localCheckpoint (ch : ChanState) : ChanState :=
  let c := ch.get Reg.CHN_STATE_CODE
  if c < 3 ∨ 8 < c then ch else
  let cp : LocalCp := {
    mcc := ch.mcc, fwver := ch.cfg.fwVer, sha := (ch.cfg.image.drop 64).take 32, devid := ch.devid.toNat
    regs := ch.regs.filter fun r => savedReg r.1
    enc := ch.enc, rem := ch.rem, dpo := ch.dpo, tok := ch.sep.tok
    open_ := ch.slv.batches.flatMap fun b => (List.range b.n).filterMap fun p =>
      let a := leAt b.desc 48 4 + 8 * p
      if statusArea b.desc ∧ ch.sByte a = 0xFF then some a else none }
  { ch with cps := cp :: ch.cps.take 1 }

/-- Why a warm start falls back, 0 where it does not (R422, CHN_STARTREASON.FALL). -/
def ChanState.fallback (ch : ChanState) (digestsOk : Bool) : Nat :=
  match ch.cps with
  | [] => 1
  | p :: _ => if p.fwver ≠ ch.cfg.fwVer then 3 else if p.sha ≠ (ch.cfg.image.drop 64).take 32 then 4 else if p.devid ≠ ch.devid.toNat then 5
    else if !digestsOk then 6 else 0

/-- Restores what the checkpoint carries, then settles the work that was pending: tasks aborted, segments discarded, problems not
run; arms are left STOPPED (R36, R423, R247). -/
def ChanState.restore (ch : ChanState) (p : LocalCp) : ChanState :=
  let ch := p.regs.foldl (fun ch r => ch.adoptBits r.1 r.2) ch
  -- tasks
  let ch := (ch.puti Reg.SCH_ABRT ((ch.get Reg.SCH_REL : Int) - ch.get Reg.SCH_CMPL)).schPend
  let ch := forUpto 5 (ch.put Reg.SCH_STS_STALL 0) fun q ch => ch.put (Reg.SCH_QDEPTH_DEPTH q) 0
  -- segments
  let ch := forUpto 8 ch fun k ch =>
    if ch.nj k = 0 then ch else
    let ch := ch.puti (Reg.PRF_SDIS k) ((ch.get (Reg.PRF_SAPP k) : Int) + ch.get (Reg.PRF_SPLAY k) - ch.get (Reg.PRF_SEXE k))
    let ch := (ch.put (Reg.PRF_RCON k) (ch.get (Reg.PRF_SAPP k))).put (Reg.PRF_SPHASE k) 0
    (ch.put (Reg.PRF_ASTS_ASTATE k) 5).put (Reg.PRF_OVR_EFF k) 0
  -- solver
  let settle := fun (ch : ChanState) (sub cmpl fail nrun inpr : RF) =>
    (ch.puti nrun ((ch.get sub : Int) - ch.get cmpl - ch.get fail)).put inpr 0
  let ch := settle (settle ch Reg.SLV_HSUB Reg.SLV_HCMPL Reg.SLV_HFAIL Reg.SLV_HNRUN Reg.SLV_HINPR)
    Reg.SLV_ISUB Reg.SLV_ICMPL Reg.SLV_IFAIL Reg.SLV_INRUN Reg.SLV_IINPR
  let ch := ((ch.put Reg.SLV_HPROD 0).put Reg.SLV_HCONS 0).put Reg.SLV_HDONE 0
  let ch := p.open_.foldl (fun ch a => ch.sStore a [7, 5, 0, 0, 0, 0, 0, 0]) (ch.put Reg.SLV_STS 0)
  -- positions
  let ch := { ch with rem := p.rem, dpo := p.dpo }
  let ch := forUpto 24 ch fun q ch =>
    let e := Tab.get p.enc {} q
    match ch.get (Reg.ENC_CFG_MODE q) with
    | 1 => if ch.bit (Reg.ENC_STS_REF q) then (ch.setEnc q { e with frm := none, undo := none }).fault 0x0106 0 none q 0 else ch
    | 2 => ((ch.setEnc q { warm := true, lat1 := e.lat1, turn := e.turn }).put (Reg.ENC_STS_REF q) 0).put (Reg.ENC_STS_VALID q) 0
    | _ => ch
  let ch := forUpto 64 ch fun j ch => let r := ch.remU j; if r.acq then ch.setRem j { r with lastK := none } else ch
  let ch := forUpto 8 ch fun n ch => ((ch.put (Reg.STP_PEND n) 0).put (Reg.STP_STS_CSA n) 0).put (Reg.STP_STS_CSB n) 0
  -- ledger
  { ch with sep := { ch.sep with tok := p.tok.map fun t => (t.1, { t.2 with want := 0, reqs := [] }) } }

/-- Makes every ledger entry PROVISIONAL, as after every start (R247). -/
def ChanState.ledgerProvisional (ch : ChanState) : ChanState :=
  forUpto 64 ch fun z ch => if ch.tokenZone z then (ch.put (Reg.ZTK_ZSTS_STATE z) 5).heldShow z else ch

/-- WARM_START (R419 to R423): after an L1; the retained image, the local checkpoint, or the cold-start steps. -/
def ChanState.warmStart (ch : ChanState) (digestsOk selfTestOk : Bool) : ChanState :=
  if !ch.canStart || ch.rst.level != 1 || ch.rst.why != 0 then ch else
  let fall := ch.fallback digestsOk
  if fall ≠ 0 then
    let ch := { ch with cps := [], cfg := {}, trc := {}, regs := ch.regs.filter fun r => keptReg 2 r.1 }
    let ch := ((ch.fusedShow.leaveReset 4 fall).put Reg.RST_STS_FALLBK 1).fault 0x0104 1 none 0xFFFF fall
    ch.coldSteps true selfTestOk
  else
  let ch := ch.leaveReset 3 0
  if !selfTestOk then
    let ch := { ch with rst := { ch.rst with starting := false }, cfg := { ch.cfg with refused := true } }
    (ch.put Reg.SAF_STS_OSTERR 1).fault 0x0A05 3 none 0xFFFF 0
  else
  let ch := ch.flashStart
  let ch := (ch.slotShow 0).slotShow 1
  let ch := ch.loadImage ch.cfg.image true
  match ch.cps with
  | [] => ch
  | p :: _ => (ch.restore p).ledgerProvisional

/-- The 100 ms of the position step have run out (R423). -/
def ChanState.positionTimeout (ch : ChanState) : ChanState :=
  if ch.rst.starting && ch.rst.acquiring then { ch with rst := { ch.rst with acquiring := false } } else ch

end Sys2Proof.Machine
end

