-- ==== Sys2Proof/Machine/Solver.lean ====
section
/-!
DEFINITION. The solver: descriptors, dispatch, the end of its tasks (R192 to R217). Its numbers are free where the order of its
reductions decides them: functions of the inputs alone (R193).
-/
namespace Sys2Proof.Machine

open Sys2Proof

/-! ### Binary32 (R193) -/

/-- A word the solver may write: a subnormal becomes 0 of its sign, what is beyond the range the largest finite value. -/
def f32Out (w : Nat) : Nat :=
  if w / 2 ^ 23 % 256 = 0 then w / 2 ^ 31 * 2 ^ 31
  else if w / 2 ^ 23 % 256 = 255 then w / 2 ^ 31 * 2 ^ 31 + 0x7F7FFFFF else w

/-- The magnitude of a word: its subnormals are 0. -/
def f32Mag (w : Nat) : Nat := if w / 2 ^ 23 % 256 = 0 then 0 else w % 2 ^ 31

/-- The product of two magnitudes, rounded to nearest, ties to even. -/
def f32MulMag (a b : Nat) : Nat :=
  if a = 0 ∨ b = 0 then 0 else
  let m := (a % 2 ^ 23 + 2 ^ 23) * (b % 2 ^ 23 + 2 ^ 23)
  let up := if 2 ^ 47 ≤ m then 1 else 0
  let k := 2 ^ (23 + up)
  let q := m / k
  let r := m % k
  let q := if k < 2 * r ∨ (2 * r = k ∧ q % 2 = 1) then q + 1 else q
  let e := a / 2 ^ 23 + b / 2 ^ 23 + up + q / 2 ^ 24
  let q := if 2 ^ 24 ≤ q then q / 2 else q
  if e ≤ 127 then 0 else if 382 ≤ e then 0x7F7FFFFF else (e - 127) * 2 ^ 23 + q % 2 ^ 23

/-! ### Descriptors (R195, R196, R206) -/

/-- The fields of a descriptor that its checks and its problems use. -/
def dOp (d : List Byte) : Nat := leAt d 0 1
def dM (d : List Byte) : Nat := leAt d 2 1
def dN (d : List Byte) : Nat := leAt d 3 1
def dR (d : List Byte) : Nat := leAt d 4 1
def dArm (d : List Byte) : Nat := leAt d 6 1 % 8
def dDeadline (d : List Byte) : Nat := leAt d 16 8

/-- Whether `op` is a model function. -/
def modelOp (op : Nat) : Bool := decide (0x10 ≤ op) && decide (op ≤ 0x13)

/-- The joints of the model record of a descriptor's arm; 0 without one. -/
def ChanState.dNj (ch : ChanState) (d : List Byte) : Nat := ch.sByte (0x800 * dArm d)

/-- Bytes of A, of B and of the result of one problem (R195). -/
def dAreas (d : List Byte) (nj : Nat) : Nat × Nat × Nat :=
  let m := dM d
  let n := dN d
  let r := dR d
  match dOp d with
  | 1 => (4 * (n * n), 0, 4 * (n * n))
  | 2 => (4 * (n * n), 0, 4 * (n * n))
  | 3 => (4 * (n * n), 0, 4 * (n * n) + (n + 3) / 4 * 4)
  | 4 => (4 * (m * n), 0, 4 * (m * n + n))
  | 5 => (4 * (n * n), 4 * (n * r), 4 * (n * r))
  | 6 => (4 * (n * n), 4 * (n * r), 4 * (n * r))
  | 7 => (4 * (m * n), 4 * (m * r), 4 * (n * r))
  | 8 => (4 * (m * n), 4 * (m * r), 4 * (n * r))
  | 9 => (4 * (m * n), 4 * m, 4 * n)
  | 0x10 => (4 * nj, 0, 28 * (nj + 1))
  | 0x11 => (4 * nj, 0, 24 * nj)
  | 0x12 => (4 * nj, 0, 4 * (nj * nj))
  | _ => (4 * nj, 0, 4 * nj)

/-- Whether the sizes stand (R195). -/
def dSizes (d : List Byte) : Bool :=
  let m := dM d
  let n := dN d
  let r := dR d
  let in16 := fun v => decide (1 ≤ v) && decide (v ≤ 16)
  match dOp d with
  | 4 => in16 n && decide (n ≤ m) && in16 m && r == 0
  | 5 => m == n && in16 n && in16 r
  | 6 => m == n && in16 n && in16 r
  | 7 => in16 n && decide (n ≤ m) && in16 m && in16 r
  | 8 => in16 m && in16 n && in16 r
  | 9 => in16 m && in16 n && r == 1
  | op => if modelOp op then m == 0 && n == 0 && r == 0 else m == n && in16 n && r == 0

/-- A tolerance or a damping: finite and not negative. -/
def dReal (w : Nat) : Bool := match f32 w with | some v => decide (0 ≤ v) | none => false

/-- The first reason a descriptor is invalid, 0 where it is valid (R196, SLV_DERR.CODE). -/
def ChanState.descReason (ch : ChanState) (d : List Byte) : Nat :=
  let op := dOp d
  let count := leAt d 8 2
  let (a, b, x) := dAreas d (ch.dNj d)
  let areas := fun ofs str len => len == 0 || (List.range (descCount d)).all fun p => hostArea (ofs + p * str) len
  if !((decide (1 ≤ op) && decide (op ≤ 9)) || modelOp op) then 1
  else if !dSizes d then 2
  else if count = 0 ∨ 256 < count then 3
  else if (if op = 9 then leAt d 5 1 = 0 ∨ 32 < leAt d 5 1 else leAt d 5 1 ≠ 0) then 4
  else if !dReal (leAt d 52 4) || !dReal (leAt d 56 4) then 5
  else if !(areas (leAt d 24 4) (leAt d 28 4) a && areas (leAt d 32 4) (leAt d 36 4) b && areas (leAt d 40 4) (leAt d 44 4) x &&
      (op != 9 || areas (leAt d 60 4) (8 * dN d) (8 * dN d)) && statusArea d) then 6
  else if (leAt d 28 4 < a ∧ leAt d 28 4 ≠ 0) ∨ (leAt d 36 4 < b ∧ leAt d 36 4 ≠ 0) ∨ leAt d 44 4 < x then 7
  else if modelOp op && ch.dNj d == 0 then 8
  else if 4 ≤ leAt d 1 1 ∨ 8 ≤ leAt d 6 1 ∨ leAt d 7 1 ≠ 0 ∨ leAt d 10 2 ≠ 0 then 9
  else 0

/-- The cost bound of a problem in solver cycles (R211). -/
def ChanState.dCost (ch : ChanState) (d : List Byte) : Nat :=
  let m := dM d
  let n := dN d
  let r := dR d
  let nj := ch.dNj d
  let lsq := fun r => 24 + 39 * n + n * (m + 1) + n * r
  match dOp d with
  | 1 => 24 + 16 * n + n * (n + 1) / 2
  | 2 => 24 + 16 * n + n * (n + 1)
  | 3 => 24 + 20 * n + n * (n + 1) / 2
  | 4 => 24 + 24 * n + n * (m + 1)
  | 5 => 24 + n * (14 + r)
  | 6 => 24 + n * (14 + r)
  | 7 => lsq r
  | 8 => 24 + n * m + m + 16 * n + n * (n + 1) / 2 + 2 * n * (14 + r)
  | 9 => 24 + leAt d 5 1 * lsq 1
  | 0x10 => 30 + 20 * nj
  | 0x11 => 30 + 26 * nj
  | 0x12 => 40 + 28 * nj + 4 * nj * nj
  | _ => 30 + 22 * nj

/-! ### Submission (R207) -/

/-- A write of SLV_HPROD: discarded where it moves back or too far ahead (R207). -/
def ChanState.hprodSet (ch : ChanState) (v : Nat) : ChanState :=
  let ahead := fun x => (x + 2 ^ 32 - ch.get Reg.SLV_HCONS) % 2 ^ 32
  if ahead (ch.get Reg.SLV_HPROD) ≤ ahead v ∧ ahead v ≤ ch.get Reg.SLV_HRSIZE_SIZE then ch.put Reg.SLV_HPROD v
  else (ch.put Reg.SLV_DERR_PREJ 1).fault 0x0802 0 none 0xFFFF 0

/-- Takes the next descriptor; an invalid one ends at once with every problem NOT_RUN (R196, R207). -/
def ChanState.descTake (ch : ChanState) : ChanState :=
  if ch.blockQuiet 3 || !ch.bit Reg.SLV_CFG_HEN || !hostWork (ch.get Reg.CHN_STATE_CODE) || ch.slvOpen ||
      ch.get Reg.SLV_HCONS == ch.get Reg.SLV_HPROD then ch else
  let ch := ch.slvTake
  let d := match ch.slv.batches.getLast? with | some b => b.desc | none => []
  let why := ch.descReason d
  if why = 0 then ch else
  let ch := ((ch.put Reg.SLV_DERR_CODE why).put Reg.SLV_DERR_ERR 1).fault 0x0802 0 none 0xFFFF 0
  ChanState.slvDone 4097 (ch.slvRefuse 2)

/-- Releases problems of the descriptor taken into Q3 while there is space; SLV_HCONS passes it with the last (R207). -/
def ChanState.probRelease (ch : ChanState) : ChanState :=
  if ch.blockQuiet 3 || !ch.slvOpen then ch else
  match ch.slv.batches.getLast? with
  | none => ch
  | some b =>
    let n := min (b.n - b.rel) (128 - (ch.queue 3).length)
    let ts := (List.range n).map fun i =>
      ({ kind := 0, joint := b.rel + i, rel := ch.now, dl := 0, clim := 0, entry := b.idx, evt := none } : Task)
    let ch := ((ch.setQueue 3 (ch.queue 3 ++ ts)).add Reg.SCH_REL n).schPend
    let ch := { ch with slv := { ch.slv with batches := ch.slv.batches.map fun (x : SBatch) => if x.idx = b.idx then { x with rel := x.rel + n } else x } }
    if b.rel + n = b.n then ch.put Reg.SLV_HCONS (b.idx + 1) else ch

/-! ### Inputs and results (R195, R198, R202, R209) -/

/-- The words of a matrix a problem reads: of a triangular operand only its triangle (R195). -/
def readA (op n : Nat) (ws : List Nat) : List Nat :=
  (ws.zip (List.range ws.length)).map fun w =>
    let i := w.2 / max 1 n
    let j := w.2 % max 1 n
    if ((op = 1 ∨ op = 2 ∨ op = 5) ∧ i < j) ∨ (op = 6 ∧ j < i) then 0 else w.1

/-- `n` words of solver memory from `a`. -/
def ChanState.sWords (ch : ChanState) (a n : Nat) : List Nat := (List.range n).map fun i => ch.sLe (a + 4 * i) 4

/-- The inputs of problem `p`, as it loads them: A, B, bounds, the start of BLS. -/
def ChanState.probIn (ch : ChanState) (d : List Byte) (p : Nat) : List Nat × List Nat × List Nat × List Nat :=
  let (a, b, x) := dAreas d (ch.dNj d)
  let op := dOp d
  (readA op (dN d) (ch.sWords (leAt d 24 4 + p * leAt d 28 4) (a / 4)), ch.sWords (leAt d 32 4 + p * leAt d 36 4) (b / 4),
    if op = 9 then ch.sWords (leAt d 60 4 + p * (8 * dN d)) (2 * dN d) else [],
    if op = 9 ∧ tbit (leAt d 1 1) 1 then ch.sWords (leAt d 40 4 + p * leAt d 44 4) (x / 4) else [])

/-- The staged inputs as one list: what a result depends on (R193). -/
def ChanState.probStage (ch : ChanState) (d : List Byte) (p : Nat) : List Nat :=
  let (a, b, l, x) := ch.probIn d p
  [dOp d, dM d, dN d, dR d, leAt d 5 1, leAt d 52 4, leAt d 56 4] ++ a ++ b ++ l ++ x ++
    if modelOp (dOp d) then (ch.sBytes (0x800 * dArm d) 0x800).map (·.toNat) else []

/-- Word `i` of a result, as the solver may write it. -/
def solvedWord (inp : List Nat) (i : Nat) : Nat := f32Out (Config.solved inp i).toNat

/-- An order of `l` drawn from free words. -/
def drawnOrder (inp : List Nat) : Nat → List Nat → List Nat
  | 0, _ => []
  | n + 1, l =>
    match l[(Config.solved inp (1024 + n)).toNat % max 1 l.length]? with
    | some v => v :: drawnOrder inp n (l.filter (· != v))
    | none => []

/-- A component of a feasible iterate: within its bounds (R198). -/
def boxed (x lo hi : Nat) : Nat :=
  match f32 x, f32 lo, f32 hi with
  | some v, some l, some h => if v < l then lo else if h < v then hi else x
  | _, _, _ => x

/-- The result of a problem: free words with what its operation fixes: zeros above a Cholesky factor's diagonal, the order of pivots,
the box of BLS, the symmetry of M (R195, R198, R202). -/
def resultBytes (d : List Byte) (nj : Nat) (inp : List Nat) : List Byte :=
  let n := dN d
  let w := fun i => leBytes 4 (solvedWord inp i)
  let plain := fun k => (List.range k).flatMap w
  match dOp d with
  | 1 => (List.range (n * n)).flatMap fun i => if i / max 1 n < i % max 1 n then leBytes 4 0 else w i
  | 3 => plain (n * n) ++ ((drawnOrder inp n (List.range n)).flatMap fun v => leBytes 1 v) ++ List.replicate ((4 - n % 4) % 4) 0
  | 9 =>
    let l := inp.drop (7 + dM d * n + dM d)
    (List.range n).flatMap fun i => leBytes 4 (boxed (solvedWord inp i) (l[i]?.getD 0) (l[n + i]?.getD 0))
  | 0x12 => (List.range (nj * nj)).flatMap fun i => w (max (i / max 1 nj) (i % max 1 nj) * nj + min (i / max 1 nj) (i % max 1 nj))
  | _ => plain ((dAreas d nj).2.2 / 4)

/-- The columns of a triangular operand whose pivot fails (R197). -/
def badPivots (n : Nat) (inp : List Nat) : List Nat :=
  let a := (inp.drop 7).take (n * n)
  let amax := (a.map f32Mag).foldl max 0
  let tol := if f32Mag (inp[5]?.getD 0) = 0 then 0x35800000 else inp[5]?.getD 0
  (List.range n).filter fun j => decide (f32Mag (a[j * n + j]?.getD 0) ≤ f32MulMag tol amax)

/-- How a problem ends: its status and INFO (R197, R198, R208). A box that is empty and a matrix of zeros decide it; a pivot of a
triangular operand does; elsewhere its numbers, which are free. -/
def probEnd (d : List Byte) (inp : List Nat) : Nat × Nat :=
  let n := dN d
  let op := dOp d
  let f := (Config.solvedEnd inp).toNat
  let fail := if op = 1 ∨ op = 2 ∨ op = 8 then 2 else 1
  let words := if op = 5 ∨ op = 6 ∨ op ≤ 3 then n * n else dM d * n
  let empty := if op ≠ 9 then [] else
    let l := inp.drop (7 + dM d * n + dM d)
    (List.range n).filter fun i => match f32 (l[i]?.getD 0), f32 (l[n + i]?.getD 0) with
      | some lo, some hi => decide (hi < lo)
      | _, _ => false
  let one := fun (l : List Nat) => l[f % max 1 l.length]?.getD 0
  if modelOp op then (0, 0)
  else if !empty.isEmpty then (3, one empty)
  else if op ≠ 8 ∧ ((inp.drop 7).take words).all (fun w => f32Mag w == 0) then (fail, 0)
  else if op = 5 ∨ op = 6 then
    let l := badPivots n inp
    if l.isEmpty then (0, 0) else (1, if op = 5 then l.headD 0 else one l)
  else if op = 9 then (if f % 4 = 0 then (1, f / 4 % max 1 n) else if f % 4 = 1 then (4, 0) else (0, 0))
  else if f % 2 = 0 then (fail, f / 2 % max 1 n) else (0, 0)

/-! ### Running (R88, R207, R209, R213) -/

/-- The wait of a task counted at its grant (R88). -/
def ChanState.waited (ch : ChanState) (q : Nat) (t : Task) (rest : List Task) : ChanState :=
  let wait := ch.now - t.rel
  let ch := ch.setQueue q rest
  let st := Tab.get ch.sch.stat {} q
  { ch with sch := { ch.sch with stat := Tab.set ch.sch.stat {} q { st with wmax := max st.wmax wait, wsum := st.wsum + wait, wn := st.wn + 1 } } }

/-- A host task is over: its cycles counted, the rest of HALF begun, batches passed (R91, R207, R213). -/
def ChanState.hostTaskEnd (ch : ChanState) (cyc : Nat) : ChanState :=
  let len := if ch.bit Reg.SLV_STS_SURGEON then cyc * 8 / 5 else 2 * cyc
  let ch := if ch.bit Reg.SLV_STS_HALF then { ch with slv := { ch.slv with rest := some (ch.now + len) } } else ch
  ChanState.slvDone 4097 (((ch.solverIdle cyc).add Reg.SCH_CMPL 1).schPend)

/-- Starts a host problem, or ends it NOT_RUN for the first of deadline, cost and input (R209). -/
def ChanState.hostStart (ch : ChanState) (t : Task) : ChanState :=
  match ch.slv.batches.find? (·.idx == t.entry) with
  | none => ch
  | some b =>
    let d := b.desc
    let p := t.joint
    let notRun := fun (ch : ChanState) why => (ch.slvFinal b.idx d p 7 why 0 0 0).hostTaskEnd 12
    let (a, bb, l, x) := ch.probIn d p
    if dDeadline d ≠ 0 ∧ dDeadline d ≤ ch.now then notRun ch 1
    else if ch.get Reg.SLV_HCMAX_CMAX < ch.dCost d + 12 then notRun (ch.fault 0x0803 0 none 0xFFFF 0) 3
    else if (a ++ bb ++ l ++ x).any fun w => (f32 w).isNone then notRun ch 4
    else
      let ch := { ch with slv := { ch.slv with run := some (.host b.idx p d (ch.probStage d p) ch.now) } }
      (ch.put Reg.SLV_STS_STATE 2).put Reg.SLV_STS_OP (dOp d)

/-- Gives the idle solver its next task: a model task before any host problem, none of which starts during the rest of HALF (R88,
R207, R213). -/
def ChanState.solverNext (ch : ChanState) : ChanState :=
  if ch.blockQuiet 3 || ch.slv.run.isSome then ch else
  let ch := ch.surgeReview
  match ch.queue 2 with
  | t :: rest =>
    let ch := ch.waited 2 t rest
    let ch := { ch with slv := { ch.slv with run := some (.model t (Tab.get ch.slv.inp [] t.joint) ch.now) } }
    (ch.put Reg.SLV_STS_STATE 1).put Reg.SLV_STS_OP 0x20
  | [] =>
    if (match ch.slv.rest with | some e => decide (ch.now < e) | none => false) then ch else
    match ch.queue 3 with
    | [] => ch
    | t :: rest => ({ ch with slv := { ch.slv with rest := none } }.waited 3 t rest).hostStart t

/-- Moves time to the end of a task of at most `cost` cycles and its 12 of overhead; answers the cycles it took, a free number
(R192, R211). -/
def ChanState.taskSpan (ch : ChanState) (cost since : Nat) : Nat × ChanState :=
  let cyc := 13 + (Config.free ch.fresh).toNat % max 1 cost
  let ns := if ch.bit Reg.SLV_STS_SURGEON then (cyc * 8 + 4) / 5 else 2 * cyc
  (cyc, ch.nextFresh.advanceTo (since + ns))

/-- Ends the host problem that runs with a status; a result it leaves is written (R208, R209). -/
def ChanState.hostFinish (ch : ChanState) (idx p : Nat) (d : List Byte) (inp : List Nat) (cyc status info : Nat) : ChanState :=
  let writ := status == 0 || status == 4 || status == 6
  let op := dOp d
  let ch := if writ then ch.sStore (leAt d 40 4 + p * leAt d 44 4) (resultBytes d (ch.dNj d) inp) else ch
  let f := (Config.solvedEnd inp).toNat
  let iter := if op ≠ 9 then 0 else if status = 4 then leAt d 5 1 else f / 2 ^ 8 % (leAt d 5 1 + 1)
  let res := if writ && decide (7 ≤ op) && decide (op ≤ 9) then f32Mag (f32Out (Config.solved inp 2048).toNat) else 0
  let ch := ch.slvFinal idx d p status info iter (f / 2 ^ 31 + 2 * b2n writ) res
  ch.hostTaskEnd cyc

/-- The deadline of the running host problem, met at a step (R209). -/
def ChanState.hostDeadline (ch : ChanState) : ChanState :=
  match ch.slv.run with
  | some (.host idx p d inp since) =>
    if dDeadline d = 0 then ch else
    let ch := ch.advanceTo (dDeadline d)
    ch.hostFinish idx p d inp (ch.solverCycles since + 12) (if dOp d = 9 then 6 else 5) 0
  | _ => ch

/-- The running host problem ends (R209). -/
def ChanState.hostComplete (ch : ChanState) : ChanState :=
  match ch.slv.run with
  | some (.host idx p d inp since) =>
    let (cyc, ch) := ch.taskSpan (ch.dCost d) since
    let (status, info) := probEnd d inp
    ch.hostFinish idx p d inp cyc status info
  | _ => ch

/-- A model task ends: M, g and the poses become visible together; past its deadline or its limit it is aborted (R91, R203, R205). -/
def ChanState.modelComplete (ch : ChanState) : ChanState :=
  match ch.slv.run with
  | some (.model t inp since) =>
    let k := t.joint
    let nj := ch.sByte (0x800 * k)
    let (cyc, ch) := ch.taskSpan (modelCost nj) since
    if ch.past t.dl = true ∨ 8 * t.clim + 12 < cyc then ch.abortModel else
    let a := 0x10000 + 0x1000 * k
    let w := fun i => leBytes 4 (solvedWord inp i)
    let ch := ch.sStore a ((List.range (nj * nj)).flatMap fun i =>
      w (max (i / max 1 nj) (i % max 1 nj) * nj + min (i / max 1 nj) (i % max 1 nj)))
    let ch := ch.sStore (a + 0x200) ((List.range nj).flatMap fun i => w (256 + i))
    let ch := ch.sStore (a + 0x300) ((List.range (7 * (nj + 1))).flatMap fun i => w (512 + i))
    let ch := ((ch.put (Reg.SLV_MDLMCC k) (t.rel / 256000 % 2 ^ 32)).setBit Reg.SLV_MDLVAL_VAL k true).add Reg.SLV_ICMPL 1
    let ch := ((ch.modelPend.add Reg.SCH_CMPL 1).schPend).solverIdle cyc
    if (Config.solvedEnd inp).toNat / 2 ^ 31 = 1 then ch.fault 0x0804 1 (some k) k 0 else ch
  | _ => ch

/-- The rest after a host problem under HALF is over (R213). -/
def ChanState.restEnd (ch : ChanState) : ChanState :=
  match ch.slv.rest with
  | none => ch
  | some t => { ch.advanceTo t with slv := { ch.slv with rest := none } }

/-! ### The commands -/

/-- HPROD_WRITE (R207). -/
def execHprodWrite (c : Chan) (v : Word) (s : State) : Host.Outcome State Fault Refusal :=
  live s c fun ch => (ch.hostW .pcie).hprodSet v.toNat

/-- HABORT (R214): SLV_CTL.HABORT. -/
def execHabort (c : Chan) (s : State) : Host.Outcome State Fault Refusal := live s c fun ch => (ch.hostW .pcie).hostAbort 5

/-- DESCRIPTOR_TAKE (R207). -/
def execDescriptorTake (c : Chan) (s : State) : Host.Outcome State Fault Refusal := live s c ChanState.descTake

/-- PROBLEM_RELEASE (R207). -/
def execProblemRelease (c : Chan) (s : State) : Host.Outcome State Fault Refusal := live s c ChanState.probRelease

/-- SOLVER_DISPATCH (R209). -/
def execSolverDispatch (c : Chan) (s : State) : Host.Outcome State Fault Refusal := live s c ChanState.solverNext

/-- SOLVER_DEADLINE (R209). -/
def execSolverDeadline (c : Chan) (s : State) : Host.Outcome State Fault Refusal := live s c ChanState.hostDeadline

/-- PROBLEM_COMPLETE (R209). -/
def execProblemComplete (c : Chan) (s : State) : Host.Outcome State Fault Refusal := live s c ChanState.hostComplete

/-- MODEL_TASK_COMPLETE (R203). -/
def execModelTaskComplete (c : Chan) (s : State) : Host.Outcome State Fault Refusal := live s c ChanState.modelComplete

/-- HALF_RATE_REST_END (R213). -/
def execHalfRateRestEnd (c : Chan) (s : State) : Host.Outcome State Fault Refusal := live s c ChanState.restEnd

end Sys2Proof.Machine
end

