-- ==== Sys2Proof/Machine/Redundancy.lean ====
section
/-!
DEFINITION. Redundant pairs: the snapshot, takeover, yield, return and drills (R335 to R352).
-/
namespace Sys2Proof.Machine

open Sys2Proof

/-! ### The snapshot (R341, R342, R421) -/

/-- The header fields of a checkpoint (R342); what follows is the maker's. -/
def ChanState.checkpointBytes (ch : ChanState) (yield : Option Nat) (dres : Nat) : List Byte :=
  let y := match yield with | some y => y % 2 ^ 32 | none => 0
  let body := leBytes 2 1 ++ leBytes 2 15360 ++ leBytes 4 ch.cfg.fwVer ++ leBytes 4 (ch.get Reg.CFG_CDIG) ++ leBytes 4 (ch.get Reg.CFG_ISEQ) ++
    leBytes 8 ch.devid.toNat ++ leBytes 4 ch.mcc ++ leBytes 4 (b2n yield.isSome) ++ leBytes 4 y ++
    leBytes 1 (ch.get Reg.CHN_STATE_CODE + 16 * ch.get Reg.CHN_STATE_TARGET) ++ leBytes 1 dres ++ List.replicate 26 0 ++
    ((List.range (0x34C0 - 0x40)).map fun i => Config.checkpointByte ch.fresh i) ++ List.replicate 1852 0
  body ++ leBytes 4 (crc32c body)

/-- What a drill under way would record now (R351). -/
def ChanState.drillNow (ch : ChanState) : Nat :=
  if ch.red.drillT.isNone then ch.get Reg.RED_STS_DRES
  else if ch.red.drillBad ≠ 0 then ch.red.drillBad
  else if ch.red.pstate = 0xA then 1 else ch.get Reg.RED_STS_DRES

/-- The snapshot of an acting unit of a pair; one that is to yield names the first basic cycle of the next matrix cycle (R341, R348). -/
def ChanState.snapshot (ch : ChanState) : ChanState :=
  if !ch.bit Reg.RED_STS_ACT then ch else
  let y := if ch.red.yieldReq then some ((ch.matrix + 1) * 16) else none
  let bs := ch.checkpointBytes y ch.drillNow
  { ch.nextFresh with red := { ch.red with
      snap := bs, snapMcc := ch.mcc % 2 ^ 16, yieldReq := false, yieldAt := match y with | some k => some k | none => ch.red.yieldAt } }

/-- The snapshot instant, 1,600 ns of a basic cycle with b = 0: time moves there; the local checkpoint is written and the partner's is
taken (R341, R421). -/
def ChanState.snapshotInstant (ch : ChanState) : ChanState :=
  let t := ch.matrix * 256000 + 1600
  let ch := ch.advanceTo (if ch.now ≤ t then t else t + 256000)
  ch.localCheckpoint.snapshot

/-! ### Takeover and return (R344 to R349) -/

/-- The joints bound as `p` says, one bit each. -/
def jointMask (p : Nat → Bool) : Nat := (List.range 64).foldl (fun m j => if p j then m + 2 ^ j else m) 0

/-- The counts a unit takes with a checkpoint (R36, R342): releases, problems, credit audits, the ledger. -/
def adoptedOfs : List Nat :=
  [0x500C, 0x5010, 0x5014] ++ ((List.range 8).map fun i => 0x13030 + 4 * i) ++ [Reg.CBUS_CRAUD.ofs, Reg.CBUS_CRRST.ofs] ++
    (List.range 0x400).map fun i => 0x15000 + 4 * i

/-- Takes what the staged checkpoint carries beside the profile state, which is re-based already (R342, R345): counts, ledger, next SEQs,
torque and REARM state, reset qualification; the previous edge sets are the partner's own records. -/
def ChanState.adopt (ch : ChanState) (bs : List Byte) : ChanState :=
  let w := fun i => Config.adoptReg bs (0x40000 + i)
  let ch := adoptedOfs.foldl (fun ch o => ch.adoptBits o (Config.adoptReg bs o)) ch
  let ch := (ch.schPend.slvPend).modelPend
  let ch := forUpto 64 ch fun z ch => { ch with sep := { ch.sep with tok := Tab.set ch.sep.tok {} z (Config.adoptTok bs z) } }
  let ch := forUpto 128 ch fun i ch =>
    if ch.bit (Reg.SCX_CFG_DIR i) then ch.setConn i { ch.conn i with next := (w i).toNat % 2 ^ 16 } else ch
  let ch := forUpto 64 ch fun j ch =>
    if !ch.bound j then ch else
    let b := ch.brick j
    let ch := ch.put (Reg.JNT_STS_GOFF j) ((w (0x100 + j)).toNat % 2)
    match Tab.get ch.red.kept [] j with
    | r :: _ => ch.setBrick j { b with rearm := tbit (w (0x200 + j)).toNat 0, esid := leAt r 2 2, comK := leAt r 2 2, fresh := false,
                                       edges := (List.range 6).map fun i => leAt r (4 + 2 * i) 2 }
    | [] => ch.setBrick j { b with rearm := tbit (w (0x200 + j)).toNat 0 }
  ch.put Reg.SAF_STS_RSTQ ((w 0x300).toNat % 2)

/-- Whether a staged checkpoint can be used: its CRC checked again, and a state an acting unit can be in (R345). -/
def usable (bs : List Byte) : Bool :=
  leAt bs 0x3BFC 4 == crc32c (bs.take 0x3BFC) && decide (3 ≤ leAt bs 0x24 1 % 16) && decide (leAt bs 0x24 1 % 16 ≤ 8)

/-- Acts from the next cycle as a staged checkpoint says: its state, the integrators to seed, the releases to come (R345, R346, R349). -/
def ChanState.actOn (ch : ChanState) (bs : List Byte) : ChanState :=
  let ch := ch.adopt bs
  let code := leAt bs 0x24 1 % 16
  let ch := { ch with
    lockMark := ch.lockMark || code == 7
    red := { ch.red with
      mute0 := false, lower := [], syncAt := none
      seedC := jointMask fun j => ch.get (Reg.JNT_BIND_KIND j) == 3
      seedS := jointMask fun j => ch.get (Reg.JNT_BIND_KIND j) == 3 && !ch.bit (Reg.JNT_CFG_LEVEL j) } }
  let ch := (ch.goState code 8).put Reg.CHN_STATE_TARGET (leAt bs 0x24 1 / 16)
  (ch.redShow.groupsReview).ptrSync

/-- The takeover of a standby (R345): unprotected arms are disabled; without a usable checkpoint it ends in SAFE_IDLE. -/
def ChanState.takeover (ch : ChanState) : ChanState :=
  match ch.red.staged with
  | bs :: _ =>
    if usable bs then
      let ch := ch.actOn bs
      let ch := ((ch.add Reg.RED_TKOV 1).put Reg.RED_LASTTK ch.now).fault 0x0D05 0 none 0xFFFF 0
      let ch := (List.range 8).foldl (fun ch k =>
        if tbit (ch.get Reg.RED_UNPROT_ARMS) k then
          let ch := ch.setArm k { ch.arm k with torqueOff := true }
          ch.torqueReview.fault 0x0D03 2 (some k) k 0
        else ch) ch
      ch.event 0x36
    else ((ch.goState 3 8).redShow.ptrSync).fault 0x0D04 2 none 0xFFFF 0
  | [] => ((ch.goState 3 8).redShow.ptrSync).fault 0x0D04 2 none 0xFFFF 0

/-- Silence of the acting unit: two basic cycles in a row without its SYNC, judged at 15,040 ns (R345). -/
def ChanState.silence (ch : ChanState) : ChanState :=
  if ch.get Reg.CHN_STATE_CODE ≠ 9 ∨ !ch.bit Reg.RED_CFG_EN then ch else
  let ch := ch.advanceInCycle 15040
  match ch.red.syncAt with
  | some k => if k + 2 ≤ ch.cycle then ch.takeover else ch
  | none => ch.takeover

/-- A standby whose partner yields in this checkpoint takes over once its cycle Y has passed (R348). It is watched as a drill, which
the checkpoint does not tell from a plain yield (R351). -/
def ChanState.yieldTaken (ch : ChanState) : ChanState :=
  match ch.red.staged with
  | bs :: rest =>
    if ch.get Reg.CHN_STATE_CODE == 9 && leAt bs 0x1C 4 % 2 == 1 && decide (0 < wrapS 32 ((ch.cycle : Int) - leAt bs 0x20 4)) then
      let old := ch.flt.active.map fun a => (a.code, a.scope, a.index)
      let ch := { ch.takeover with red := { ch.takeover.red with staged := (bs.take 0x1C ++ leBytes 4 0 ++ bs.drop 0x20) :: rest } }
      ({ ch with red := { ch.red with drillT := some ch.mono, drillBad := 0, drillOld := old } }).put Reg.RED_STS_DRILL 1
    else ch
  | [] => ch

/-- What a drill watches each basic cycle: new faults, positions, the second it has (R351). -/
def ChanState.drillWatch (ch : ChanState) : ChanState :=
  match ch.red.drillT with
  | none => ch
  | some t =>
    if t + 1000000000 < ch.mono then ch.drillEnd 5 else
    let flt := ch.flt.active.any fun a => decide (1 ≤ a.cls) && a.code != 0x0D03 && !ch.red.drillOld.contains (a.code, a.scope, a.index)
    let off := (List.range 64).any fun j => ch.bound j && !tbit (ch.get Reg.RED_UNPROT_ARMS) (ch.armOf j) &&
      decide ((ch.get Reg.RED_DTOL : Int) * 65536 < (ch.geti64 (Reg.PRF_JCPOS j) - (ch.joint j).act).natAbs)
    let bad := if ch.red.drillBad ≠ 0 then ch.red.drillBad else if flt then 2 else if off then 3 else 0
    { ch with red := { ch.red with drillBad := bad } }

/-- The start of a basic cycle for a unit of a pair: freshness of the staged checkpoint, a yield taken, a drill watched (R343, R348). -/
def ChanState.pairCycle (ch : ChanState) : ChanState :=
  if !ch.bit Reg.RED_CFG_EN then ch else
  let age := (ch.mcc + 2 ^ 32 - ch.get Reg.RED_CPMCC) % 2 ^ 32
  let ch := ch.putb Reg.RED_STS_READY (!ch.red.staged.isEmpty && decide (age ≤ 1))
  ch.yieldTaken.drillWatch

/-- The return of a primary with checkpoints of two consecutive matrix cycles: it acts from row 1 of the next matrix cycle (R349). -/
def ChanState.returning (ch : ChanState) : ChanState :=
  match ch.red.staged with
  | a :: b :: _ =>
    if ch.get Reg.CHN_STATE_CODE == 0xA && leAt a 0x18 4 == (leAt b 0x18 4 + 1) % 2 ^ 32 && usable a then
      (ch.advanceTo ((ch.matrix + 1) * 256000 + 16000)).actOn a
    else ch
  | _ => ch

/-! ### Yield and drill (R348, R351) -/

/-- A RED_CMD of YIELD or DRILL: carried out on an acting unit in READY at standstill whose partner stands by, else refused; a wrong key
is ignored. -/
def ChanState.yieldCommand (ch : ChanState) (key : Nat) (drill : Bool) : ChanState :=
  if key ≠ 0x57A7 then ch
  else if ch.bit Reg.RED_STS_ACT && ch.get Reg.CHN_STATE_CODE == 4 && ch.allRest && (ch.red.pstate == 9 || ch.red.pstate == 0xA) then
    { ch with red := { ch.red with yieldReq := true } }.putb Reg.RED_STS_DRILL drill
  else ch.put Reg.RED_STS_DRES 4

/-- The cycle of a yield: claim 0 from its start, and an L1 reset of the unit by itself (R348, R406). -/
def ChanState.yieldNow (ch : ChanState) : ChanState :=
  match ch.red.yieldAt with
  | none => ch
  | some y => ((ch.advanceTo (y * 16000)).event 0x36).yieldReset

/-- The hours since the last drill pass RED_DMAX (R351). -/
def ChanState.drillLate (ch : ChanState) : ChanState :=
  if ch.get Reg.RED_DMAX_HRS < ch.nvm.dage then ch else
  let n := ch.get Reg.RED_DMAX_HRS + 1
  let ch := { ch with nvm := { ch.nvm with dage := min n 0xFFFF } }.put Reg.RED_DAGE_HRS (min n 0xFFFF)
  ch.fault 0x0D08 0 none 0xFFFF 0

/-! ### The commands -/

/-- BASIC_CYCLE_START (R22). -/
def execBasicCycleStart (c : Chan) (s : State) : Host.Outcome State Fault Refusal :=
  live s c fun ch => ch.basicCycleStart.pairCycle

/-- CHECKPOINT_SNAPSHOT (R341). -/
def execCheckpointSnapshot (c : Chan) (s : State) : Host.Outcome State Fault Refusal := live s c ChanState.snapshotInstant

/-- PARTNER_SILENT (R345). -/
def execPartnerSilent (c : Chan) (s : State) : Host.Outcome State Fault Refusal := live s c ChanState.silence

/-- YIELD (R348). -/
def execYield (c : Chan) (key : BitVec 16) (s : State) : Host.Outcome State Fault Refusal :=
  live s c fun ch => (ch.hostW .pcie).yieldCommand key.toNat false

/-- DRILL (R351). -/
def execDrill (c : Chan) (key : BitVec 16) (s : State) : Host.Outcome State Fault Refusal :=
  live s c fun ch => (ch.hostW .pcie).yieldCommand key.toNat true

/-- YIELD_INSTANT (R348). -/
def execYieldInstant (c : Chan) (s : State) : Host.Outcome State Fault Refusal := live s c ChanState.yieldNow

/-- RETURN_CLAIM (R349). -/
def execReturnClaim (c : Chan) (s : State) : Host.Outcome State Fault Refusal := live s c ChanState.returning

/-- DRILL_OVERDUE (R351). -/
def execDrillOverdue (c : Chan) (s : State) : Host.Outcome State Fault Refusal := live s c ChanState.drillLate

end Sys2Proof.Machine
end

