-- ==== Sys2Proof/Machine/StartCmds.lean ====
section
/-!
DEFINITION. The commands of chapter 15: power, reset sources, clocks, trim, starts, block-alone resets, the fuse table; and the TAP.
-/
namespace Sys2Proof.Machine

open Sys2Proof

/-! ### Power and pins (R406, R409, R460, R473) -/

/-- The level of a channel's reset pin at the balls. -/
def Dev.setPin (d : Dev) (c : Chan) (low : Bool) : Dev :=
  match c with
  | .A => { d with rstALow := low }
  | .B => { d with rstBLow := low }

/-- The instructions of the TAP that drive pins (R473). -/
def drivesPins : TapOp → Bool
  | .extest => true
  | .extestPulse => true
  | .extestTrain => true
  | .clamp => true
  | .bypass => false
  | .idcode => false
  | .samplePreload => false

/-- Releases the device from power-on: source 0 in each channel, the host port and the TAP reset (R406, R409, R473). -/
def State.powerOn (s : State) : State :=
  let f := fun (ch : ChanState) => ({ ch with rst := { ch.rst with por := false } }).takeSource 0
  let s := (s.onChan .A f).onChan .B f
  { s with dev := { rstALow := s.dev.rstALow, rstBLow := s.dev.rstBLow } }

/-- A lost rail: the device is held in L3 until the power-on monitor releases it (R409, R460). -/
def State.railLost (s : State) : State :=
  let f := fun (ch : ChanState) => let ch := ch.resetTo 3 true; { ch with rst := { ch.rst with por := true } }
  let s := (s.onChan .A f).onChan .B f
  { s with dev := { rstALow := s.dev.rstALow, rstBLow := s.dev.rstBLow } }

/-- A channel's reset pin low for 1 µs: source 1, and the channel is held while it is low (R406). -/
def State.pinLow (s : State) (c : Chan) : State :=
  let s := { s with dev := s.dev.setPin c true }
  (s.onChan c fun ch => { ch with rst := { ch.rst with pinLow := true } }).source c 1

/-- A reset pin released: a TAP instruction that drives pins gives way to BYPASS (R473). -/
def State.pinHigh (s : State) (c : Chan) : State :=
  let d := s.dev.setPin c false
  let s := { s with dev := { d with tap := if drivesPins d.tap then .bypass else d.tap } }
  s.onChan c fun ch => { ch with rst := { ch.rst with pinLow := false } }

/-- An instruction of the TAP: one that drives pins only with both reset pins low, else BYPASS (R473). -/
def State.tapRun (s : State) (i : TapOp) : State :=
  { s with dev := { s.dev with tap := if drivesPins i && !(s.dev.rstALow && s.dev.rstBLow) then .bypass else i } }

/-- A source of a part that runs only while its channel does (R406). -/
def State.liveSource (s : State) (c : Chan) (q : Nat) : State := if (s.chan c).rst.held then s.onChan c id else s.source c q

/-! ### Clocks (R402, R403) -/

/-- A clock source: counted in CLK_LOSS as well as in RST_CNT (R402). -/
def State.clockLost (s : State) (c : Chan) (q : Nat) : State :=
  (s.source c q).onChan c fun ch => ch.add (if q = 6 then Reg.CLK_LOSS_LOCK else Reg.CLK_LOSS_REF) 1

/-! ### Block-alone resets (R410 to R412, R425) -/

/-- CHN_BRST as the reset controller stands. -/
def ChanState.brstShow (ch : ChanState) : ChanState :=
  (ch.putb Reg.CHN_BRST_INRST ch.rst.blkInRst).putb Reg.CHN_BRST_PEND ch.rst.blkRelease

/-- ASSERT: refused for a second block, for a block without L0, and for the NVM port while it writes; else the block is asked to go idle
(R410, R411). -/
def ChanState.blockAssert (ch : ChanState) (b : Nat) : ChanState :=
  let ch := ch.put Reg.CHN_BRST_BLK b
  if ch.rst.blk = some b then ch
  else if ch.rst.blk.isSome || !l0Block b || (b == 4 && (ch.bit Reg.CFG_STS_BUSY || ch.bit Reg.UPD_STS_ACTIVE)) then
    ch.put Reg.CHN_BRST_REJ 1
  else { ch with rst := { ch.rst with blk := some b, blkInRst := false, blkRelease := false, blkStable := false, blkSince := ch.mono } }

/-- What a block holds when its clock stops is lost and counted (R410, R411). -/
def ChanState.blockCut (ch : ChanState) (b : Nat) : ChanState :=
  if b = 1 then
    let n := b2n ch.cb.wait.isSome + b2n ch.cb.arbWait.isSome + b2n ch.cb.relay.isSome + ch.cb.rxq.length
    ({ ch with cb := { ch.cb with relay := none, rxq := [] } }.mute).add Reg.RST_BDISC n
  else if b = 3 then
    let n := (ch.queue 2).length + (ch.queue 3).length
    let ch := ch.abortModel
    let ch := (ch.queue 2).foldl ChanState.taskAborted (if (ch.queue 2).isEmpty then ch else ch.setQueue 2 [])
    let ch := match ch.slv.run with
      | some (.host idx p d _ since) => ((ch.slvFinal idx d p 7 5 0 0 0).solverIdle (ch.solverCycles since + 12)).add Reg.SCH_ABRT 1
      | _ => ch
    (ch.schPend.hostAbort 5).add Reg.RST_BDISC n
  else if 8 ≤ b then ch.abortRunning (b - 8)
  else ch

/-- The block is held, its clock stopped (R410). -/
def ChanState.blockHold (ch : ChanState) (tmo : Bool) : ChanState :=
  match ch.rst.blk with
  | none => ch
  | some b =>
    if ch.rst.blkInRst then ch else
    let ch := ch.blockCut b
    let ch := { ch with rst := { ch.rst with blkInRst := true } }.brstShow
    if tmo then (ch.put Reg.CHN_BRST_TMO 1).fault 0x0103 0 none b 0 else ch

/-- Whether a block has work begun: a loop engine or the solver with a task (R410). -/
def ChanState.blockBusy (ch : ChanState) (b : Nat) : Bool :=
  if b = 3 then ch.slv.run.isSome else if 8 ≤ b then (ch.engine (b - 8)).task.isSome else false

/-- The block reports idle (R410). -/
def ChanState.blockIdleNow (ch : ChanState) : ChanState :=
  match ch.rst.blk with
  | some b => if ch.blockBusy b then ch else ch.blockHold false
  | none => ch

/-- CHN_BRSTTO runs out before the block is idle (R410). -/
def ChanState.blockTimeout (ch : ChanState) : ChanState :=
  if ch.rst.blk.isNone || ch.rst.blkInRst then ch
  else (ch.advanceMono (ch.rst.blkSince + 1000 * ch.get Reg.CHN_BRSTTO_TO)).blockHold true

/-- The block leaves reset (R411). -/
def ChanState.blockRelease (ch : ChanState) : ChanState :=
  match ch.rst.blk with
  | none => ch
  | some b =>
    let ch := { ch with rst := { ch.rst with blk := none, blkInRst := false, blkRelease := false, blkStable := false } }.brstShow
    if b = 1 then ch.cbBringUp
    else if b = 2 then
      forUpto 2 ch fun n ch => if ch.bit (Reg.TIM_PCFG_EN n) then
        ((ch.setPtp n { ch.ptpU n with haveSync := false, gmSet := false, reqTx := none, offs := [] }).ptpLock n false).put (Reg.TIM_PSTS_STATE n) 1
      else ch
    else if b = 4 then ch.flashStart
    else if 8 ≤ b then (ch.put (Reg.LPE_STS_FLT (b - 8)) 0).engineIdle (b - 8)
    else ch

/-- RELEASE: at once where the block is held and its clock stable, else pending (R403, R412). -/
def ChanState.releaseAsked (ch : ChanState) (b : Nat) : ChanState :=
  let ch := ch.put Reg.CHN_BRST_BLK b
  if ch.rst.blk ≠ some b then ch
  else if ch.rst.blkInRst && ch.rst.blkStable then ch.blockRelease
  else { ch with rst := { ch.rst with blkRelease := true } }.brstShow

/-- A clock domain has run for 64 cycles: CLK_STS shows it, and a release that waits for it is carried out (R403). -/
def ChanState.stable (ch : ChanState) (dom : Nat) : ChanState :=
  let ch := ch.setBit Reg.CLK_STS_STABLE dom true
  match ch.rst.blk with
  | some b =>
    if ch.rst.blkInRst && blockDomain b == dom then
      let ch := { ch with rst := { ch.rst with blkStable := true } }
      if ch.rst.blkRelease then ch.blockRelease else ch
    else ch
  | none => ch

/-! ### The fuse table (R408) -/

/-- RST_FCMD: burning starts in MAINTENANCE, once, at 85 °C or less; a wrong key does nothing. -/
def ChanState.fuseStart (ch : ChanState) (key : Nat) : ChanState :=
  if key ≠ 0x57A7 ∨ ch.bit Reg.RST_FSTS_BUSY then ch
  else if ch.get Reg.CHN_STATE_CODE ≠ 8 ∨ ch.rst.fuseProg ∨
      (List.range 4).any (fun n => ch.bit (Reg.LEHR_TJ_VALID n) && decide (8 * 85 < ch.geti (Reg.LEHR_TJ_T n))) then
    ch.put Reg.RST_FSTS_REJ 1
  else { ch with rst := { ch.rst with fuseTab := ch.word Reg.RST_FSTAGE } }.put Reg.RST_FSTS_BUSY 1

/-- The burn ends with its read-back: the table is in force where it agrees. -/
def ChanState.fuseEnd (ch : ChanState) (ok : Bool) : ChanState :=
  if !ch.bit Reg.RST_FSTS_BUSY then ch else
  let ch := { ch with rst := { ch.rst with fuseProg := true, fuseBad := !ok } }
  let ch := (((ch.put Reg.RST_FSTS_BUSY 0).put Reg.RST_FSTS_PROG 1).putb Reg.RST_FSTS_BAD (!ok)).put Reg.RST_FTAB (fuseTable ch.rst)
  if ok then ch else ch.fault 0x0102 1 none 0xFFFF 0

/-! ### The commands -/

/-- POWER_ON (R409). -/
def execPowerOn (s : State) : Host.Outcome State Fault Refusal := .next s.powerOn

/-- RAIL_LOSS (R460): each rail has the same effect. -/
def execRailLoss (_rail : Rail) (s : State) : Host.Outcome State Fault Refusal := .next s.railLost

/-- RESET_PIN (R406). -/
def execResetPin (c : Chan) (s : State) : Host.Outcome State Fault Refusal := .next (s.pinLow c)

/-- RESET_PIN_RELEASE (R476). -/
def execResetPinRelease (c : Chan) (s : State) : Host.Outcome State Fault Refusal := .next (s.pinHigh c)

/-- SUPERVISOR_WATCHDOG (R406). -/
def execSupervisorWatchdog (c : Chan) (s : State) : Host.Outcome State Fault Refusal := .next (s.liveSource c 4)

/-- ISLAND_WATCHDOG (R406). -/
def execIslandWatchdog (c : Chan) (s : State) : Host.Outcome State Fault Refusal := .next (s.liveSource c 5)

/-- PLL_LOSS_OF_LOCK (R402). -/
def execPllLossOfLock (c : Chan) (s : State) : Host.Outcome State Fault Refusal := .next (s.clockLost c 6)

/-- REFERENCE_LOSS (R402). -/
def execReferenceLoss (c : Chan) (s : State) : Host.Outcome State Fault Refusal := .next (s.clockLost c 7)

/-- CLOCK_RECOVERY (R402). -/
def execClockRecovery (c : Chan) (s : State) : Host.Outcome State Fault Refusal := .next (s.onChan c ChanState.clockBack)

/-- UNCORRECTABLE_SRAM_ERROR (R406). -/
def execUncorrectableSramError (c : Chan) (s : State) : Host.Outcome State Fault Refusal := .next (s.liveSource c 8)

/-- RESET_REQUEST (R406): a write of CHN_RSTREQ; another key is ignored. -/
def execResetRequest (c : Chan) (key : BitVec 16) (s : State) : Host.Outcome State Fault Refusal :=
  let s' := s.onLive c fun ch => ch.hostW .pcie
  .next (if key = 0x57A7 then s'.liveSource c 9 else s')

/-- HOST_RESET_COMMAND (R406): a write of HOST_RST, taken while the channel is held too (R365); another key is ignored. -/
def execHostResetCommand (c : Chan) (key : BitVec 16) (s : State) : Host.Outcome State Fault Refusal :=
  let s' := s.onChan c fun ch => ch.hostW .pcie
  .next (if key = 0x57A7 then s'.source c 3 else s')

/-- OVER_TEMPERATURE (R437): source 10, and LEHR_OTRIP for the report after the start that follows. -/
def execOverTemperature (c : Chan) (s : State) : Host.Outcome State Fault Refusal :=
  .next (if (s.chan c).rst.held then s.onChan c id else (s.source c 10).onChan c fun ch => ch.put Reg.LEHR_OTRIP_TRIP 1)

/-- BROWNOUT (R439). -/
def execBrownout (c : Chan) (s : State) : Host.Outcome State Fault Refusal := .next (s.source c 11)

/-- DOMAIN_STABLE (R403). -/
def execDomainStable (c : Chan) (dom : Fin 7) (s : State) : Host.Outcome State Fault Refusal := live s c fun ch => ch.stable dom.val

/-- TRIM_LOAD_DONE (R413). -/
def execTrimLoadDone (c : Chan) (agree crcOk tabOk : Bool) (s : State) : Host.Outcome State Fault Refusal :=
  .next (s.onChan c fun ch => ch.trimDone agree crcOk tabOk)

/-- COLD_START (R420). -/
def execColdStart (c : Chan) (bistOk selfTestOk : Bool) (s : State) : Host.Outcome State Fault Refusal :=
  .next (s.onChan c fun ch => ch.coldStart bistOk selfTestOk)

/-- WARM_START (R420). -/
def execWarmStart (c : Chan) (digestsOk selfTestOk : Bool) (s : State) : Host.Outcome State Fault Refusal :=
  .next (s.onChan c fun ch => ch.warmStart digestsOk selfTestOk)

/-- POSITION_ACQUISITION_TIMEOUT (R423). -/
def execPositionAcquisitionTimeout (c : Chan) (s : State) : Host.Outcome State Fault Refusal := live s c ChanState.positionTimeout

/-- START_COMPLETE (R29). -/
def execStartComplete (c : Chan) (s : State) : Host.Outcome State Fault Refusal := live s c ChanState.finishStart

/-- BLOCK_RESET_ASSERT (R410): a write of CHN_BRST with ASSERT. -/
def execBlockResetAssert (c : Chan) (blk : BitVec 8) (s : State) : Host.Outcome State Fault Refusal :=
  live s c fun ch => (ch.hostW .pcie).blockAssert blk.toNat

/-- BLOCK_IDLE (R410). -/
def execBlockIdle (c : Chan) (s : State) : Host.Outcome State Fault Refusal := live s c ChanState.blockIdleNow

/-- BLOCK_IDLE_TIMEOUT (R410). -/
def execBlockIdleTimeout (c : Chan) (s : State) : Host.Outcome State Fault Refusal := live s c ChanState.blockTimeout

/-- BLOCK_RESET_RELEASE (R412): a write of CHN_BRST with RELEASE. -/
def execBlockResetRelease (c : Chan) (blk : BitVec 8) (s : State) : Host.Outcome State Fault Refusal :=
  live s c fun ch => (ch.hostW .pcie).releaseAsked blk.toNat

/-- FUSE_PROGRAM (R408): a write of RST_FCMD. -/
def execFuseProgram (c : Chan) (key : BitVec 16) (s : State) : Host.Outcome State Fault Refusal :=
  live s c fun ch => (ch.hostW .pcie).fuseStart key.toNat

/-- FUSE_PROGRAM_DONE (R408). -/
def execFuseProgramDone (c : Chan) (ok : Bool) (s : State) : Host.Outcome State Fault Refusal := live s c fun ch => ch.fuseEnd ok

/-- TAP_INSTRUCTION (R473). -/
def execTapInstruction (i : TapOp) (s : State) : Host.Outcome State Fault Refusal := .next (s.tapRun i)

end Sys2Proof.Machine
end

