-- ==== Sys2Proof/Machine/ChannelCmds.lean ====
section
/-!
DEFINITION. The channel commands of CHN_CMD and the brake delays (R29 to R33, R162, R278); the fault machinery's own commands and the
lehr governor (R428 to R440).
-/
namespace Sys2Proof.Machine

open Sys2Proof

/-! ### CHN_CMD (R29, R30, R33) -/

/-- A rejected command (R33, CHN_STATE.REJC). -/
def ChanState.reject (ch : ChanState) (rc : Nat) : ChanState := (ch.put Reg.CHN_STATE_REJC rc).put Reg.CHN_STATE_REJ 1

/-- A write of CHN_CMD: the key, a fault reaction in the same cycle, BUSY and the state are judged in this order, then the command's own
conditions. -/
def ChanState.chnCmd (ch : ChanState) (key : BitVec 16) (coin : Bool) (from_ : List Nat) (f : ChanState → ChanState) : ChanState :=
  if key ≠ 0x57A7 then ch.reject 3
  else if coin then ch.reject 8
  else if ch.bit Reg.CHN_STATE_BUSY then ch.reject 2
  else if !from_.contains (ch.get Reg.CHN_STATE_CODE) then ch.reject 1
  else f ch

/-- The nodes that carry a bound joint: bricks and drives. -/
def ChanState.jointNodes (ch : ChanState) : List Nat :=
  (List.range 64).filterMap fun j => if decide (3 ≤ ch.get (Reg.JNT_BIND_KIND j)) then some (ch.get (Reg.JNT_BIND_NODE j)) else none

/-- Why GO_READY is not carried out, 0 where it is (R30, R269). -/
def ChanState.readyReason (ch : ChanState) : Nat :=
  if 2 ≤ ch.classAny then 4
  else if (List.range 4).any fun g => ch.bit (Reg.SAF_STOCFG_EN g) && !ch.bit (Reg.SAF_STOSTS_PERM g) then 5
  else if !ch.positionsValid then 6
  else if !ch.transmits || ch.jointNodes.any (fun n => !ch.nodePresent n) then 7
  else 0

/-- The longest release time of the local brakes in use, in ns (R162). -/
def ChanState.releaseTime (ch : ChanState) : Nat :=
  1000000 * forUpto 16 0 fun i m => if ch.bit (Reg.BRK_CFG_EN i) then max m (ch.get (Reg.BRK_CFG_RELT i)) else m

/-- GO_READY: groups are energised, torque comes on and brakes are released; READY follows after their release time (R30, R162). -/
def ChanState.readyStart (ch : ChanState) : ChanState :=
  let rc := ch.readyReason
  if rc ≠ 0 then ch.reject rc else
  let ch := { ch with goingReady := true, readyAt := ch.mono + ch.releaseTime }.put Reg.CHN_STATE_BUSY 1
  ch.groupsReview

/-- Every brake has been released for its time (R162). -/
def ChanState.readyDone (ch : ChanState) : ChanState :=
  if !ch.goingReady then ch else (ch.advanceMono ch.readyAt).goState 4 1

/-- STOP: every arm stops with its segments kept, through STOPPING with target READY (R29). -/
def ChanState.stopAll (ch : ChanState) : ChanState :=
  let ch := (ch.goState 6 1).put Reg.CHN_STATE_TARGET 4
  ch.boundArms.foldl (fun ch k => ch.setArm k { ch.arm k with stopL := StopKind.max (ch.arm k).stopL (some .keep) }) ch

/-- Clears the marks of a stop on an arm: torque may come on again, the gates disabled under R92 and R93 with it (R431). -/
def ChanState.armCleared (ch : ChanState) (k : Nat) : ChanState :=
  let ch := ch.setArm k { ch.arm k with torqueOff := false, f2Since := none }
  (ch.armJoints k).foldl (fun ch j => ch.put (Reg.JNT_STS_GOFF j) 0) ch

/-- LOCKOUT_ACK: with no F2 or F3 cause present and a qualified reset, which it uses up; clears the faults and the marker (R278, R424,
R431). -/
def ChanState.lockoutEnd (ch : ChanState) : ChanState :=
  if ch.flt.active.any fun a => decide (2 ≤ a.cls) && ch.causePresent a then ch.reject 4
  else if !ch.bit Reg.SAF_STS_RSTQ then ch.reject 5
  else
    let ch := ch.dropReset
    let ch := ({ ch with flt := { ch.flt with active := ch.flt.active.filter fun a => decide (a.cls < 2) }, lockMark := false }).fltShow
    let ch := (forUpto 8 ch fun k ch => ch.armCleared k).put Reg.RST_STS_LMARK 0
    (ch.goState (if ch.cfg.refused then 2 else 3) 7).surgeReview

/-- The brakes of arm `k` have engaged after a category 1 stop: its torque goes off, and what waits for it goes on (R162). -/
def ChanState.brakesEngaged (ch : ChanState) (k : Nat) : ChanState :=
  match (ch.arm k).engaging with
  | none => ch
  | some t =>
    let ch := ch.advanceMono t
    let ch := ch.setArm k { ch.arm k with engaging := none, torqueOff := true, f2Since := none }
    ch.torqueReview.ss1Check.stopComplete

/-! ### Fault machinery (R428 to R434) -/

/-- The end of a matrix cycle: time moves there, and each F1 without a cause in the whole cycle ends (R428). -/
def ChanState.f1Sweep (ch : ChanState) : ChanState :=
  let t := (ch.now + 255999) / 256000 * 256000
  let ch := ch.advanceTo t
  let m := t / 256000
  ({ ch with flt := { ch.flt with active := ch.flt.active.filter fun a => a.cls != 1 || a.held || decide (m < a.lastMc + 2) } }).fltShow

/-- F2TMO has passed for arm `k` before its stop is complete: torque off and brakes at that instant (R429). -/
def ChanState.f2Late (ch : ChanState) (k : Nat) : ChanState :=
  match (ch.arm k).f2Since with
  | none => ch
  | some t =>
    if ch.get (Reg.PRF_ASTS_ASTATE k) = 5 then ch else
    let ch := (ch.advanceMono (t + 10000000 * ch.get Reg.FLT_CFG_F2TMO)).armCut k
    ((ch.put Reg.FLT_ACT_F2TO 1).torqueReview.ss1Check).stopComplete

/-- Whether a fault is an F2 of a scope a write of FLT_ACK names. -/
def ackNames (v : Nat) (a : Active) : Bool :=
  a.cls == 2 && match a.scope with | none => tbit v 8 | some k => tbit v k

/-- The arms a write of FLT_ACK concerns: those it names, every bound arm with CH. -/
def ChanState.ackArms (ch : ChanState) (v : Nat) : List Nat := ch.boundArms.filter fun k => tbit v 8 || tbit v k

/-- Why a write of FLT_ACK clears nothing, 0 where it clears (R431). -/
def ChanState.ackReason (ch : ChanState) (v : Nat) : Nat :=
  if v / 2 ^ 16 ≠ 0x57A7 then 4
  else if ch.f3 then 3
  else if (ch.ackArms v).any fun k => ch.get (Reg.PRF_ASTS_ASTATE k) != 5 || (ch.armJoints k).any (fun j => !ch.bit (Reg.JNT_STS_TOFF j)) then 1
  else if ch.flt.active.any fun a => ackNames v a && ch.causePresent a then 2
  else 0

/-- A write of FLT_ACK: clears every F2 it names, or nothing (R431). -/
def ChanState.ackFaults (ch : ChanState) (v : Nat) : ChanState :=
  let rc := ch.ackReason v
  let ch := ch.put Reg.FLT_ACKSTS_RC rc
  if rc ≠ 0 then ch.put Reg.FLT_ACKSTS_REJ 1 else
  let arms := ch.ackArms v
  let ch := ({ ch with flt := { ch.flt with active := ch.flt.active.filter fun a => !ackNames v a } }).fltShow
  let ch := arms.foldl (fun ch k => if ch.classInForce (some k) < 2 then ch.armCleared k else ch) ch
  ch.groupsReview.surgeReview

/-- FLT_QPOP; an occurrence that merges into the popped record in that cycle is lost from the queue (R433, R440). -/
def ChanState.popFault (ch : ChanState) (merged : Bool) : ChanState :=
  let ch := if merged && !ch.flt.queue.isEmpty then (ch.add Reg.FLT_TOTAL 1).put Reg.FLT_QSTS_MLOST 1 else ch
  ({ ch with flt := { ch.flt with queue := ch.flt.queue.drop 1 } }).qShow

/-- The oldest record that waits for the flash ring is written, as entry 0 (R434). -/
def ChanState.ringWrite (ch : ChanState) : ChanState :=
  match ch.flt.toRing with
  | r :: rest =>
    if ch.flashBusy then ch
    else { ch with flt := { ch.flt with toRing := rest }, ring := { body := r, wtime := ch.mono, pend := none } :: ch.ring.take 15 }
  | [] => ch

/-- An entry with merges waiting is written again, one second after its last write (R434). -/
def ChanState.ringRewrite (ch : ChanState) : ChanState :=
  match (ch.ring.filterMap fun e => e.pend.map fun _ => e.wtime).min? with
  | none => ch
  | some t =>
    let ch := ch.advanceMono (t + 1000000000)
    if ch.flashBusy then ch else
    { ch with ring := ch.ring.map fun e => match e.pend with
        | some r => if e.wtime + 1000000000 ≤ ch.mono then { body := r, wtime := ch.mono, pend := none } else e
        | none => e }

/-! ### Lehr governor (R436 to R439) -/

/-- A threshold with its 5 °C of hysteresis, in 0.125 °C. -/
def tripped (was : Bool) (tj thr : Int) : Bool := decide (thr ≤ tj) || (was && decide (thr - 40 < tj))

/-- An event for a threshold crossed (R438). -/
def ChanState.crossed (ch : ChanState) (was is : Bool) : ChanState := if was == is then ch else ch.event 0x37

/-- The governor acts on the readings: spread, too few sensors, Tj against its thresholds, surge (R436 to R438). -/
def ChanState.govern (ch : ChanState) : ChanState :=
  let v := (List.range 4).filterMap fun n => if ch.bit (Reg.LEHR_TJ_VALID n) then some (ch.geti (Reg.LEHR_TJ_T n)) else none
  let spread := match v.max?, v.min? with | some a, some b => decide (80 < a - b) | _, _ => false
  let ch := (if spread then ch.put Reg.LEHR_STS_SPREAD 1 else ch).lasting 0x0E04 1 none 0xFFFF spread
  let ch := ch.lasting 0x0E06 2 none 0xFFFF (decide (3 ≤ ((List.range 4).filter fun n => tbit ch.lehr.bad n).length))
  match v.max? with
  | none => ch.surgeReview
  | some tj =>
    let old := ch.lehr
    let slim := tripped old.slim tj (8 * ch.get Reg.LEHR_CFG_SLIM)
    let hot := tripped old.hot tj 920
    let tooHot := tripped old.tooHot tj 1000
    let ch := { ch with lehr := { old with slim, hot, tooHot, seen := true } }
    let ch := if ch.geti Reg.LEHR_TJMAX_T < tj ∨ !old.seen then ch.puti Reg.LEHR_TJMAX_T tj else ch
    let ch := ((ch.crossed old.slim slim).crossed old.hot hot).crossed old.tooHot tooHot
    let ch := ((ch.putb Reg.LEHR_STS_HOT hot).putb Reg.LEHR_STS_HALF hot).putb Reg.SLV_STS_HALF hot
    let ch := (ch.lasting 0x0E01 1 none 0xFFFF hot).lasting 0x0E02 2 none 0xFFFF tooHot
    ch.surgeReview

/-- A sensor's standing: valid or not, with its F1 (R436). -/
def ChanState.sensorMark (ch : ChanState) (n : Nat) (ok : Bool) : ChanState :=
  let ch := { ch with lehr := { ch.lehr with bad := insertBits ch.lehr.bad n 1 (b2n !ok) } }
  (ch.putb (Reg.LEHR_TJ_VALID n) ok).lasting 0x0E04 1 none n (!ok)

/-- A conversion of sensor `n`: the mean of the last four, whose rounding is free, then the governor (R436, R437). -/
def ChanState.converted (ch : ChanState) (n : Nat) (t : Int) : ChanState :=
  let l := (t :: Tab.get ch.lehr.conv [] n).take 4
  let ch := { ch with lehr := { ch.lehr with conv := Tab.set ch.lehr.conv [] n l, at_ := Tab.set ch.lehr.at_ 0 n ch.mono } }
  let m := divFree ch.fresh l.sum l.length
  let ch := ch.nextFresh.puti (Reg.LEHR_TJ_T n) m
  (ch.sensorMark n (decide (-440 ≤ m) && decide (m ≤ 1200))).govern

/-- No conversion of sensor `n` for 1 ms (R436). -/
def ChanState.sensorLost (ch : ChanState) (n : Nat) : ChanState :=
  let ch := ch.advanceMono (Tab.get ch.lehr.at_ 0 n + 1000000)
  let ch := { ch with lehr := { ch.lehr with conv := Tab.set ch.lehr.conv [] n [] } }
  (ch.sensorMark n false).govern

/-- Surge has run for 8 s: its period ends at the next end of a solver task (R438). -/
def ChanState.surgeFull (ch : ChanState) : ChanState :=
  match ch.lehr.since with
  | none => ch
  | some t =>
    let ch := ch.advanceMono (t + 8000000000)
    ({ ch with lehr := { ch.lehr with limit := true } }).surgeReview

/-- The rest after a period is over (R438). -/
def ChanState.surgeRested (ch : ChanState) : ChanState :=
  match ch.lehr.rest with
  | none => ch
  | some t =>
    let ch := ch.advanceMono t
    (({ ch with lehr := { ch.lehr with rest := none } }).put Reg.LEHR_STS_REST 0).surgeReview

/-- A droop of VDD: counted, surge withdrawn (R439). -/
def ChanState.droop (ch : ChanState) : ChanState :=
  let ch := (ch.put Reg.LEHR_STS_DROOP 1).add Reg.LEHR_DROOP 1
  (ch.raise 0x0E05 1 none 0xFFFF 0 true).surgeReview

/-- VDD is back (R439). -/
def ChanState.droopOver (ch : ChanState) : ChanState :=
  ((ch.put Reg.LEHR_STS_DROOP 0).causeGone 0x0E05 none 0xFFFF).surgeReview

/-! ### The commands -/

/-- GO_READY (R30). -/
def execGoReady (c : Chan) (key : BitVec 16) (coin : Bool) (s : State) : Host.Outcome State Fault Refusal :=
  live s c fun ch => (ch.hostW .pcie).chnCmd key coin [3] ChanState.readyStart

/-- GO_RUN (R29). -/
def execGoRun (c : Chan) (key : BitVec 16) (coin : Bool) (s : State) : Host.Outcome State Fault Refusal :=
  live s c fun ch => (ch.hostW .pcie).chnCmd key coin [4] fun ch => ch.goState 5 1

/-- STOP (R29). -/
def execStop (c : Chan) (key : BitVec 16) (coin : Bool) (s : State) : Host.Outcome State Fault Refusal :=
  live s c fun ch => (ch.hostW .pcie).chnCmd key coin [5] ChanState.stopAll

/-- TO_SAFE_IDLE (R29). -/
def execToSafeIdle (c : Chan) (key : BitVec 16) (coin : Bool) (s : State) : Host.Outcome State Fault Refusal :=
  live s c fun ch => (ch.hostW .pcie).chnCmd key coin [4] fun ch => ch.goState 3 1

/-- MAINTAIN (R29). -/
def execMaintain (c : Chan) (key : BitVec 16) (coin : Bool) (s : State) : Host.Outcome State Fault Refusal :=
  live s c fun ch => (ch.hostW .pcie).chnCmd key coin [3] fun ch => ch.goState 8 1

/-- RESTART (R32). -/
def execRestart (c : Chan) (key : BitVec 16) (coin : Bool) (s : State) : Host.Outcome State Fault Refusal :=
  live s c fun ch => (ch.hostW .pcie).chnCmd key coin [2, 8] fun ch => ch.internalReset 1

/-- LOCKOUT_ACK (R278). -/
def execLockoutAck (c : Chan) (key : BitVec 16) (coin : Bool) (s : State) : Host.Outcome State Fault Refusal :=
  live s c fun ch => (ch.hostW .pcie).chnCmd key coin [7] ChanState.lockoutEnd

/-- BRAKE_RELEASE_DONE (R162). -/
def execBrakeReleaseDone (c : Chan) (s : State) : Host.Outcome State Fault Refusal := live s c ChanState.readyDone

/-- BRAKE_ENGAGE_DONE (R162). -/
def execBrakeEngageDone (c : Chan) (k : Fin 8) (s : State) : Host.Outcome State Fault Refusal := live s c fun ch => ch.brakesEngaged k.val

/-- F1_END (R428). -/
def execF1End (c : Chan) (s : State) : Host.Outcome State Fault Refusal := live s c ChanState.f1Sweep

/-- F2_TIMEOUT (R429). -/
def execF2Timeout (c : Chan) (k : Fin 8) (s : State) : Host.Outcome State Fault Refusal := live s c fun ch => ch.f2Late k.val

/-- FLT_ACK (R431). -/
def execFltAck (c : Chan) (v : Word) (s : State) : Host.Outcome State Fault Refusal :=
  live s c fun ch => (ch.hostW .pcie).ackFaults v.toNat

/-- FLT_QPOP (R433). -/
def execFltQpop (c : Chan) (merged : Bool) (s : State) : Host.Outcome State Fault Refusal :=
  live s c fun ch => (ch.hostW .pcie).popFault merged

/-- FLASH_RING_WRITE (R434). -/
def execFlashRingWrite (c : Chan) (s : State) : Host.Outcome State Fault Refusal := live s c ChanState.ringWrite

/-- FLASH_RING_REWRITE (R434). -/
def execFlashRingRewrite (c : Chan) (s : State) : Host.Outcome State Fault Refusal := live s c ChanState.ringRewrite

/-- SENSOR_CONVERSION (R436): a reading of 135 °C or more is reset source 10 (R437). -/
def execSensorConversion (c : Chan) (n : Fin 4) (t : BitVec 12) (s : State) : Host.Outcome State Fault Refusal :=
  let s' := s.onLive c fun ch => ch.converted n.val t.toInt
  let ch := s'.chan c
  if s'.present c && !ch.rst.held && decide (1080 ≤ ch.geti (Reg.LEHR_TJ_T n.val)) then
    .next ((s'.source c 10).onChan c fun ch => ch.put Reg.LEHR_OTRIP_TRIP 1)
  else .next s'

/-- SENSOR_TIMEOUT (R436). -/
def execSensorTimeout (c : Chan) (n : Fin 4) (s : State) : Host.Outcome State Fault Refusal := live s c fun ch => ch.sensorLost n.val

/-- SURGE_PERIOD_LIMIT (R438). -/
def execSurgePeriodLimit (c : Chan) (s : State) : Host.Outcome State Fault Refusal := live s c ChanState.surgeFull

/-- SURGE_REST_END (R438). -/
def execSurgeRestEnd (c : Chan) (s : State) : Host.Outcome State Fault Refusal := live s c ChanState.surgeRested

/-- VDD_DROOP (R439). -/
def execVddDroop (c : Chan) (s : State) : Host.Outcome State Fault Refusal := live s c ChanState.droop

/-- DROOP_END (R439). -/
def execDroopEnd (c : Chan) (s : State) : Host.Outcome State Fault Refusal := live s c ChanState.droopOver

end Sys2Proof.Machine
end

