-- ==== Sys2Proof/Machine/Update.lean ====
section
/-!
DEFINITION. The slot commands and the re-binding (R391 to R397); the firmware update (R443 to R452).
-/
namespace Sys2Proof.Machine

open Sys2Proof

/-! ### Writing a slot (R391 to R393) -/

/-- `n` bytes of the staging window from its start. -/
def ChanState.staged (ch : ChanState) (n : Nat) : List Byte := (List.range n).map fun i => Tab.get ch.cfg.stage 0 i

/-- The image that is staged, as far as its LEN says; none where LEN is out of range (R388, R391). -/
def ChanState.stagedImage (ch : ChanState) : Option (List Byte) :=
  let n := imgLen (ch.staged 128)
  if n < 128 ∨ 4194304 < n then none else
  let bs := ch.staged n
  if slotValid bs then some bs else none

/-- Whether the channel takes a slot command: in COMMISSION or MAINTENANCE, with no slot command and no update running and its flash port
in service (R391, R397, R410, R445). -/
def ChanState.slotReady (ch : ChanState) : Bool :=
  ch.unlocked && !ch.bit Reg.CFG_STS_BUSY && !ch.bit Reg.UPD_STS_ACTIVE && !ch.blockQuiet 4

/-- The slot that was not chosen at the last start (R391). -/
def ChanState.targetSlot (ch : ChanState) : Nat := 1 - ch.get Reg.CFG_STS_ACT

/-- A slot's content. -/
def ChanState.setSlot (ch : ChanState) (n : Nat) (bs : List Byte) : ChanState :=
  { ch with nvm := { ch.nvm with slots := Tab.set ch.nvm.slots [] n bs } }

/-- A slot's write count as it is shown (R392). -/
def ChanState.wearShow (ch : ChanState) (n : Nat) : ChanState :=
  let w := Tab.get ch.nvm.wear 0 n
  (ch.put (Reg.CFG_SLOT_WCNT_WCNT n) w).putb (Reg.CFG_SLOT_WCNT_WEAR n) (decide (100000 < w))

/-- Starts writing image `bs` to the target slot: its count first, then the erase; WCNT goes into the header (R391, R392). -/
def ChanState.slotWrite (ch : ChanState) (bs : List Byte) : ChanState :=
  let n := ch.targetSlot
  let w := Tab.get ch.nvm.wear 0 n + 1
  let ch := ({ ch with nvm := { ch.nvm with wear := Tab.set ch.nvm.wear 0 n w } }).wearShow n
  let ch := if 100000 < w then ch.fault 0x0208 0 none n 0 else ch
  let ch := ch.setSlot n []
  ({ ch with cfg := { ch.cfg with job := some { write := true, slot := n, bytes := patch bs 32 (leBytes 4 w) } } }.put
    Reg.CFG_STS_BUSY 1).put Reg.CHN_STATE_BUSY 1

/-- A refused slot command. -/
def ChanState.cfgRefuse (ch : ChanState) (res : Nat) : ChanState := ch.put Reg.CFG_STS_RES res

/-- ISEQ of the slot chosen at the last start; none where none was (R389, R391). -/
def ChanState.chosenSeq (ch : ChanState) : Option Nat :=
  let n := ch.get Reg.CFG_STS_ACT
  if ch.bit (if n = 0 then Reg.CFG_STS_VALID0 else Reg.CFG_STS_VALID1) then some (ch.get (Reg.CFG_SLOT_SEQ n)) else none

/-- CFG_CMD WRITE: the staged image must be valid and ahead of the chosen slot's (R376, R391, R397). -/
def ChanState.cfgWrite (ch : ChanState) (key : BitVec 16) : ChanState :=
  if key ≠ 0x57A7 then ch
  else if !ch.slotReady || ch.nvm.sfdp == 0 then ch.cfgRefuse 0xB
  else match ch.stagedImage with
    | none => ch.cfgRefuse 6
    | some bs =>
      if ch.chosenSeq.any fun q => decide (wrapS 32 ((imgSeq bs : Int) - q) ≤ 0) then ch.cfgRefuse 7 else ch.slotWrite bs

/-- The end of a slot command. -/
def ChanState.slotIdle (ch : ChanState) : ChanState :=
  ({ ch with cfg := { ch.cfg with job := none } }.put Reg.CFG_STS_BUSY 0).put Reg.CHN_STATE_BUSY 0

/-- The slot write ends with its read-back (R391): one that fails leaves the slot not valid. -/
def ChanState.cfgWriteEnd (ch : ChanState) (ok : Bool) : ChanState :=
  match ch.cfg.job with
  | some ⟨true, n, bs⟩ =>
    let ch := ch.slotIdle
    if ok then (ch.setSlot n bs).put Reg.CFG_STS_RES 1
    else ((ch.put Reg.CFG_STS_RES 8).incSat Reg.NVM_ERR_PROG).fault 0x0207 1 none n 0
  | _ => ch

/-- CFG_CMD INVALIDATE: the first 64 KB of the chosen slot are erased, provided the other slot is valid (R393). -/
def ChanState.cfgInvalidate (ch : ChanState) (key : BitVec 16) : ChanState :=
  if key ≠ 0x57A7 then ch
  else if !ch.slotReady then ch.cfgRefuse 0xB
  else if !slotValid (ch.slot ch.targetSlot) then ch.cfgRefuse 9
  else
    let n := ch.get Reg.CFG_STS_ACT
    let old := ch.slot n
    let bs := List.replicate (min 65536 old.length) 0xFF ++ old.drop 65536
    { ch with cfg := { ch.cfg with job := some { write := false, slot := n, bytes := bs } } }.setSlot n bs |>.put Reg.CFG_STS_BUSY 1

/-- The erase ends (R393). -/
def ChanState.cfgInvalidateEnd (ch : ChanState) : ChanState :=
  match ch.cfg.job with
  | some ⟨false, _, _⟩ => ({ ch with cfg := { ch.cfg with job := none } }.put Reg.CFG_STS_BUSY 0).put Reg.CFG_STS_RES 1
  | _ => ch

/-! ### Re-binding (R396) -/

/-- The chosen image bound to this package: BIND, ISEQ and SHA written anew (R396). -/
def ChanState.rebound (ch : ChanState) : List Byte :=
  let old := ch.slot (ch.get Reg.CFG_STS_ACT)
  let bs := old.take (imgLen old)
  let bs := patch (patch bs 16 (leBytes 8 ch.devid.toNat)) 8 (leBytes 4 (imgSeq bs + 1))
  patch bs 64 (imageSha bs)

/-- Sets or clears BARM, with its end. -/
def ChanState.bindArm (ch : ChanState) (t : Option Nat) : ChanState :=
  { ch with cfg := { ch.cfg with barm := t } }.putb Reg.CFG_STS_BARM t.isSome

/-- A write of CFG_BIND: only in COMMISSION with RES = 0x5; the right code arms for 10 s; the right code again, with a qualified reset,
uses that up and writes the re-bound copy (R396, R397). -/
def ChanState.bindWrite (ch : ChanState) (v : Nat) : ChanState :=
  let refuse := (ch.bindArm none).cfgRefuse 0xA
  if ch.get Reg.CHN_STATE_CODE ≠ 2 ∨ ch.get Reg.CFG_STS_RES ≠ 5 ∨ !ch.slotReady ∨ ch.nvm.sfdp = 0 ∨ v ≠ ch.get Reg.CHN_ID_BCODE then refuse
  else if ch.cfg.barm.isNone then ch.bindArm (some (ch.mono + 10000000000))
  else if !ch.bit Reg.SAF_STS_RSTQ then refuse
  else (ch.dropReset.bindArm none).slotWrite ch.rebound

/-- The 10 s after the first write run out (R396). -/
def ChanState.bindExpire (ch : ChanState) : ChanState :=
  match ch.cfg.barm with
  | none => ch
  | some t => (ch.advanceMono t).bindArm none

/-! ### The update (R444 to R450) -/

/-- A refused block or command. -/
def ChanState.updRefuse (ch : ChanState) (res : Nat) : ChanState := (ch.put Reg.UPD_STS_RES res).put Reg.UPD_STS_BREF 1

/-- The progress record, and RESUMABLE with it (R449). -/
def ChanState.setProg (ch : ChanState) (p : Option Progress) : ChanState :=
  { ch with nvm := { ch.nvm with prog := p } }.putb Reg.UPD_STS_RESUMABLE p.isSome

/-- Starts, or ends, an update command's flash work. -/
def ChanState.setUpd (ch : ChanState) (j : Option UpdJob) : ChanState :=
  { ch with cfg := { ch.cfg with upd := j } }.putb Reg.UPD_STS_BUSY j.isSome

/-- Why START or RESUME is not carried out, 0 where it is (R445, R451). -/
def ChanState.updGate (ch : ChanState) : Nat :=
  let c := ch.get Reg.CHN_STATE_CODE
  if (c ≠ 8 ∧ c ≠ 0xB) ∨ ch.bit Reg.UPD_STS_BUSY ∨ ch.bit Reg.CFG_STS_BUSY ∨ ch.blockQuiet 4 then 2
  else if ch.nvm.sfdp = 0 then 0xD else 0

/-- START: takes UPD_LEN; the progress record and the installed header are erased (R446). -/
def ChanState.updStart (ch : ChanState) (key : BitVec 16) : ChanState :=
  if key ≠ 0x57A7 then ch else
  let g := ch.updGate
  if g ≠ 0 then ch.updRefuse g else
  let ch := { ch with nvm := { ch.nvm with fwHead := [] }, cfg := { ch.cfg with updLen := ch.get Reg.UPD_LEN_LEN, head := [] } }
  (((ch.setProg none).put Reg.UPD_NEXT_NEXT 0).put Reg.UPD_STS_ACTIVE 1).setUpd (some .start)

/-- RESUME: the progress record gives length, position and kept header (R449). -/
def ChanState.updResume (ch : ChanState) (key : BitVec 16) : ChanState :=
  if key ≠ 0x57A7 then ch else
  let g := ch.updGate
  if g ≠ 0 then ch.updRefuse g else
  match ch.nvm.prog with
  | none => ch.updRefuse 0xB
  | some p =>
    let ch := { ch with cfg := { ch.cfg with updLen := p.len, head := p.head } }
    ((((ch.put Reg.UPD_LEN_LEN p.len).put Reg.UPD_NEXT_NEXT p.next).put Reg.UPD_NEWVER (leAt p.head 8 4)).put Reg.UPD_STS_ACTIVE 1).put
      Reg.UPD_STS_RES 1

/-- The end of START's erase (R446). -/
def ChanState.updStartEnd (ch : ChanState) : ChanState :=
  match ch.cfg.upd with
  | some .start => (ch.setUpd none).put Reg.UPD_STS_RES 1
  | _ => ch

/-- Why a block is refused, 0 where it is accepted, in the order of R447's table. -/
def ChanState.blockReason (ch : ChanState) (bs : List Byte) : Nat :=
  let ofs := ch.get Reg.UPD_BOFS_OFS
  let len := ch.get Reg.UPD_BLEN_LEN
  let h := fwHeaderCheck (ch.get Reg.CHN_ID_STEP) bs
  if ofs ≠ ch.get Reg.UPD_NEXT_NEXT ∨ len % 4 ≠ 0 ∨ len = 0 ∨ 4096 < len ∨ (len < 4096 ∧ ofs + len ≠ ch.cfg.updLen) then 4
  else if crc32 bs ≠ ch.get Reg.UPD_BCRC then 3
  else if ofs ≠ 0 then 0
  else if h ≠ 0 then h
  else if leAt bs 12 4 ≠ ch.cfg.updLen then 5
  else if leAt bs 8 4 < ch.nvm.curver then 6
  else if leAt bs 16 1 < ch.nvm.floor then 7
  else 0

/-- BLOCK: checked, then programmed; the block at offset 0 is kept (R447). -/
def ChanState.updBlock (ch : ChanState) (key : BitVec 16) : ChanState :=
  if key ≠ 0x57A7 then ch
  else if !ch.bit Reg.UPD_STS_ACTIVE || ch.bit Reg.UPD_STS_BUSY then ch.updRefuse 2
  else
    let bs := ch.staged (ch.get Reg.UPD_BLEN_LEN)
    let r := ch.blockReason bs
    if r ≠ 0 then (ch.updRefuse r).fault 0x0F01 0 none 0xFFFF 0
    else ch.setUpd (some (.block (ch.get Reg.UPD_BOFS_OFS) bs))

/-- A block is programmed and read back: UPD_NEXT and the progress record go on, or F1 (R447). -/
def ChanState.updBlockEnd (ch : ChanState) (ok : Bool) : ChanState :=
  match ch.cfg.upd with
  | some (.block ofs bs) =>
    let ch := ch.setUpd none
    if ofs ≠ 0 ∧ !ok then ((ch.put Reg.UPD_STS_RES 0xA).incSat Reg.NVM_ERR_PROG).fault 0x0F04 1 none 0xFFFF 0 else
    let ch := if ofs = 0 then { ch with cfg := { ch.cfg with head := bs } }.put Reg.UPD_NEWVER (leAt bs 8 4)
      else { ch with nvm := { ch.nvm with fwBody := ch.nvm.fwBody.take (ofs - 4096) ++ bs } }
    let next := ofs + bs.length
    let ch := (ch.put Reg.UPD_NEXT_NEXT next).setProg (some { len := ch.cfg.updLen, next, head := ch.cfg.head })
    ((ch.put Reg.UPD_STS_RES 1).add Reg.UPD_BLKCNT 1).event 0x38
  | _ => ch

/-- FINISH: taken when the whole image has been accepted (R448). -/
def ChanState.updFinish (ch : ChanState) (key : BitVec 16) : ChanState :=
  if key ≠ 0x57A7 then ch
  else if !ch.bit Reg.UPD_STS_ACTIVE || ch.bit Reg.UPD_STS_BUSY then ch.updRefuse 2
  else if ch.get Reg.UPD_NEXT_NEXT ≠ ch.cfg.updLen then ch.updRefuse 4
  else ch.setUpd (some .finish)

/-- The end of an update without an admitted image: nothing to resume, the header stays erased (R448, R450). -/
def ChanState.updDrop (ch : ChanState) : ChanState :=
  ({ ch with cfg := { ch.cfg with head := [] } }.setProg none).put Reg.UPD_STS_ACTIVE 0

/-- Whether Tj is above 85 °C (R408, R448). -/
def ChanState.burnHot (ch : ChanState) : Bool :=
  (List.range 4).any fun n => ch.bit (Reg.LEHR_TJ_VALID n) && decide (8 * 85 < ch.geti (Reg.LEHR_TJ_T n))

/-- The floor after a burn up to `svn`: a burn that fails leaves a free number of its steps burned (R448). -/
def ChanState.burnFloor (ch : ChanState) (svn : Nat) (ok : Bool) : ChanState :=
  let old := ch.nvm.floor
  let n := if ok then svn else old + (Config.free ch.fresh).toNat % (svn - old + 1)
  let ch := ({ ch with nvm := { ch.nvm with floor := n } }.nextFresh).put Reg.UPD_FLOOR_STEPS n
  if ok then ch else (ch.put Reg.UPD_STS_RES 0xC).fault 0x0F06 1 none 0xFFFF 0

/-- Steps 4 and 5 of R448: the header, then the version last admitted and the cold start. -/
def ChanState.updAdmit (ch : ChanState) (progOk : Bool) : ChanState :=
  if !progOk then ((ch.put Reg.UPD_STS_RES 0xA).incSat Reg.NVM_ERR_PROG).fault 0x0F04 1 none 0xFFFF 0 else
  let ch := { ch with nvm := { ch.nvm with fwHead := ch.cfg.head, curver := leAt ch.cfg.head 8 4, prog := none } }
  ch.internalReset 2

/-- The sequence of FINISH: digest, signature, floor, header, restart; the first error ends it (R448). -/
def ChanState.updFinishEnd (ch : ChanState) (sigOk burnOk progOk : Bool) : ChanState :=
  match ch.cfg.upd with
  | some .finish =>
    let ch := ch.setUpd none
    let h := ch.cfg.head
    let digest := fwSha ((h ++ ch.nvm.fwBody).take ch.cfg.updLen) == (h.drop 32).take 32
    if !digest || !sigOk then
      (ch.updDrop.put Reg.UPD_STS_RES (if digest then 9 else 8)).fault 0x0F02 1 none 0xFFFF 0
    else
      let svn := leAt h 16 1
      if tbit (leAt h 17 1) 0 && decide (ch.nvm.floor < svn) then
        if ch.burnHot then ch.put Reg.UPD_STS_RES 0xC else
        let ch := ch.burnFloor svn burnOk
        if burnOk then ch.updAdmit progOk else ch
      else ch.updAdmit progOk
  | _ => ch

/-- ABORT: ends a running update (R450). -/
def ChanState.updAbort (ch : ChanState) (key : BitVec 16) : ChanState :=
  if key ≠ 0x57A7 then ch
  else if !ch.bit Reg.UPD_STS_ACTIVE || ch.bit Reg.UPD_STS_BUSY then ch.updRefuse 2
  else (ch.updDrop.put Reg.UPD_NEXT_NEXT 0).put Reg.UPD_STS_RES 1

/-! ### The commands -/

/-- CFG_WRITE (R391). -/
def execCfgWrite (c : Chan) (key : BitVec 16) (s : State) : Host.Outcome State Fault Refusal :=
  live s c fun ch => (ch.hostW .pcie).cfgWrite key

/-- CFG_WRITE_DONE (R391). -/
def execCfgWriteDone (c : Chan) (ok : Bool) (s : State) : Host.Outcome State Fault Refusal := live s c fun ch => ch.cfgWriteEnd ok

/-- CFG_INVALIDATE (R393). -/
def execCfgInvalidate (c : Chan) (key : BitVec 16) (s : State) : Host.Outcome State Fault Refusal :=
  live s c fun ch => (ch.hostW .pcie).cfgInvalidate key

/-- CFG_INVALIDATE_DONE (R393). -/
def execCfgInvalidateDone (c : Chan) (s : State) : Host.Outcome State Fault Refusal := live s c ChanState.cfgInvalidateEnd

/-- BIND_WRITE (R396). -/
def execBindWrite (c : Chan) (v : Word) (s : State) : Host.Outcome State Fault Refusal :=
  live s c fun ch => (ch.hostW .pcie).bindWrite v.toNat

/-- BIND_ARM_EXPIRY (R396). -/
def execBindArmExpiry (c : Chan) (s : State) : Host.Outcome State Fault Refusal := live s c ChanState.bindExpire

/-- UPDATE_START (R446). -/
def execUpdateStart (c : Chan) (key : BitVec 16) (s : State) : Host.Outcome State Fault Refusal :=
  live s c fun ch => (ch.hostW .pcie).updStart key

/-- UPDATE_START_DONE (R446). -/
def execUpdateStartDone (c : Chan) (s : State) : Host.Outcome State Fault Refusal := live s c ChanState.updStartEnd

/-- UPDATE_RESUME (R449). -/
def execUpdateResume (c : Chan) (key : BitVec 16) (s : State) : Host.Outcome State Fault Refusal :=
  live s c fun ch => (ch.hostW .pcie).updResume key

/-- BLOCK (R447). -/
def execBlock (c : Chan) (key : BitVec 16) (s : State) : Host.Outcome State Fault Refusal :=
  live s c fun ch => (ch.hostW .pcie).updBlock key

/-- BLOCK_PROGRAM_DONE (R447). -/
def execBlockProgramDone (c : Chan) (ok : Bool) (s : State) : Host.Outcome State Fault Refusal := live s c fun ch => ch.updBlockEnd ok

/-- FINISH (R448). -/
def execFinish (c : Chan) (key : BitVec 16) (s : State) : Host.Outcome State Fault Refusal :=
  live s c fun ch => (ch.hostW .pcie).updFinish key

/-- UPDATE_FINISH_DONE (R448). -/
def execUpdateFinishDone (c : Chan) (sigOk burnOk progOk : Bool) (s : State) : Host.Outcome State Fault Refusal :=
  live s c fun ch => ch.updFinishEnd sigOk burnOk progOk

/-- UPDATE_ABORT (R450). -/
def execUpdateAbort (c : Chan) (key : BitVec 16) (s : State) : Host.Outcome State Fault Refusal :=
  live s c fun ch => (ch.hostW .pcie).updAbort key

end Sys2Proof.Machine
end

