-- ==== Sys2Proof/Machine/HostPort.lean ====
section
/-!
DEFINITION. The host port: register and window accesses over both paths, the high-word latches, the SPI target, the PCI Express
endpoint, the trace FIFO's host side (R6 to R10, R34, R355 to R375).
-/
namespace Sys2Proof.Machine

open Sys2Proof

/-! ### Trace FIFO (R368 to R374) -/

/-- Commits the staging word, if it holds bytes (R372). -/
def ChanState.commitStaging (ch : ChanState) : ChanState :=
  if ch.trc.staging.isEmpty then ch else
  (({ ch with trc := { ch.trc with store := ch.trc.store ++ [TrcWord.mk ch.trc.staging], staging := [] } }).add Reg.TRC_PTR_WP 1).trcShow

/-- TRC_FLUSH: at once, or at the end of the record in progress (R372). -/
def ChanState.flushNow (ch : ChanState) (inRecord : Bool) : ChanState :=
  if inRecord then ch.put Reg.TRC_STS_FLPEND 1 else ch.commitStaging

/-- The record a flush waited for has ended (R372). -/
def ChanState.flushEnd (ch : ChanState) : ChanState :=
  if ch.bit Reg.TRC_STS_FLPEND then (ch.put Reg.TRC_STS_FLPEND 0).commitStaging else ch

/-- The held record that has waited longest is written once there is space (R371). -/
def ChanState.heldWrite (ch : ChanState) : ChanState :=
  match ch.trc.waiting with
  | r :: rest => if r.bytes.length ≤ ch.trcFree then ({ ch with trc := { ch.trc with waiting := rest } }).trcWrite r.bytes else ch
  | [] => ch

/-- A read of TRC_DATA_LO: the word at RP is removed, its high half latched (R373). -/
def ChanState.traceRead (ch : ChanState) : Word × ChanState :=
  match ch.trc.store with
  | [] => (0, ch.put Reg.TRC_TAG_VALID 0)
  | w :: rest =>
    let hi := BitVec.ofNat 32 (leAt w.bytes 4 4)
    let ch := { ch with trc := { ch.trc with store := rest, latchHi := hi } }
    (BitVec.ofNat 32 (leAt w.bytes 0 4),
      (((ch.put Reg.TRC_TAG_VALID w.bytes.length).add Reg.TRC_READ w.bytes.length).add Reg.TRC_PTR_RP 1).trcShow)

/-- Publishes the scheduler's statistics of the matrix cycle that ends, and starts anew (R88, R91). -/
def ChanState.schPublish (ch : ChanState) : ChanState :=
  let ch := forUpto 5 ch fun q ch =>
    let x := Tab.get ch.sch.stat {} q
    ((ch.put (Reg.SCH_QDEPTH_MAX q) x.dmax).put (Reg.SCH_WAITMAX q) x.wmax).put (Reg.SCH_WAITAVG q) (if x.wn = 0 then 0 else x.wsum / x.wn)
  let ch := forUpto 9 ch fun n ch => ch.put (Reg.SCH_LOAD n) (Tab.get ch.sch.busy 0 n)
  let stat := forUpto 5 [] fun q t => Tab.set t {} q { dmax := (ch.queue q).length }
  { ch with sch := { ch.sch with stat, busy := [] } }

/-- The words of registers, as a record body. -/
def ChanState.bodyOf (ch : ChanState) (l : List RF) : List Byte := l.flatMap fun f => leBytes 4 (ch.get f)

/-- The end of a matrix cycle: its statistics are shown, and offered with a Cell Bus snapshot (R370). -/
def ChanState.statistics (ch : ChanState) : ChanState :=
  let ch := (ch.advanceTo ((ch.now + 255999) / 256000 * 256000)).schPublish
  let ch := ch.trcOffer 3 (ch.bodyOf ((List.range 5).map Reg.SCH_QDEPTH ++ (List.range 5).map Reg.SCH_WAITMAX ++ (List.range 9).map Reg.SCH_LOAD))
  ch.trcOffer 4 (ch.bodyOf [Reg.CBUS_STS, Reg.CBUS_OFS, Reg.CBUS_RET, Reg.CBUS_CULLET, Reg.CBUS_STALE, Reg.CBUS_RXBAD])

/-! ### Register writes (R8, R9, R34) -/

/-- A write by the access types alone: RW bits, RWL bits where they are unlocked, W1C bits; a locked RWL register sets
HOST_ERR.LOCKW (R8, R363). -/
def ChanState.plainWrite (ch : ChanState) (o v : Nat) : ChanState :=
  match rowAt o with
  | none => ch
  | some r =>
    let f : RF := ⟨o, r.rst, 0, 32⟩
    let m := if ch.unlocked then r.runMask else r.rw
    let old := (ch.word f).toNat
    let new := Nat.lor (old - Nat.land old m) (Nat.land v m)
    let new := new - Nat.land new (Nat.land v r.w1c)
    let ch := if r.runMask = 0 ∧ r.w1c = 0 then ch else ch.putWord f (BitVec.ofNat 32 new)
    if r.rwl ≠ 0 ∧ !ch.unlocked then ch.put Reg.HOST_ERR_LOCKW 1 else ch

/-- A command code of CHN_CMD (R29, R33). -/
def ChanState.commandWrite (ch : ChanState) (v : Nat) : ChanState :=
  let key := BitVec.ofNat 16 (v / 2 ^ 16)
  match v % 16 with
  | 1 => ch.chnCmd key false [3] ChanState.readyStart
  | 2 => ch.chnCmd key false [4] fun ch => ch.goState 5 1
  | 3 => ch.chnCmd key false [5] ChanState.stopAll
  | 4 => ch.chnCmd key false [4] fun ch => ch.goState 3 1
  | 5 => ch.chnCmd key false [3] fun ch => ch.goState 8 1
  | 6 => ch.chnCmd key false [2, 8] fun ch => ch.internalReset 1
  | 7 => ch.chnCmd key false [7] ChanState.lockoutEnd
  | _ => ch.reject (if key ≠ 0x57A7 then 3 else 9)

/-- A write of CHN_BRST (R410, R412). -/
def ChanState.brstWrite (ch : ChanState) (v : Nat) : ChanState :=
  let ch := ch.plainWrite Reg.CHN_BRST.ofs v
  if tbit v 8 then ch.blockAssert (v % 256) else if tbit v 9 then ch.releaseAsked (v % 256) else ch

/-- A write of CFG_CMD (R391, R393). -/
def ChanState.cfgCmdWrite (ch : ChanState) (v : Nat) : ChanState :=
  let key := BitVec.ofNat 16 (v / 2 ^ 16)
  match v % 16 with
  | 1 => ch.cfgWrite key
  | 2 => ch.cfgInvalidate key
  | _ => if key = 0x57A7 then ch.cfgRefuse 0xB else ch

/-- A write of UPD_CMD (R445 to R450). -/
def ChanState.updCmdWrite (ch : ChanState) (v : Nat) : ChanState :=
  let key := BitVec.ofNat 16 (v / 2 ^ 16)
  match v % 16 with
  | 1 => ch.updStart key
  | 2 => ch.updResume key
  | 3 => ch.updBlock key
  | 4 => ch.updFinish key
  | 5 => ch.updAbort key
  | _ => ch

/-- A write of PRF_ACTL: every command bit it sets waits for the next sample (R44). -/
def ChanState.actlWrite (ch : ChanState) (k v : Nat) : ChanState :=
  ch.armCmd k fun a => {
    go := a.go || tbit v 0, hold := a.hold || tbit v 1, resume := a.resume || tbit v 2, abort := a.abort || tbit v 3
    play := if tbit v 4 then some (v / 256 % 32) else a.play }

/-- A write of PRF_JCTL (R45, R66). -/
def ChanState.jctlWrite (ch : ChanState) (j v : Nat) : ChanState :=
  let ch := if tbit v 3 then ch.jointCmd j fun x => { x with disarm := true, arm := false } else ch
  let ch := if tbit v 2 then ch.jointCmd j fun x => { x with arm := true } else ch
  let ch := if tbit v 1 then ch.jointStop j else ch
  if tbit v 0 then ch.jointGo j else ch

/-- A write of ZTK_ACMD; other codes are ignored (R245, R246). -/
def ChanState.acmdWrite (ch : ChanState) (v : Nat) : ChanState :=
  let k := v / 256 % 8
  let z := v % 64
  match v / 4096 % 16 with
  | 1 => ch.tokenRequest k z
  | 2 => ch.tokenKeep k
  | 3 => ch.tokenUnkeep k
  | 4 => ch.tokenCancel k z
  | _ => ch

/-- A write of CBUS_CFG: EN brings the ring up or takes the node off it (R314). -/
def ChanState.cbusCfgWrite (ch : ChanState) (v : Nat) : ChanState :=
  let was := ch.bit Reg.CBUS_CFG_EN
  let ch := ch.plainWrite Reg.CBUS_CFG.ofs v
  let is := ch.bit Reg.CBUS_CFG_EN
  if is && !was then ch.cbBringUp else if was && !is then ch.mute.put Reg.CBUS_STS_STATE 0 else ch

/-- A write of TIM_PnCFG: EN starts the protocol instance in LISTENING or stops it (R323). -/
def ChanState.pcfgWrite (ch : ChanState) (n v : Nat) : ChanState :=
  let was := ch.bit (Reg.TIM_PCFG_EN n)
  let ch := ch.plainWrite (Reg.TIM_PCFG n).ofs v
  let is := ch.bit (Reg.TIM_PCFG_EN n)
  if was == is then ch else
  ((ch.setPtp n { ch.ptpU n with haveSync := false, gmSet := false, reqTx := none, offs := [] }).ptpLock n false).put (Reg.TIM_PSTS_STATE n) (b2n is)

/-- A write of a register that names a master by its code: a code that is not of R64 is discarded. -/
def ChanState.masterWrite (ch : ChanState) (o src idx v : Nat) : ChanState := if sourceOk src idx then ch.plainWrite o v else ch

/-- A write of JNT_CFG: AFF = 0x3 leaves that field as it is (R101). -/
def ChanState.jntCfgWrite (ch : ChanState) (j v : Nat) : ChanState :=
  let f := Reg.JNT_CFG_AFF j
  ch.plainWrite f.ofs (if v / 2 ^ f.lo % 2 ^ f.w = 3 then insertBits v f.lo f.w (ch.get f) else v)

/-- A register family whose write does more than its access types say: base offset, stride, count, and what a write of instance `n`
does. -/
structure Port where
  base : Nat
  stride : Nat
  count : Nat
  act : ChanState → (n v : Nat) → ChanState

/-- Those of the channel, its clocks, its flash, its trace FIFO, scheduler and engines. -/
def portsLow : List Port := [
  ⟨0x8, 4, 1, fun ch _ v => ch.commandWrite v⟩,
  ⟨0x24, 4, 1, fun ch _ v => ch.brstWrite v⟩,
  ⟨0x1014, 4, 1, fun ch _ v => if v % 16 = 1 then ch.fuseStart (v / 2 ^ 16) else ch⟩,
  ⟨0x2104, 4, 1, fun ch _ v => ch.cfgCmdWrite v⟩,
  ⟨0x2108, 4, 1, fun ch _ v => ch.bindWrite v⟩,
  ⟨0x3000, 4, 1, fun ch _ v => ch.updCmdWrite v⟩,
  ⟨0x4014, 4, 1, fun ch _ v => if tbit v 0 then ch.flushNow false else ch⟩,
  ⟨0x50C0, 8, 16, fun ch n v => if v / 2 ^ (Reg.SCH_EVT_SRC n).lo % 256 < 0x3A then ch.plainWrite (Reg.SCH_EVT n).ofs v else ch⟩,
  ⟨0x6000, 512, 8, fun ch n v => ch.lpeCfgWrite n v⟩,
  ⟨0x6004, 512, 8, fun ch n v =>
    let ch := if tbit v 0 then ch.engineRestart n else ch
    if tbit v 1 then ch.put (Reg.LPE_CYC_MAX n) 0 else ch⟩,
  ⟨0x8008, 256, 64, fun ch j v => ch.jntCfgWrite j v⟩]

/-- Those of the profile units, compare units and power outputs. -/
def portsMid : List Port := [
  ⟨0xC018, 512, 8, fun ch k v => ch.actlWrite k v⟩,
  ⟨0xC028, 512, 8, fun ch k v => ch.segmentAppend k v⟩,
  ⟨0xD000, 64, 16, fun ch n v => let s := Reg.CMP_CFG_SRC n; let i := Reg.CMP_CFG_IDX n
    ch.masterWrite s.ofs (v / 2 ^ s.lo % 2 ^ s.w) (v / 2 ^ i.lo % 2 ^ i.w) v⟩,
  ⟨0xD008, 64, 16, fun ch n v => ch.cmpArm n v⟩,
  ⟨0xE000, 128, 64, fun ch j v => let s := Reg.PRF_JCFG_MSRC j; let i := Reg.PRF_JCFG_MIDX j
    ch.masterWrite s.ofs (v / 2 ^ s.lo % 2 ^ s.w) (v / 2 ^ i.lo % 2 ^ i.w) v⟩,
  ⟨0xE004, 128, 64, fun ch j v => ch.jctlWrite j v⟩,
  ⟨0xE014, 128, 64, fun ch j v => ch.rampWrite j .vmax v⟩,
  ⟨0xE018, 128, 64, fun ch j v => ch.rampWrite j .acc v⟩,
  ⟨0xE01C, 128, 64, fun ch j v => ch.rampWrite j .dec v⟩,
  ⟨0xE020, 128, 64, fun ch j v => ch.rampWrite j .jerk v⟩,
  ⟨0x10080, 4, 1, fun ch _ v => ch.loadall (v % 65536)⟩,
  ⟨0x10010, 256, 16, fun ch u v => ch.pwmEnable u v⟩,
  ⟨0x10014, 256, 16, fun ch u v => ch.shadowWrite u (Reg.PWM_DUTYA u) v⟩,
  ⟨0x10018, 256, 16, fun ch u v => ch.shadowWrite u (Reg.PWM_DUTYB u) v⟩,
  ⟨0x1001C, 256, 16, fun ch u v => ch.shadowWrite u (Reg.PWM_DUTYC u) v⟩,
  ⟨0x10020, 256, 16, fun ch u v => ch.pershWrite u v⟩,
  ⟨0x10034, 256, 16, fun ch u v => if tbit v 0 then ch.tripClear u else ch⟩,
  ⟨0x11850, 4, 1, fun ch _ v => ch.brickClear v⟩,
  ⟨0x11854, 4, 1, fun ch _ v => ch.brickClear (v * 2 ^ 32)⟩]

/-- Those of feedback, the solver, tokens, the Cell Bus, time, redundancy, faults and the host port itself. -/
def portsHigh : List Port := [
  ⟨0x1202C, 128, 24, fun ch p v =>
    let ch := if tbit v 0 then ch.idxArm p else ch
    if tbit v 1 then ch.clrErr p else ch⟩,
  ⟨0x12C00, 48, 4, fun ch m v => ch.dpoWrite m .enable v⟩,
  ⟨0x12C04, 48, 4, fun ch m v => ch.dpoWrite m .num v⟩,
  ⟨0x12C08, 48, 4, fun ch m v => ch.dpoWrite m .den v⟩,
  ⟨0x13000, 4, 1, fun ch _ v => (ch.plainWrite Reg.SLV_CFG.ofs v).surgeReview⟩,
  ⟨0x13008, 4, 1, fun ch _ v => if tbit v 0 then ch.hostAbort 5 else ch⟩,
  ⟨0x13018, 4, 1, fun ch _ v => ch.hprodSet v⟩,
  ⟨0x15008, 4, 1, fun ch _ v => ch.acmdWrite v⟩,
  ⟨0x1500C, 4, 1, fun ch _ v => ch.recoverZone v⟩,
  ⟨0x1A000, 4, 1, fun ch _ v => ch.cbusCfgWrite v⟩,
  ⟨0x1A01C, 4, 1, fun ch _ v =>
    let ch := if tbit v 0 then ch.cbClear else ch
    if tbit v 1 then ch.reint else ch⟩,
  ⟨0x1A0C0, 4, 1, fun ch _ v => ch.hrSend v⟩,
  ⟨0x1A0C8, 4, 1, fun ch _ v => if tbit v 1 then ch.rxClear else ch⟩,
  ⟨0x1C030, 4, 1, fun ch _ v => if tbit v 0 then ch.snap else ch⟩,
  ⟨0x1C100, 64, 2, fun ch n v => ch.pcfgWrite n v⟩,
  ⟨0x1C104, 64, 2, fun ch n v => ch.pninc n v⟩,
  ⟨0x1C108, 64, 2, fun ch n v => ch.pnstep n (wrapS 32 v)⟩,
  ⟨0x1C400, 64, 8, fun ch n v => (ch.plainWrite (Reg.TIM_EVCFG n).ofs v).evcfg n⟩,
  ⟨0x1C408, 64, 8, fun ch n v => ch.evtgtHi n v⟩,
  ⟨0x1C40C, 64, 8, fun ch n v => ch.evper n v⟩,
  ⟨0x1C410, 64, 8, fun ch n v => ch.evdly n v⟩,
  ⟨0x1D008, 4, 1, fun ch _ v =>
    if v % 16 = 1 then ch.yieldCommand (v / 2 ^ 16) false else if v % 16 = 2 then ch.yieldCommand (v / 2 ^ 16) true else ch⟩,
  ⟨0x1E008, 4, 1, fun ch _ v => ch.ackFaults v⟩,
  ⟨0x1E014, 4, 1, fun ch _ v => if tbit v 0 then ch.popFault false else ch⟩,
  ⟨0x1F80C, 16, 32, fun ch n v => (ch.plainWrite (Reg.HOST_MSIXC n).ofs v).msixRelease⟩]

/-- The instance of a family that stands at offset `o`. -/
def Port.at_ (p : Port) (o : Nat) : Option Nat :=
  if p.base ≤ o ∧ (o - p.base) % p.stride = 0 ∧ (o - p.base) / p.stride < p.count then some ((o - p.base) / p.stride) else none

/-- The first family of a list that stands at `o`, with what a write of `v` does. -/
def actOf (l : List Port) (o v : Nat) : Option (ChanState → ChanState) :=
  l.findSome? fun p => (p.at_ o).map fun n => fun ch => p.act ch n v

/-- A whole-word write at offset `o` (R8, R34). -/
def ChanState.regWrite (ch : ChanState) (o v : Nat) : ChanState :=
  match actOf (if o < 0xC000 then portsLow else if o < 0x12000 then portsMid else portsHigh) o v with
  | some f => f ch
  | none => ch.plainWrite o v

/-! ### Register reads (R6, R10, R34, R365, R375) -/

/-- Acts on a channel within a command. -/
def State.also (s : State) (c : Chan) (f : ChanState → ChanState) : State := if s.present c then s.setChan c (f (s.chan c)) else s

/-- A command of the host port: neither channel has put anything on its ports yet. -/
def State.fresh (s : State) : State := (s.onChan .A id).onChan .B id

/-- A channel's part of HOST_STS: its trim, whether it is held, its state. -/
def State.hostSts (s : State) (c : Chan) : Nat :=
  let sh := fun (ch : ChanState) (base : Nat) =>
    let t := match ch.rst.trim with | .loaded => 0 | .loading => 1 | .held => 2
    (if ch.rst.held then 0 else ch.get Reg.CHN_STATE_CODE) * 2 ^ (4 * base) + t * 2 ^ (8 + 4 * base) + b2n ch.rst.held * 2 ^ (16 + base)
  sh s.chA 0 + (if s.present .B then sh s.chB 1 else 2 ^ 17 + 2 ^ 18) + (match c with | .A => 0 | .B => 2 ^ 24)

/-- The eight bytes of a slot of the schedule matrix (R304). -/
def Slot.toBytes (x : Slot) : List Byte :=
  leBytes 2 x.start ++ leBytes 1 x.len ++ leBytes 1 x.node ++ leBytes 1 x.row ++ leBytes 1 x.sidx ++ leBytes 1 x.flg ++ leBytes 1 x.tdst

/-- LEHR_SURGE: what remains of the rest, and the running period, in ms (R438, R442). -/
def ChanState.surgeTimes (ch : ChanState) : Nat :=
  (match ch.lehr.rest with | some t => (t - ch.mono) / 1000000 % 65536 | none => 0) +
    (match ch.lehr.since with | some t => (ch.mono - t) / 1000000 % 65536 | none => 0) * 65536

/-- The present value of a register, without the effects of a read: what is stored, or what it shows of the state; WO bits and what is not
assigned read 0 (R8, R34). -/
def State.regValue (s : State) (c : Chan) (o : Nat) : Nat :=
  let ch := s.chan c
  let raw := match rowAt o with
    | none => 0
    | some r => let w := (Tab.get ch.regs (BitVec.ofNat 32 r.rst) o).toNat; w - Nat.land w r.wo
  let pt : Nat → Nat := fun n => (if n = 0 then ch.pt1 else ch.pt2) / 2 ^ 24
  let diff := ofInt 64 ((pt 1 : Int) - (pt 0 : Int))
  match o with
  | 0x0 => insertBits raw 9 1 (if s.variant = .EV7208 then 1 else 0)
  | 0x10 => ch.devid.toNat % 2 ^ 32
  | 0x14 => ch.devid.toNat / 2 ^ 32
  | 0x4000 => 0
  | 0x4004 => ch.trc.latchHi.toNat
  | 0x1600C => (Config.free ch.fresh).toNat % 2 ^ 20
  | 0x1A054 => Tab.get ch.cb.ecnt 0 ((ch.get Reg.CBUS_ESEL_NODE * 16 + ch.get Reg.CBUS_ESEL_ROW) * 256 + ch.get Reg.CBUS_ESEL_SIDX) % 2 ^ 32
  | 0x1A05C => match ch.cb.slots[ch.get Reg.CBUS_SMSEL_IDX]? with | some x => leAt x.toBytes 0 4 | none => 0
  | 0x1A060 => match ch.cb.slots[ch.get Reg.CBUS_SMSEL_IDX]? with | some x => leAt x.toBytes 4 4 | none => 0
  | 0x1C000 => ch.now % 2 ^ 32
  | 0x1C004 => ch.now / 2 ^ 32 % 2 ^ 32
  | 0x1C008 => ch.ct % 2 ^ 16
  | 0x1C010 => ch.mono % 2 ^ 32
  | 0x1C014 => ch.mono / 2 ^ 32 % 2 ^ 32
  | 0x1C020 => pt (ch.get Reg.TIM_PSEL_SEL) % 2 ^ 32
  | 0x1C024 => pt (ch.get Reg.TIM_PSEL_SEL) / 2 ^ 32 % 2 ^ 32
  | 0x1C028 => diff % 2 ^ 32
  | 0x1C02C => diff / 2 ^ 32
  | 0x1C10C => pt 0 % 2 ^ 32
  | 0x1C110 => pt 0 / 2 ^ 32 % 2 ^ 32
  | 0x1C14C => pt 1 % 2 ^ 32
  | 0x1C150 => pt 1 / 2 ^ 32 % 2 ^ 32
  | 0x1E824 => ch.surgeTimes
  | 0x1E828 => (ch.lehr.total + (match ch.lehr.since with | some t => ch.mono - t | none => 0)) / 1000000 % 2 ^ 32
  | 0x1F000 => s.hostSts c
  | _ =>
    if 0x1E0A0 ≤ o ∧ o < 0x1E0C0 then
      match ch.ring[ch.get Reg.FLT_PSEL_IDX]? with | some e => leAt e.body.toBytes (o - 0x1E0A0) 4 | none => 0
    else raw

/-- The low words of 64-bit quantities: base, stride, count (R10). -/
def lowWords : List (Nat × Nat × Nat) := [
  (0x10, 4, 1), (0x2148, 32, 2), (0xD504, 16, 4), (0xE008, 128, 64), (0xE028, 128, 64), (0xE038, 128, 64), (0xE040, 128, 64),
  (0xE068, 128, 64), (0xD004, 64, 16), (0xD010, 64, 16), (0x11010, 256, 8), (0x11018, 256, 8), (0x11848, 4, 1), (0x11850, 4, 1)] ++
  [(0x12024, 128, 24), (0x12034, 128, 24), (0x1203C, 128, 24), (0x12044, 128, 24), (0x1204C, 128, 24), (0x12058, 128, 24),
  (0x12060, 128, 24), (0x12C10, 48, 4), (0x12C18, 48, 4), (0x12CC0, 4, 1), (0x15018, 4, 1), (0x15020, 4, 1), (0x15040, 8, 8)] ++
  [(0x16030, 4, 1), (0x17000, 8, 16), (0x18008, 64, 128), (0x1A05C, 4, 1), (0x1C000, 4, 1), (0x1C010, 4, 1), (0x1C020, 4, 1),
  (0x1C028, 4, 1), (0x1C040, 8, 4), (0x1C10C, 64, 2), (0x1C11C, 64, 2), (0x1C404, 64, 8), (0x1C418, 64, 8), (0x1D00C, 4, 1), (0x1F200, 4, 1)]

/-- Whether offset `o` is the low word of a 64-bit quantity. -/
def isLow (o : Nat) : Bool := lowWords.any fun p => decide (p.1 ≤ o) && (o - p.1) % p.2.1 == 0 && decide ((o - p.1) / p.2.1 < p.2.2)

/-- The high-word latch of a path (R10, R362). -/
def HostFn.latch (f : HostFn) (p : Path) : Option (Nat × Word) := match p with | .pcie => f.pcie | .spi => f.spi

def HostFn.setLatch (f : HostFn) (p : Path) (l : Option (Nat × Word)) : HostFn :=
  match p with
  | .pcie => { f with pcie := l }
  | .spi => { f with spi := l }

def ChanState.setLatch (ch : ChanState) (p : Path) (l : Option (Nat × Word)) : ChanState := { ch with fn := ch.fn.setLatch p l }

/-- Whether BAR0 offset `o` of a channel is answered: the channel is there, and not held but for its HOST block (R6, R365). -/
def State.answers (s : State) (c : Chan) (o : Nat) : Bool :=
  s.present c && (!(s.chan c).rst.held || (decide (0x1F000 ≤ o) && decide (o < 0x20000)))

/-- A read of a register over a path (R10, R365, R373). -/
def State.regRead (s : State) (c : Chan) (p : Path) (o : Nat) : Word × State :=
  if !s.answers c o then (0, s) else
  let ch := s.chan c
  let val := fun o => BitVec.ofNat 32 (s.regValue c o)
  if o = 0x4000 then
    let (w, ch) := ch.traceRead
    (w, s.setChan c ch)
  else if o = 0x1600C then (val o, s.setChan c ch.nextFresh)
  else if isLow o then (val o, s.setChan c (ch.setLatch p (some (o, val (o + 4)))))
  else if 4 ≤ o ∧ isLow (o - 4) then
    match ch.fn.latch p with
    | some (l, w) => if l = o - 4 then (w, s.setChan c (ch.setLatch p none)) else (val o, s)
    | none => (val o, s)
  else (val o, s)

/-! ### Host writes (R357, R358, R362) -/

/-- A write of a register over a path: counted, then carried out; the two that take a reset source act on the package (R365, R406). -/
def State.regWrite (s : State) (c : Chan) (p : Path) (o v : Nat) : State :=
  if !s.answers c o then s else
  let s := s.also c fun ch => ch.hostW p
  let src := fun q => if v / 2 ^ 16 = 0x57A7 ∧ v % 2 = 1 then s.source c q else s
  if o = 0x20 then src 9
  else if o = 0x1F01C then src 3
  else if o = 0x4034 then s.also c fun ch =>
    let base := v % 256 * 4096
    let bs := (List.range 1024).flatMap fun i => leBytes 4 (if base < 0x20000 then s.regValue c (base + 4 * i) else 0)
    forUpto 17 ch.nextFresh fun i ch => ch.trcOffer 5 ((bs.drop (248 * i)).take 248)
  else s.also c fun ch => ch.regWrite o v

/-! ### BAR2 windows (R194, R255, R342, R363) -/

/-- Byte `i` of the snapshot window (R255). -/
def ChanState.snapByte (ch : ChanState) (i : Nat) : Byte :=
  let at_ := fun (bs : List Byte) (k : Nat) => bs.getD k 0
  if i < 0x2000 then at_ (Tab.get ch.sep.caps [] (i / 0x400)) (i % 0x400)
  else if 0x4000 ≤ i ∧ i < 0x6000 then at_ (Tab.get ch.sep.pub [] ((i - 0x4000) / 0x400)) (i % 0x400)
  else if 0x8000 ≤ i ∧ i < 0x9000 then
    match Tab.get ch.sep.snap none ((i - 0x8000) / 32) with
    | none => 0
    | some (x, age) => at_ ([ofInt 32 x.x, ofInt 32 x.y, ofInt 32 x.z, x.h, x.r, age, x.src, 1].flatMap fun w => leBytes 4 w) (i % 32)
  else if 0x9000 ≤ i ∧ i < 0xA400 then
    let j := i - 0x9000
    match Tab.get ch.sep.zones none (j / 0x50) with
    | none => 0
    | some z =>
      let vs := (z.verts.flatMap fun p => leBytes 4 (ofInt 32 p.1) ++ leBytes 4 (ofInt 32 p.2)) ++ List.replicate 64 0
      at_ (vs.take 64 ++ leBytes 4 (ofInt 32 z.zlo) ++ leBytes 4 (ofInt 32 z.zhi) ++ leBytes 4 z.verts.length) (j % 0x50)
  else if 0x10000 ≤ i ∧ i < 0x20000 then
    let j := i - 0x10000
    at_ (Tab.get ch.sep.recs {} (j / 0x1000 * 8 + j % 0x1000 / 0x200)).body (j % 0x200)
  else 0

/-- A byte of BAR2 (R363). -/
def ChanState.bar2Byte (ch : ChanState) (o : Nat) : Byte :=
  if o < 0x100000 then Tab.get ch.pool 0 o
  else if 0x1000000 ≤ o ∧ o < 0x1200000 then Tab.get ch.smem 0 (o - 0x1000000)
  else if 0x2000000 ≤ o ∧ o < 0x3000000 then Tab.get ch.cfg.stage 0 (o - 0x2000000)
  else if 0x3000000 ≤ o ∧ o < 0x3100000 then match ch.red.staged with | bs :: _ => bs.getD (o - 0x3000000) 0 | [] => 0
  else if 0x3100000 ≤ o ∧ o < 0x3200000 then ch.snapByte (o - 0x3100000)
  else 0

/-- Whether the staging window takes writes: in COMMISSION, MAINTENANCE and LOADER, not while a slot or an update command works on what it
holds (R363, R397, R451). -/
def ChanState.stageOpen (ch : ChanState) : Bool :=
  (ch.unlocked || ch.get Reg.CHN_STATE_CODE == 0xB) && !ch.bit Reg.CFG_STS_BUSY && !ch.bit Reg.UPD_STS_BUSY

/-- Writes a byte of BAR2: a read-only window discards it and sets HOST_ERR.ROW (R194, R363). -/
def ChanState.bar2Put (ch : ChanState) (o : Nat) (b : Byte) : ChanState :=
  if o < 0x100000 then { ch with pool := Tab.set ch.pool 0 o b }
  else if 0x1040000 ≤ o ∧ o < 0x1200000 then { ch with smem := Tab.set ch.smem 0 (o - 0x1000000) b }
  else if 0x2000000 ≤ o ∧ o < 0x3000000 then
    if ch.stageOpen then { ch with cfg := { ch.cfg with stage := Tab.set ch.cfg.stage 0 (o - 0x2000000) b } } else ch.put Reg.HOST_ERR_ROW 1
  else if 0x3000000 ≤ o ∧ o < 0x3200000 then ch.put Reg.HOST_ERR_ROW 1
  else ch

/-- A write of bytes to BAR2 over a path (R358, R363, R365). -/
def State.bar2Write (s : State) (c : Chan) (p : Path) (o : Nat) (bs : List Byte) : State :=
  if !s.answers c 0 then s
  else s.also c fun ch => (bs.zip (List.range bs.length)).foldl (fun ch x => ch.bar2Put (o + x.2) x.1) (ch.hostW p)

/-- A word of BAR2 (R365). -/
def State.bar2Read (s : State) (c : Chan) (o : Nat) : Word :=
  if s.answers c 0 then BitVec.ofNat 32 (leNat ((List.range 4).map fun i => (s.chan c).bar2Byte (o + i))) else 0

/-! ### PCI Express endpoint (R355 to R357) -/

/-- Whether the function answers requests to its BARs (R356). -/
def HostFn.open_ (f : HostFn) : Bool := f.mse && !f.d3

/-- A request over PCI Express: answered, or Unsupported Request (R356); SPI requests always reach the channel. -/
def State.request (s : State) (c : Chan) (p : Path) (f : State → State) : State :=
  let s := s.fresh
  if p = .spi || (s.chan c).fn.open_ then f (s.also c fun ch => { ch with fn := { ch.fn with ur := false } })
  else s.also c fun ch => { ch with fn := { ch.fn with ur := true, rdata := [] } }

/-- The words a read returned. -/
def State.returned (s : State) (c : Chan) (p : Path) (ws : List Word) : State :=
  match p with
  | .pcie => s.also c fun ch => { ch with fn := { ch.fn with rdata := ws } }
  | .spi => { s with dev := { s.dev with spiData := ws } }

/-- A read of one register over a path. -/
def State.readReg (s : State) (c : Chan) (p : Path) (o : Nat) : State :=
  s.request c p fun s => let (w, s) := s.regRead c p o; s.returned c p [w]

/-- A write with byte enables: over PCI Express a partial one is discarded (R357). -/
def State.writeReg (s : State) (c : Chan) (p : Path) (o v be : Nat) : State :=
  s.request c p fun s =>
    if p = .pcie ∧ be ≠ 15 then (if s.answers c o then s.also c fun ch => (ch.hostW p).put Reg.HOST_ERR_BEW 1 else
      s.also c fun ch => ch.put Reg.HOST_ERR_BEW 1)
    else s.regWrite c p o v

/-- The function's own reset: configuration space and MSI-X table (R355, R356). -/
def ChanState.fnReset (ch : ChanState) : ChanState :=
  { ch with regs := ch.regs.filter fun r => decide (r.1 < 0x1F800), fn := { ch.fn with mse := false, bme := false, d3 := false } }

/-- A reset of the endpoint: both functions (R356, R406). -/
def State.endpointReset (s : State) : State := (s.onChan .A ChanState.fnReset).onChan .B ChanState.fnReset

/-- HOST_LINK, the same through both functions (R375). -/
def State.link (s : State) (speed width up : Nat) : State :=
  let f := fun ch : ChanState => ((ch.put Reg.HOST_LINK_SPEED speed).put Reg.HOST_LINK_WIDTH width).put Reg.HOST_LINK_DLUP up
  (s.onChan .A f).onChan .B f

/-- PERST_N: the endpoint resets; each channel takes source 2 at its own level, and an L3 in one alone reaches the other after it
(R406, R407). -/
def State.perst (s : State) : State :=
  let s := s.endpointReset
  let lvl := fun c => if s.present c then (s.chan c).sourceLevel 2 else 0
  let both := (s.onChan .A fun ch => ch.takeSource 2).onChan .B fun ch => ch.takeSource 2
  if lvl .A = 3 ∧ lvl .B = 3 then { both with dev := { both.dev with spiSel := none, spiErr := false, spiUe := false } }
  else if lvl .A = 3 then (s.onChan .B fun ch => ch.takeSource 2).source .A 2
  else (s.source .A 2).source .B 2

/-! ### Quad-SPI target (R359 to R361) -/

/-- The channel an SPI address names (R360). -/
def spiChan (a : Nat) : Chan := if tbit a 23 then .B else .A

/-- Whether an SPI address is one the target takes (R360). -/
def spiOk (a : Nat) : Bool := a % 4 == 0 && (tbit a 22 || a / 2 ^ 20 % 4 == 0)

/-- A transaction ends early: HOST_ERR.SPIERR, and bit 0 of STATUS (R360, R361). -/
def State.spiFail (s : State) (c : Chan) : State :=
  let s := s.also c fun ch => ch.put Reg.HOST_ERR_SPIERR 1
  { s with dev := { s.dev with spiErr := true } }

/-- The BAR2 offset of an SPI address (R360). -/
def State.spiWin (s : State) (a : Nat) : Nat := (s.chan (spiChan a)).get Reg.HOST_SPIWIN_BASE * 2 ^ 22 + a % 2 ^ 22

/-- A word read at an SPI address. -/
def State.spiWord (s : State) (a : Nat) : Word × State :=
  let c := spiChan a
  if tbit a 22 then (if s.present c then s.bar2Read c (s.spiWin a) else 0, s) else s.regRead c .spi (a % 2 ^ 22)

/-- `n` words from an address onwards. -/
def State.spiWords : Nat → Nat → List Word → State → List Word × State
  | 0, _, l, s => (l, s)
  | n + 1, a, l, s => let (w, s) := s.spiWord a; State.spiWords n ((a + 4) % 2 ^ 24) (l ++ [w]) s

/-- READ and QREAD. -/
def State.spiRead (s : State) (a n : Nat) : State :=
  let s := s.fresh
  let s := { s with dev := { s.dev with spiSel := none, spiErr := false, spiUe := false, spiData := [] } }
  if !spiOk a then s.spiFail (spiChan a) else
  let (l, s) := State.spiWords n a [] s
  { s with dev := { s.dev with spiData := l } }

/-- A word written at an SPI address. -/
def State.spiPut (s : State) (a : Nat) (w : Word) : State :=
  let c := spiChan a
  if !s.present c then s
  else if tbit a 22 then s.bar2Write c .spi (s.spiWin a) (leBytes 4 w.toNat)
  else s.regWrite c .spi (a % 2 ^ 22) w.toNat

/-- WRITE and QWRITE, as far as whole words have arrived; the transaction ends with SPI_CS_RISE. -/
def State.spiWrite (s : State) (a : Nat) (ws : List Word) : State :=
  let s := s.fresh
  let c := spiChan a
  let s := { s with dev := { s.dev with spiSel := none, spiErr := false, spiData := [] } }
  if !spiOk a then s.spiFail c else
  let s := (ws.zip (List.range ws.length)).foldl (fun s x => s.spiPut ((a + 4 * x.2) % 2 ^ 24) x.1) s
  { s with dev := { s.dev with spiSel := some c } }

/-- SPI_CS_N rises: a word that has not arrived whole is discarded (R360). -/
def State.csRise (s : State) (partialWord : Bool) : State :=
  let s := s.fresh
  match s.dev.spiSel with
  | none => s
  | some c =>
    let s := { s with dev := { s.dev with spiSel := none } }
    if partialWord then s.spiFail c else s

/-- The STATUS byte (R361). -/
def State.spiStatus (s : State) : Nat :=
  b2n s.dev.spiErr + 2 * b2n s.dev.spiUe + 4 * b2n s.chA.rst.held + 8 * b2n (!s.present .B || s.chB.rst.held)

/-! ### The commands -/

/-- FUNCTION_LEVEL_RESET (R356). -/
def execFunctionLevelReset (c : Chan) (s : State) : Host.Outcome State Fault Refusal := .next (s.onChan c ChanState.fnReset)

/-- D3HOT_ENTRY (R356). -/
def execD3hotEntry (c : Chan) (s : State) : Host.Outcome State Fault Refusal :=
  .next (s.onChan c fun ch => { ch with fn := { ch.fn with d3 := true } })

/-- D0_ENTRY (R356). -/
def execD0Entry (c : Chan) (s : State) : Host.Outcome State Fault Refusal :=
  .next (s.onChan c fun ch => { ch with fn := { ch.fn with d3 := false } })

/-- LINK_DOWN (R356). -/
def execLinkDown (s : State) : Host.Outcome State Fault Refusal := .next (s.endpointReset.link 0 0 0)

/-- LINK_UP (R355). -/
def execLinkUp (speed : BitVec 4) (width : BitVec 5) (s : State) : Host.Outcome State Fault Refusal :=
  .next (s.link speed.toNat width.toNat 1)

/-- HOT_RESET (R356). -/
def execHotReset (s : State) : Host.Outcome State Fault Refusal := .next s.endpointReset

/-- PERST (R406). -/
def execPerst (s : State) : Host.Outcome State Fault Refusal := .next s.perst

/-- MEMORY_SPACE_ENABLE_WRITE (R356). -/
def execMemorySpaceEnableWrite (c : Chan) (mse bme : Bool) (s : State) : Host.Outcome State Fault Refusal :=
  .next (s.onChan c fun ch =>
    let ch := { ch with fn := { ch.fn with mse, bme } }
    if bme then ch.msixRelease else ch)

/-- REGISTER_WRITE (R8). -/
def execRegisterWrite (c : Chan) (path : Path) (ofs : BitVec 20) (v : Word) (be : BitVec 4) (s : State) :
    Host.Outcome State Fault Refusal := .next (s.writeReg c path ofs.toNat v.toNat be.toNat)

/-- BAR2_WRITE (R363). -/
def execBar2Write (c : Chan) (path : Path) (ofs : BitVec 26) (bytes : List Byte) (s : State) : Host.Outcome State Fault Refusal :=
  .next (s.request c path fun s => s.bar2Write c path ofs.toNat bytes)

/-- LOW_WORD_READ (R10). -/
def execLowWordRead (c : Chan) (path : Path) (ofs : BitVec 20) (s : State) : Host.Outcome State Fault Refusal :=
  .next (s.readReg c path ofs.toNat)

/-- HIGH_WORD_READ (R10). -/
def execHighWordRead (c : Chan) (path : Path) (ofs : BitVec 20) (s : State) : Host.Outcome State Fault Refusal :=
  .next (s.readReg c path ofs.toNat)

/-- SPI_READ (R359). -/
def execSpiRead (addr : BitVec 24) (n : Nat) (s : State) : Host.Outcome State Fault Refusal := .next (s.spiRead addr.toNat n)

/-- SPI_QREAD (R359): as SPI_READ, on four lines. -/
def execSpiQread (addr : BitVec 24) (n : Nat) (s : State) : Host.Outcome State Fault Refusal := .next (s.spiRead addr.toNat n)

/-- SPI_WRITE (R360). -/
def execSpiWrite (addr : BitVec 24) (words : List Word) (s : State) : Host.Outcome State Fault Refusal :=
  .next (s.spiWrite addr.toNat words)

/-- SPI_QWRITE (R360): as SPI_WRITE, on four lines. -/
def execSpiQwrite (addr : BitVec 24) (words : List Word) (s : State) : Host.Outcome State Fault Refusal :=
  .next (s.spiWrite addr.toNat words)

/-- SPI_STATUS (R361): the flags stay as they are. -/
def execSpiStatus (s : State) : Host.Outcome State Fault Refusal :=
  .next { s.fresh with dev := { s.dev with spiData := [BitVec.ofNat 32 s.spiStatus] } }

/-- SPI_CS_RISE (R360). -/
def execSpiCsRise (partialWord : Bool) (s : State) : Host.Outcome State Fault Refusal := .next (s.csRise partialWord)

/-- EVPEND_CLEAR (R367). -/
def execEvpendClear (c : Chan) (v : BitVec 64) (s : State) : Host.Outcome State Fault Refusal :=
  .next (s.onChan c fun ch =>
    let p := ch.get64 Reg.HOST_EVPEND
    (ch.hostW .pcie).put64 Reg.HOST_EVPEND (p - Nat.land p v.toNat))

/-- HELD_RECORD_WRITE (R371). -/
def execHeldRecordWrite (c : Chan) (s : State) : Host.Outcome State Fault Refusal := live s c ChanState.heldWrite

/-- TRACE_DATA_READ (R373). -/
def execTraceDataRead (c : Chan) (path : Path) (s : State) : Host.Outcome State Fault Refusal := .next (s.readReg c path 0x4000)

/-- FLUSH (R372). -/
def execFlush (c : Chan) (inRecord : Bool) (s : State) : Host.Outcome State Fault Refusal :=
  live s c fun ch => (ch.hostW .pcie).flushNow inRecord

/-- FLUSH_COMPLETE (R372). -/
def execFlushComplete (c : Chan) (s : State) : Host.Outcome State Fault Refusal := live s c ChanState.flushEnd

/-- DUMP (R370): a write of TRC_DUMP. -/
def execDump (c : Chan) (blk : BitVec 8) (s : State) : Host.Outcome State Fault Refusal :=
  .next (s.fresh.regWrite c .pcie 0x4034 blk.toNat)

/-- MATRIX_CYCLE_STATISTICS (R370). -/
def execMatrixCycleStatistics (c : Chan) (s : State) : Host.Outcome State Fault Refusal := live s c ChanState.statistics

end Sys2Proof.Machine
end

