-- ==== Sys2Proof/Machine/Dispatch.lean ====
section
/-!
DEFINITION. Which meaning answers which command: one arm per constructor of Instr.
-/
namespace Sys2Proof.Machine

open Sys2Proof

def exec (i : Instr) (s : State) : Host.Outcome State Fault Refusal :=
  match i with
  | .goReady c key coin => Sys2Proof.Machine.execGoReady c key coin s
  | .goRun c key coin => Sys2Proof.Machine.execGoRun c key coin s
  | .stop c key coin => Sys2Proof.Machine.execStop c key coin s
  | .toSafeIdle c key coin => Sys2Proof.Machine.execToSafeIdle c key coin s
  | .maintain c key coin => Sys2Proof.Machine.execMaintain c key coin s
  | .restart c key coin => Sys2Proof.Machine.execRestart c key coin s
  | .lockoutAck c key coin => Sys2Proof.Machine.execLockoutAck c key coin s
  | .brakeReleaseDone c => Sys2Proof.Machine.execBrakeReleaseDone c s
  | .brakeEngageDone c k => Sys2Proof.Machine.execBrakeEngageDone c k s
  | .basicCycleStart c => Sys2Proof.Machine.execBasicCycleStart c s
  | .profileEvaluation c => Sys2Proof.Machine.execProfileEvaluation c s
  | .armGo c k => Sys2Proof.Machine.execArmGo c k s
  | .hold c k => Sys2Proof.Machine.execHold c k s
  | .resume c k => Sys2Proof.Machine.execResume c k s
  | .abort c k => Sys2Proof.Machine.execAbort c k s
  | .play c k t => Sys2Proof.Machine.execPlay c k t s
  | .jointGo c j => Sys2Proof.Machine.execJointGo c j s
  | .jointStop c j => Sys2Proof.Machine.execJointStop c j s
  | .arm c j => Sys2Proof.Machine.execArm c j s
  | .disarm c j => Sys2Proof.Machine.execDisarm c j s
  | .segmentAppend c k cnt => Sys2Proof.Machine.execSegmentAppend c k cnt s
  | .rampParameterWrite c j which v => Sys2Proof.Machine.execRampParameterWrite c j which v s
  | .compareArm c n hi => Sys2Proof.Machine.execCompareArm c n hi s
  | .tableRelease c => Sys2Proof.Machine.execTableRelease c s
  | .releaseResume c => Sys2Proof.Machine.execReleaseResume c s
  | .taskDispatch c n => Sys2Proof.Machine.execTaskDispatch c n s
  | .taskDeadline c => Sys2Proof.Machine.execTaskDeadline c s
  | .taskCycleLimit c n => Sys2Proof.Machine.execTaskCycleLimit c n s
  | .engineRestart c n => Sys2Proof.Machine.execEngineRestart c n s
  | .clrmax c n => Sys2Proof.Machine.execClrmax c n s
  | .engineEnableWrite c n v => Sys2Proof.Machine.execEngineEnableWrite c n v s
  | .illegalInstruction c n w => Sys2Proof.Machine.execIllegalInstruction c n w s
  | .leNop c n => Sys2Proof.Machine.execLeNop c n s
  | .leBr c n cond t => Sys2Proof.Machine.execLeBr c n cond t s
  | .leCall c n cond t => Sys2Proof.Machine.execLeCall c n cond t s
  | .leRet c n cond => Sys2Proof.Machine.execLeRet c n cond s
  | .leRep c n lc count len => Sys2Proof.Machine.execLeRep c n lc count len s
  | .leRepr c n lc x len => Sys2Proof.Machine.execLeRepr c n lc x len s
  | .leAsk c n => Sys2Proof.Machine.execLeAsk c n s
  | .leDone c n => Sys2Proof.Machine.execLeDone c n s
  | .leLdi c n z imm => Sys2Proof.Machine.execLeLdi c n z imm s
  | .leLdp c n t imm => Sys2Proof.Machine.execLeLdp c n t imm s
  | .leLdDirect c n z a => Sys2Proof.Machine.execLeLdDirect c n z a s
  | .leStDirect c n x a => Sys2Proof.Machine.execLeStDirect c n x a s
  | .leLdPointer c n z p => Sys2Proof.Machine.execLeLdPointer c n z p s
  | .leStPointer c n x p => Sys2Proof.Machine.execLeStPointer c n x p s
  | .leLd2 c n z y p q => Sys2Proof.Machine.execLeLd2 c n z y p q s
  | .leMov c n dst src => Sys2Proof.Machine.execLeMov c n dst src s
  | .leLda c n a p => Sys2Proof.Machine.execLeLda c n a p s
  | .leSta c n sat a p => Sys2Proof.Machine.execLeSta c n sat a p s
  | .leRnd c n sat z a sh => Sys2Proof.Machine.execLeRnd c n sat z a sh s
  | .leMpy c n sat a x y => Sys2Proof.Machine.execLeMpy c n sat a x y s
  | .leMac c n sat a x y => Sys2Proof.Machine.execLeMac c n sat a x y s
  | .leMsu c n sat a x y => Sys2Proof.Machine.execLeMsu c n sat a x y s
  | .leMpym c n sat a p q => Sys2Proof.Machine.execLeMpym c n sat a p q s
  | .leMacm c n sat a p q => Sys2Proof.Machine.execLeMacm c n sat a p q s
  | .leMacx c n sat a x p => Sys2Proof.Machine.execLeMacx c n sat a x p s
  | .leLdac c n sat a x sh => Sys2Proof.Machine.execLeLdac c n sat a x sh s
  | .leAdda c n sat a x sh => Sys2Proof.Machine.execLeAdda c n sat a x sh s
  | .leSuba c n sat a x sh => Sys2Proof.Machine.execLeSuba c n sat a x sh s
  | .leAccClr c n sat a => Sys2Proof.Machine.execLeAccClr c n sat a s
  | .leAccMov c n sat a => Sys2Proof.Machine.execLeAccMov c n sat a s
  | .leAccAdd c n sat a => Sys2Proof.Machine.execLeAccAdd c n sat a s
  | .leAccSub c n sat a => Sys2Proof.Machine.execLeAccSub c n sat a s
  | .leAccNeg c n sat a => Sys2Proof.Machine.execLeAccNeg c n sat a s
  | .leAccAbs c n sat a => Sys2Proof.Machine.execLeAccAbs c n sat a s
  | .leAsh c n sat a sh => Sys2Proof.Machine.execLeAsh c n sat a sh s
  | .leAdd c n sat z x y => Sys2Proof.Machine.execLeAdd c n sat z x y s
  | .leSub c n sat z x y => Sys2Proof.Machine.execLeSub c n sat z x y s
  | .leAddi c n sat z x imm => Sys2Proof.Machine.execLeAddi c n sat z x imm s
  | .leAnd c n z x y => Sys2Proof.Machine.execLeAnd c n z x y s
  | .leOr c n z x y => Sys2Proof.Machine.execLeOr c n z x y s
  | .leShl c n sat z x sh => Sys2Proof.Machine.execLeShl c n sat z x sh s
  | .leAsr c n z x sh => Sys2Proof.Machine.execLeAsr c n z x sh s
  | .leNeg c n sat z x => Sys2Proof.Machine.execLeNeg c n sat z x s
  | .leAbs c n sat z x => Sys2Proof.Machine.execLeAbs c n sat z x s
  | .leMin c n z x y => Sys2Proof.Machine.execLeMin c n z x y s
  | .leMax c n z x y => Sys2Proof.Machine.execLeMax c n z x y s
  | .leClmp c n z x y => Sys2Proof.Machine.execLeClmp c n z x y s
  | .leCmp c n x y => Sys2Proof.Machine.execLeCmp c n x y s
  | .leBtst c n x bit => Sys2Proof.Machine.execLeBtst c n x bit s
  | .leMuld c n sat z x y sh => Sys2Proof.Machine.execLeMuld c n sat z x y sh s
  | .leDiv c n sat z a y => Sys2Proof.Machine.execLeDiv c n sat z a y s
  | .leSqrt c n sat z a => Sys2Proof.Machine.execLeSqrt c n sat z a s
  | .leTrig c n z x => Sys2Proof.Machine.execLeTrig c n z x s
  | .leMinx c n z x p => Sys2Proof.Machine.execLeMinx c n z x p s
  | .leMaxx c n z x p => Sys2Proof.Machine.execLeMaxx c n z x p s
  | .leCmov c n cond z x => Sys2Proof.Machine.execLeCmov c n cond z x s
  | .pwmReload c u => Sys2Proof.Machine.execPwmReload c u s
  | .pwmEdge c u ph on => Sys2Proof.Machine.execPwmEdge c u ph on s
  | .loadall c units => Sys2Proof.Machine.execLoadall c units s
  | .trip c u => Sys2Proof.Machine.execTrip c u s
  | .tripInputRelease c u => Sys2Proof.Machine.execTripInputRelease c u s
  | .tripclr c u => Sys2Proof.Machine.execTripclr c u s
  | .pwmEnableWrite c u v => Sys2Proof.Machine.execPwmEnableWrite c u v s
  | .sigmaDeltaSampleReady c src x => Sys2Proof.Machine.execSigmaDeltaSampleReady c src x s
  | .sigmaDeltaInputInvalid c src => Sys2Proof.Machine.execSigmaDeltaInputInvalid c src s
  | .ownSlotStart c sidx busy => Sys2Proof.Machine.execOwnSlotStart c sidx busy s
  | .ownFrameDeferredSend c ok => Sys2Proof.Machine.execOwnFrameDeferredSend c ok s
  | .brickTripClear c mask => Sys2Proof.Machine.execBrickTripClear c mask s
  | .microstepEmit c n => Sys2Proof.Machine.execMicrostepEmit c n s
  | .coilThresholdReached c n coil => Sys2Proof.Machine.execCoilThresholdReached c n coil s
  | .coilOffEnd c n coil => Sys2Proof.Machine.execCoilOffEnd c n coil s
  | .coilNoTrip c n coil => Sys2Proof.Machine.execCoilNoTrip c n coil s
  | .holdDelayExpiry c n => Sys2Proof.Machine.execHoldDelayExpiry c n s
  | .encoderEdge c p a b => Sys2Proof.Machine.execEncoderEdge c p a b s
  | .index c p => Sys2Proof.Machine.execIndex c p s
  | .idxarm c p => Sys2Proof.Machine.execIdxarm c p s
  | .clrerr c p => Sys2Proof.Machine.execClrerr c p s
  | .serialLatch c p lineHigh => Sys2Proof.Machine.execSerialLatch c p lineHigh s
  | .serialSampleReady c p word islandOk => Sys2Proof.Machine.execSerialSampleReady c p word islandOk s
  | .startTimeout c p => Sys2Proof.Machine.execStartTimeout c p s
  | .monoflopTimeout c p => Sys2Proof.Machine.execMonoflopTimeout c p s
  | .dpoEdgeEmit c m => Sys2Proof.Machine.execDpoEdgeEmit c m s
  | .dpoRatioWrite c m which v => Sys2Proof.Machine.execDpoRatioWrite c m which v s
  | .safetyPositionEvaluation c => Sys2Proof.Machine.execSafetyPositionEvaluation c s
  | .hprodWrite c v => Sys2Proof.Machine.execHprodWrite c v s
  | .habort c => Sys2Proof.Machine.execHabort c s
  | .descriptorTake c => Sys2Proof.Machine.execDescriptorTake c s
  | .problemRelease c => Sys2Proof.Machine.execProblemRelease c s
  | .solverDispatch c => Sys2Proof.Machine.execSolverDispatch c s
  | .solverDeadline c => Sys2Proof.Machine.execSolverDeadline c s
  | .problemComplete c => Sys2Proof.Machine.execProblemComplete c s
  | .modelTaskComplete c => Sys2Proof.Machine.execModelTaskComplete c s
  | .halfRateRestEnd c => Sys2Proof.Machine.execHalfRateRestEnd c s
  | .separationEvaluation c => Sys2Proof.Machine.execSeparationEvaluation c s
  | .evaluationCommit c => Sys2Proof.Machine.execEvaluationCommit c s
  | .xPathOverrun c => Sys2Proof.Machine.execXPathOverrun c s
  | .yPathCheck c flags => Sys2Proof.Machine.execYPathCheck c flags s
  | .tokenRequest c k z => Sys2Proof.Machine.execTokenRequest c k z s
  | .keep c k z => Sys2Proof.Machine.execKeep c k z s
  | .unkeep c k z => Sys2Proof.Machine.execUnkeep c k z s
  | .cancel c k z => Sys2Proof.Machine.execCancel c k z s
  | .tokenRetry c => Sys2Proof.Machine.execTokenRetry c s
  | .transitTimeout c z => Sys2Proof.Machine.execTransitTimeout c z s
  | .holderLost c z => Sys2Proof.Machine.execHolderLost c z s
  | .ledgerSend c => Sys2Proof.Machine.execLedgerSend c s
  | .provisionalEnd c => Sys2Proof.Machine.execProvisionalEnd c s
  | .tokenRecovery c v => Sys2Proof.Machine.execTokenRecovery c v s
  | .recoverRepeat c => Sys2Proof.Machine.execRecoverRepeat c s
  | .safetyTick c xyDiff clkBad => Sys2Proof.Machine.execSafetyTick c xyDiff clkBad s
  | .siLevelAccepted c n lvl => Sys2Proof.Machine.execSiLevelAccepted c n lvl s
  | .testPulse c t => Sys2Proof.Machine.execTestPulse c t s
  | .testPulseSample c t highs => Sys2Proof.Machine.execTestPulseSample c t highs s
  | .discrepancyTimeout c f => Sys2Proof.Machine.execDiscrepancyTimeout c f s
  | .contactDiscrepancy c f hand => Sys2Proof.Machine.execContactDiscrepancy c f hand s
  | .resetWindowExpiry c => Sys2Proof.Machine.execResetWindowExpiry c s
  | .ss1Timeout c g => Sys2Proof.Machine.execSs1Timeout c g s
  | .outputReadback c levels => Sys2Proof.Machine.execOutputReadback c levels s
  | .plantDatagram c bytes => Sys2Proof.Machine.execPlantDatagram c bytes s
  | .connectionWatchdogExpiry c n => Sys2Proof.Machine.execConnectionWatchdogExpiry c n s
  | .portBlockLock c port => Sys2Proof.Machine.execPortBlockLock c port s
  | .portLockLoss c port => Sys2Proof.Machine.execPortLockLoss c port s
  | .exclusiveFrame c port macOk bytes sfd => Sys2Proof.Machine.execExclusiveFrame c port macOk bytes sfd s
  | .arbitratingFrame c port macOk bytes sfd => Sys2Proof.Machine.execArbitratingFrame c port macOk bytes sfd s
  | .startupFrame c port macOk bytes sfd => Sys2Proof.Machine.execStartupFrame c port macOk bytes sfd s
  | .delayRequest c port macOk bytes sfd => Sys2Proof.Machine.execDelayRequest c port macOk bytes sfd s
  | .delayResponse c port macOk bytes sfd => Sys2Proof.Machine.execDelayResponse c port macOk bytes sfd s
  | .delayMeasurementSend c => Sys2Proof.Machine.execDelayMeasurementSend c s
  | .minislotStart c m busy => Sys2Proof.Machine.execMinislotStart c m busy s
  | .arbitratingDeferredSend c => Sys2Proof.Machine.execArbitratingDeferredSend c s
  | .acceptanceWindowClose c sidx => Sys2Proof.Machine.execAcceptanceWindowClose c sidx s
  | .auditSnapshot c => Sys2Proof.Machine.execAuditSnapshot c s
  | .offsetStep c => Sys2Proof.Machine.execOffsetStep c s
  | .reint c => Sys2Proof.Machine.execReint c s
  | .clrcnt c => Sys2Proof.Machine.execClrcnt c s
  | .ringOpenCheck c => Sys2Proof.Machine.execRingOpenCheck c s
  | .listenEnd c => Sys2Proof.Machine.execListenEnd c s
  | .startupSend c => Sys2Proof.Machine.execStartupSend c s
  | .startupRivalWait c => Sys2Proof.Machine.execStartupRivalWait c s
  | .coldStartRetry c => Sys2Proof.Machine.execColdStartRetry c s
  | .referenceSilent c => Sys2Proof.Machine.execReferenceSilent c s
  | .noReference c => Sys2Proof.Machine.execNoReference c s
  | .hostrelaySend c v => Sys2Proof.Machine.execHostrelaySend c v s
  | .rxfullClear c => Sys2Proof.Machine.execRxfullClear c s
  | .sync c n m => Sys2Proof.Machine.execSync c n m s
  | .followUp c n m => Sys2Proof.Machine.execFollowUp c n m s
  | .announce c n m => Sys2Proof.Machine.execAnnounce c n m s
  | .delayReq c n => Sys2Proof.Machine.execDelayReq c n s
  | .delayResp c n m => Sys2Proof.Machine.execDelayResp c n m s
  | .announceReceiptTimeout c n => Sys2Proof.Machine.execAnnounceReceiptTimeout c n s
  | .pnincWrite c n v => Sys2Proof.Machine.execPnincWrite c n v s
  | .pnstepWrite c n v => Sys2Proof.Machine.execPnstepWrite c n v s
  | .pselWrite c v => Sys2Proof.Machine.execPselWrite c v s
  | .snap c => Sys2Proof.Machine.execSnap c s
  | .evtgtHiWrite c n v => Sys2Proof.Machine.execEvtgtHiWrite c n v s
  | .evperWrite c n v => Sys2Proof.Machine.execEvperWrite c n v s
  | .evdlyWrite c n v => Sys2Proof.Machine.execEvdlyWrite c n v s
  | .timeEventFire c n => Sys2Proof.Machine.execTimeEventFire c n s
  | .tevPulseEnd c n => Sys2Proof.Machine.execTevPulseEnd c n s
  | .checkpointSnapshot c => Sys2Proof.Machine.execCheckpointSnapshot c s
  | .partnerSilent c => Sys2Proof.Machine.execPartnerSilent c s
  | .yield c key => Sys2Proof.Machine.execYield c key s
  | .drill c key => Sys2Proof.Machine.execDrill c key s
  | .yieldInstant c => Sys2Proof.Machine.execYieldInstant c s
  | .returnClaim c => Sys2Proof.Machine.execReturnClaim c s
  | .drillOverdue c => Sys2Proof.Machine.execDrillOverdue c s
  | .functionLevelReset c => Sys2Proof.Machine.execFunctionLevelReset c s
  | .d3hotEntry c => Sys2Proof.Machine.execD3hotEntry c s
  | .linkDown => Sys2Proof.Machine.execLinkDown s
  | .hotReset => Sys2Proof.Machine.execHotReset s
  | .perst => Sys2Proof.Machine.execPerst s
  | .registerWrite c path ofs v be => Sys2Proof.Machine.execRegisterWrite c path ofs v be s
  | .bar2Write c path ofs bytes => Sys2Proof.Machine.execBar2Write c path ofs bytes s
  | .lowWordRead c path ofs => Sys2Proof.Machine.execLowWordRead c path ofs s
  | .highWordRead c path ofs => Sys2Proof.Machine.execHighWordRead c path ofs s
  | .spiRead addr n => Sys2Proof.Machine.execSpiRead addr n s
  | .spiQread addr n => Sys2Proof.Machine.execSpiQread addr n s
  | .spiWrite addr words => Sys2Proof.Machine.execSpiWrite addr words s
  | .spiQwrite addr words => Sys2Proof.Machine.execSpiQwrite addr words s
  | .spiStatus => Sys2Proof.Machine.execSpiStatus s
  | .spiCsRise partialWord => Sys2Proof.Machine.execSpiCsRise partialWord s
  | .hostResetCommand c key => Sys2Proof.Machine.execHostResetCommand c key s
  | .evpendClear c v => Sys2Proof.Machine.execEvpendClear c v s
  | .heldRecordWrite c => Sys2Proof.Machine.execHeldRecordWrite c s
  | .traceDataRead c path => Sys2Proof.Machine.execTraceDataRead c path s
  | .flush c inRecord => Sys2Proof.Machine.execFlush c inRecord s
  | .flushComplete c => Sys2Proof.Machine.execFlushComplete c s
  | .dump c blk => Sys2Proof.Machine.execDump c blk s
  | .matrixCycleStatistics c => Sys2Proof.Machine.execMatrixCycleStatistics c s
  | .cfgWrite c key => Sys2Proof.Machine.execCfgWrite c key s
  | .cfgWriteDone c ok => Sys2Proof.Machine.execCfgWriteDone c ok s
  | .cfgInvalidate c key => Sys2Proof.Machine.execCfgInvalidate c key s
  | .bindWrite c v => Sys2Proof.Machine.execBindWrite c v s
  | .bindArmExpiry c => Sys2Proof.Machine.execBindArmExpiry c s
  | .powerOn => Sys2Proof.Machine.execPowerOn s
  | .railLoss rail => Sys2Proof.Machine.execRailLoss rail s
  | .resetPin c => Sys2Proof.Machine.execResetPin c s
  | .supervisorWatchdog c => Sys2Proof.Machine.execSupervisorWatchdog c s
  | .islandWatchdog c => Sys2Proof.Machine.execIslandWatchdog c s
  | .pllLossOfLock c => Sys2Proof.Machine.execPllLossOfLock c s
  | .referenceLoss c => Sys2Proof.Machine.execReferenceLoss c s
  | .clockRecovery c => Sys2Proof.Machine.execClockRecovery c s
  | .uncorrectableSramError c => Sys2Proof.Machine.execUncorrectableSramError c s
  | .resetRequest c key => Sys2Proof.Machine.execResetRequest c key s
  | .overTemperature c => Sys2Proof.Machine.execOverTemperature c s
  | .brownout c => Sys2Proof.Machine.execBrownout c s
  | .vddDroop c => Sys2Proof.Machine.execVddDroop c s
  | .domainStable c dom => Sys2Proof.Machine.execDomainStable c dom s
  | .trimLoadDone c agree crcOk tabOk => Sys2Proof.Machine.execTrimLoadDone c agree crcOk tabOk s
  | .coldStart c bistOk selfTestOk => Sys2Proof.Machine.execColdStart c bistOk selfTestOk s
  | .warmStart c digestsOk selfTestOk => Sys2Proof.Machine.execWarmStart c digestsOk selfTestOk s
  | .positionAcquisitionTimeout c => Sys2Proof.Machine.execPositionAcquisitionTimeout c s
  | .startComplete c => Sys2Proof.Machine.execStartComplete c s
  | .blockResetAssert c blk => Sys2Proof.Machine.execBlockResetAssert c blk s
  | .blockIdle c => Sys2Proof.Machine.execBlockIdle c s
  | .blockIdleTimeout c => Sys2Proof.Machine.execBlockIdleTimeout c s
  | .blockResetRelease c blk => Sys2Proof.Machine.execBlockResetRelease c blk s
  | .fuseProgram c key => Sys2Proof.Machine.execFuseProgram c key s
  | .fuseProgramDone c ok => Sys2Proof.Machine.execFuseProgramDone c ok s
  | .f1End c => Sys2Proof.Machine.execF1End c s
  | .f2Timeout c k => Sys2Proof.Machine.execF2Timeout c k s
  | .fltAck c v => Sys2Proof.Machine.execFltAck c v s
  | .fltQpop c merged => Sys2Proof.Machine.execFltQpop c merged s
  | .flashRingWrite c => Sys2Proof.Machine.execFlashRingWrite c s
  | .flashRingRewrite c => Sys2Proof.Machine.execFlashRingRewrite c s
  | .sensorConversion c n t => Sys2Proof.Machine.execSensorConversion c n t s
  | .sensorTimeout c n => Sys2Proof.Machine.execSensorTimeout c n s
  | .surgePeriodLimit c => Sys2Proof.Machine.execSurgePeriodLimit c s
  | .surgeRestEnd c => Sys2Proof.Machine.execSurgeRestEnd c s
  | .updateStart c key => Sys2Proof.Machine.execUpdateStart c key s
  | .updateResume c key => Sys2Proof.Machine.execUpdateResume c key s
  | .block c key => Sys2Proof.Machine.execBlock c key s
  | .blockProgramDone c ok => Sys2Proof.Machine.execBlockProgramDone c ok s
  | .finish c key => Sys2Proof.Machine.execFinish c key s
  | .updateAbort c key => Sys2Proof.Machine.execUpdateAbort c key s
  | .cmpPulseEnd c n => Sys2Proof.Machine.execCmpPulseEnd c n s
  | .testPulseEnd c t => Sys2Proof.Machine.execTestPulseEnd c t s
  | .mixedDecayFastEnd c n coil => Sys2Proof.Machine.execMixedDecayFastEnd c n coil s
  | .droopEnd c => Sys2Proof.Machine.execDroopEnd c s
  | .resetPinRelease c => Sys2Proof.Machine.execResetPinRelease c s
  | .tapInstruction op => Sys2Proof.Machine.execTapInstruction op s
  | .linkUp speed width => Sys2Proof.Machine.execLinkUp speed width s
  | .d0Entry c => Sys2Proof.Machine.execD0Entry c s
  | .memorySpaceEnableWrite c mse bme => Sys2Proof.Machine.execMemorySpaceEnableWrite c mse bme s
  | .cfgInvalidateDone c => Sys2Proof.Machine.execCfgInvalidateDone c s
  | .updateStartDone c => Sys2Proof.Machine.execUpdateStartDone c s
  | .updateFinishDone c sigOk burnOk progOk => Sys2Proof.Machine.execUpdateFinishDone c sigOk burnOk progOk s

end Sys2Proof.Machine
end

