-- ==== Sys2Proof/Machine/Idle.lean ====
section
/-!
DEFINITION. What the block does while no command waits: one tick of CLK_SYS.
-/
namespace Sys2Proof.Machine

open Sys2Proof

/-- One tick of CLK_SYS in a channel that is not held in reset (R320). -/
def ChanState.tick (ch : ChanState) : ChanState := if ch.rst.held then ch else ch.ticks 1

/-- One tick of each channel the package has. -/
def idleTick (s : State) : State := (s.onChan .A ChanState.tick).onChan .B ChanState.tick

end Sys2Proof.Machine
end

