-- ==== Sys2Proof/Safety.lean ====
section
/-!
DEFINITION. What claims about runs are stated in: that a step goes on, and where torque may stand.
-/
namespace Sys2Proof.Machine

open Sys2Proof

/-! ### The channel a command stays within -/

/-- The channel a command acts on and does not reach beyond; none for what may reset both channels (R404, R406), for accesses of the host
paths, and for the device's pins (R13). -/
def within : Instr → Option Chan
  | .goReady c _ _ => some c
  | .goRun c _ _ => some c
  | .stop c _ _ => some c
  | .toSafeIdle c _ _ => some c
  | .maintain c _ _ => some c
  | .restart c _ _ => some c
  | .lockoutAck c _ _ => some c
  | .brakeReleaseDone c => some c
  | .brakeEngageDone c _ => some c
  | .basicCycleStart c => some c
  | .profileEvaluation c => some c
  | .armGo c _ => some c
  | .hold c _ => some c
  | .resume c _ => some c
  | .abort c _ => some c
  | .play c _ _ => some c
  | .jointGo c _ => some c
  | .jointStop c _ => some c
  | .arm c _ => some c
  | .disarm c _ => some c
  | .segmentAppend c _ _ => some c
  | .rampParameterWrite c _ _ _ => some c
  | .compareArm c _ _ => some c
  | .tableRelease c => some c
  | .releaseResume c => some c
  | .taskDispatch c _ => some c
  | .taskDeadline c => some c
  | .taskCycleLimit c _ => some c
  | .engineRestart c _ => some c
  | .clrmax c _ => some c
  | .engineEnableWrite c _ _ => some c
  | .illegalInstruction c _ _ => some c
  | .leNop c _ => some c
  | .leBr c _ _ _ => some c
  | .leCall c _ _ _ => some c
  | .leRet c _ _ => some c
  | .leRep c _ _ _ _ => some c
  | .leRepr c _ _ _ _ => some c
  | .leAsk c _ => some c
  | .leDone c _ => some c
  | .leLdi c _ _ _ => some c
  | .leLdp c _ _ _ => some c
  | .leLdDirect c _ _ _ => some c
  | .leStDirect c _ _ _ => some c
  | .leLdPointer c _ _ _ => some c
  | .leStPointer c _ _ _ => some c
  | .leLd2 c _ _ _ _ _ => some c
  | .leMov c _ _ _ => some c
  | .leLda c _ _ _ => some c
  | .leSta c _ _ _ _ => some c
  | .leRnd c _ _ _ _ _ => some c
  | .leMpy c _ _ _ _ _ => some c
  | .leMac c _ _ _ _ _ => some c
  | .leMsu c _ _ _ _ _ => some c
  | .leMpym c _ _ _ _ _ => some c
  | .leMacm c _ _ _ _ _ => some c
  | .leMacx c _ _ _ _ _ => some c
  | .leLdac c _ _ _ _ _ => some c
  | .leAdda c _ _ _ _ _ => some c
  | .leSuba c _ _ _ _ _ => some c
  | .leAccClr c _ _ _ => some c
  | .leAccMov c _ _ _ => some c
  | .leAccAdd c _ _ _ => some c
  | .leAccSub c _ _ _ => some c
  | .leAccNeg c _ _ _ => some c
  | .leAccAbs c _ _ _ => some c
  | .leAsh c _ _ _ _ => some c
  | .leAdd c _ _ _ _ _ => some c
  | .leSub c _ _ _ _ _ => some c
  | .leAddi c _ _ _ _ _ => some c
  | .leAnd c _ _ _ _ => some c
  | .leOr c _ _ _ _ => some c
  | .leShl c _ _ _ _ _ => some c
  | .leAsr c _ _ _ _ => some c
  | .leNeg c _ _ _ _ => some c
  | .leAbs c _ _ _ _ => some c
  | .leMin c _ _ _ _ => some c
  | .leMax c _ _ _ _ => some c
  | .leClmp c _ _ _ _ => some c
  | .leCmp c _ _ _ => some c
  | .leBtst c _ _ _ => some c
  | .leMuld c _ _ _ _ _ _ => some c
  | .leDiv c _ _ _ _ _ => some c
  | .leSqrt c _ _ _ _ => some c
  | .leTrig c _ _ _ => some c
  | .leMinx c _ _ _ _ => some c
  | .leMaxx c _ _ _ _ => some c
  | .leCmov c _ _ _ _ => some c
  | .pwmReload c _ => some c
  | .pwmEdge c _ _ _ => some c
  | .loadall c _ => some c
  | .trip c _ => some c
  | .tripInputRelease c _ => some c
  | .tripclr c _ => some c
  | .pwmEnableWrite c _ _ => some c
  | .sigmaDeltaSampleReady c _ _ => some c
  | .sigmaDeltaInputInvalid c _ => some c
  | .ownSlotStart c _ _ => some c
  | .ownFrameDeferredSend c _ => some c
  | .brickTripClear c _ => some c
  | .microstepEmit c _ => some c
  | .coilThresholdReached c _ _ => some c
  | .coilOffEnd c _ _ => some c
  | .coilNoTrip c _ _ => some c
  | .holdDelayExpiry c _ => some c
  | .encoderEdge c _ _ _ => some c
  | .index c _ => some c
  | .idxarm c _ => some c
  | .clrerr c _ => some c
  | .serialLatch c _ _ => some c
  | .serialSampleReady c _ _ _ => some c
  | .startTimeout c _ => some c
  | .monoflopTimeout c _ => some c
  | .dpoEdgeEmit c _ => some c
  | .dpoRatioWrite c _ _ _ => some c
  | .safetyPositionEvaluation c => some c
  | .hprodWrite c _ => some c
  | .habort c => some c
  | .descriptorTake c => some c
  | .problemRelease c => some c
  | .solverDispatch c => some c
  | .solverDeadline c => some c
  | .problemComplete c => some c
  | .modelTaskComplete c => some c
  | .halfRateRestEnd c => some c
  | .separationEvaluation c => some c
  | .evaluationCommit c => some c
  | .xPathOverrun c => some c
  | .yPathCheck c _ => some c
  | .tokenRequest c _ _ => some c
  | .keep c _ _ => some c
  | .unkeep c _ _ => some c
  | .cancel c _ _ => some c
  | .tokenRetry c => some c
  | .transitTimeout c _ => some c
  | .holderLost c _ => some c
  | .ledgerSend c => some c
  | .provisionalEnd c => some c
  | .tokenRecovery c _ => some c
  | .recoverRepeat c => some c
  | .safetyTick c _ _ => some c
  | .siLevelAccepted c _ _ => some c
  | .testPulse c _ => some c
  | .testPulseSample c _ _ => some c
  | .discrepancyTimeout c _ => some c
  | .contactDiscrepancy c _ _ => some c
  | .resetWindowExpiry c => some c
  | .ss1Timeout c _ => some c
  | .outputReadback c _ => some c
  | .plantDatagram c _ => some c
  | .connectionWatchdogExpiry c _ => some c
  | .portBlockLock c _ => some c
  | .portLockLoss c _ => some c
  | .exclusiveFrame c _ _ _ _ => some c
  | .arbitratingFrame c _ _ _ _ => some c
  | .startupFrame c _ _ _ _ => some c
  | .delayRequest c _ _ _ _ => some c
  | .delayResponse c _ _ _ _ => some c
  | .delayMeasurementSend c => some c
  | .minislotStart c _ _ => some c
  | .arbitratingDeferredSend c => some c
  | .acceptanceWindowClose c _ => some c
  | .auditSnapshot c => some c
  | .offsetStep c => some c
  | .reint c => some c
  | .clrcnt c => some c
  | .ringOpenCheck c => some c
  | .listenEnd c => some c
  | .startupSend c => some c
  | .startupRivalWait c => some c
  | .coldStartRetry c => some c
  | .referenceSilent c => some c
  | .noReference c => some c
  | .hostrelaySend c _ => some c
  | .rxfullClear c => some c
  | .sync c _ _ => some c
  | .followUp c _ _ => some c
  | .announce c _ _ => some c
  | .delayReq c _ => some c
  | .delayResp c _ _ => some c
  | .announceReceiptTimeout c _ => some c
  | .pnincWrite c _ _ => some c
  | .pnstepWrite c _ _ => some c
  | .pselWrite c _ => some c
  | .snap c => some c
  | .evtgtHiWrite c _ _ => some c
  | .evperWrite c _ _ => some c
  | .evdlyWrite c _ _ => some c
  | .timeEventFire c _ => some c
  | .tevPulseEnd c _ => some c
  | .checkpointSnapshot c => some c
  | .partnerSilent c => some c
  | .yield c _ => some c
  | .drill c _ => some c
  | .yieldInstant c => some c
  | .returnClaim c => some c
  | .drillOverdue c => some c
  | .functionLevelReset c => some c
  | .d3hotEntry c => some c
  | .linkDown => none
  | .hotReset => none
  | .perst => none
  | .registerWrite _ _ _ _ _ => none
  | .bar2Write _ _ _ _ => none
  | .lowWordRead _ _ _ => none
  | .highWordRead _ _ _ => none
  | .spiRead _ _ => none
  | .spiQread _ _ => none
  | .spiWrite _ _ => none
  | .spiQwrite _ _ => none
  | .spiStatus => none
  | .spiCsRise _ => none
  | .hostResetCommand _ _ => none
  | .evpendClear c _ => some c
  | .heldRecordWrite c => some c
  | .traceDataRead _ _ => none
  | .flush c _ => some c
  | .flushComplete c => some c
  | .dump _ _ => none
  | .matrixCycleStatistics c => some c
  | .cfgWrite c _ => some c
  | .cfgWriteDone c _ => some c
  | .cfgInvalidate c _ => some c
  | .bindWrite c _ => some c
  | .bindArmExpiry c => some c
  | .powerOn => none
  | .railLoss _ => none
  | .resetPin _ => none
  | .supervisorWatchdog _ => none
  | .islandWatchdog _ => none
  | .pllLossOfLock _ => none
  | .referenceLoss _ => none
  | .clockRecovery c => some c
  | .uncorrectableSramError _ => none
  | .resetRequest _ _ => none
  | .overTemperature _ => none
  | .brownout _ => none
  | .vddDroop c => some c
  | .domainStable c _ => some c
  | .trimLoadDone c _ _ _ => some c
  | .coldStart c _ _ => some c
  | .warmStart c _ _ => some c
  | .positionAcquisitionTimeout c => some c
  | .startComplete c => some c
  | .blockResetAssert c _ => some c
  | .blockIdle c => some c
  | .blockIdleTimeout c => some c
  | .blockResetRelease c _ => some c
  | .fuseProgram c _ => some c
  | .fuseProgramDone c _ => some c
  | .f1End c => some c
  | .f2Timeout c _ => some c
  | .fltAck c _ => some c
  | .fltQpop c _ => some c
  | .flashRingWrite c => some c
  | .flashRingRewrite c => some c
  | .sensorConversion _ _ _ => none
  | .sensorTimeout c _ => some c
  | .surgePeriodLimit c => some c
  | .surgeRestEnd c => some c
  | .updateStart c _ => some c
  | .updateResume c _ => some c
  | .block c _ => some c
  | .blockProgramDone c _ => some c
  | .finish c _ => some c
  | .updateAbort c _ => some c
  | .cmpPulseEnd c _ => some c
  | .testPulseEnd c _ => some c
  | .mixedDecayFastEnd c _ _ => some c
  | .droopEnd c => some c
  | .resetPinRelease _ => none
  | .tapInstruction _ => none
  | .linkUp _ _ => none
  | .d0Entry c => some c
  | .memorySpaceEnableWrite c _ _ => some c
  | .cfgInvalidateDone c => some c
  | .updateStartDone c => some c
  | .updateFinishDone c _ _ _ => some c

/-- The commands of channel resets, starts and the endpoint's functions: they act on a channel that is held in reset (R365, R402, R413). -/
def whileHeld : Instr → Bool
  | .functionLevelReset _ => true
  | .d3hotEntry _ => true
  | .d0Entry _ => true
  | .memorySpaceEnableWrite _ _ _ => true
  | .evpendClear _ _ => true
  | .clockRecovery _ => true
  | .trimLoadDone _ _ _ _ => true
  | .coldStart _ _ _ => true
  | .warmStart _ _ _ => true
  | _ => false

/-! ### What a command may change -/

/-- A part of a channel: a range of registers, registers that stand a fixed distance apart, or a group of what it holds beside them. -/
inductive Part where
  /-- Registers from `lo` up to but not including `hi`. -/
  | regs (lo hi : Nat)
  /-- Of those, the ones at offset `r` of every `m` bytes. -/
  | each (lo hi m r : Nat)
  | clock
  | tev
  | ptp
  | flt
  | trc
  | sent
  | fresh
  | goingReady
  | arms
  | joints
  | cmps
  | vm
  | pool
  | sch
  | engines
  | prog
  | rst
  | bcDone
  | pevT
  | loaded
  | enc
  | rem
  | dpo
  | jsp
  | pwm
  | stp
  | bricks
  | ring
  | lockMark
  | saf
  | scx
  | sep
  | smem
  | cb
  | red
  | nvm
  | cfg
  | cps
  | readyAt
  | fn
  | lehr
  | slv
deriving DecidableEq, Repr

/-- Whether a part names the register at an offset. -/
def Part.covers : Part → Nat → Bool
  | .regs lo hi, o => decide (lo ≤ o) && decide (o < hi)
  | .each lo hi m r, o => decide (lo ≤ o) && decide (o < hi) && decide (o % m = r)
  | _, _ => false

/-- A channel with its registers and the parts `T` blanked out. -/
def ChanState.without (T : List Part) (ch : ChanState) : ChanState :=
  { ch with
    regs := []
    ct := if T.contains .clock then 0 else ch.ct
    pt1 := if T.contains .clock then 0 else ch.pt1
    pt2 := if T.contains .clock then 0 else ch.pt2
    mono := if T.contains .clock then 0 else ch.mono
    tev := if T.contains .tev then [] else ch.tev
    ptp := if T.contains .ptp then [] else ch.ptp
    flt := if T.contains .flt then {} else ch.flt
    trc := if T.contains .trc then {} else ch.trc
    sent := if T.contains .sent then [] else ch.sent
    fresh := if T.contains .fresh then 0 else ch.fresh
    goingReady := if T.contains .goingReady then false else ch.goingReady
    arms := if T.contains .arms then [] else ch.arms
    joints := if T.contains .joints then [] else ch.joints
    cmps := if T.contains .cmps then [] else ch.cmps
    vm := if T.contains .vm then [] else ch.vm
    pool := if T.contains .pool then [] else ch.pool
    sch := if T.contains .sch then {} else ch.sch
    engines := if T.contains .engines then [] else ch.engines
    prog := if T.contains .prog then [] else ch.prog
    rst := if T.contains .rst then {} else ch.rst
    bcDone := if T.contains .bcDone then none else ch.bcDone
    pevT := if T.contains .pevT then none else ch.pevT
    loaded := if T.contains .loaded then false else ch.loaded
    enc := if T.contains .enc then [] else ch.enc
    rem := if T.contains .rem then [] else ch.rem
    dpo := if T.contains .dpo then [] else ch.dpo
    jsp := if T.contains .jsp then [] else ch.jsp
    pwm := if T.contains .pwm then [] else ch.pwm
    stp := if T.contains .stp then [] else ch.stp
    bricks := if T.contains .bricks then [] else ch.bricks
    ring := if T.contains .ring then [] else ch.ring
    lockMark := if T.contains .lockMark then false else ch.lockMark
    saf := if T.contains .saf then {} else ch.saf
    scx := if T.contains .scx then [] else ch.scx
    sep := if T.contains .sep then {} else ch.sep
    smem := if T.contains .smem then [] else ch.smem
    cb := if T.contains .cb then {} else ch.cb
    red := if T.contains .red then {} else ch.red
    nvm := if T.contains .nvm then {} else ch.nvm
    cfg := if T.contains .cfg then {} else ch.cfg
    cps := if T.contains .cps then [] else ch.cps
    readyAt := if T.contains .readyAt then 0 else ch.readyAt
    fn := if T.contains .fn then {} else ch.fn
    lehr := if T.contains .lehr then {} else ch.lehr
    slv := if T.contains .slv then {} else ch.slv }

/-- `b` differs from `a` at most in the parts `T`. -/
structure Only (T : List Part) (a b : ChanState) : Prop where
  state : b.without T = a.without T
  word : ∀ f : RF, T.any (·.covers f.ofs) = false → b.word f = a.word f

/-- What telling the host changes: the trace FIFO, what is sent, the event tasks, with their registers. -/
def tellParts : List Part := [.trc, .sent, .sch, .regs 0x4000 0x6000, .regs 0x1F000 0x20000]

/-- What the local units and the brakes change: gates, coils, brake outputs. -/
def unitParts : List Part :=
  [.joints, .pwm, .stp, .each 0x10000 0x11000 256 0x38, .each 0x11000 0x12000 256 0x24, .regs 0x11840 0x11850]

/-- What a review of torque changes: the joints' torque with the units and the brakes. -/
def torqueParts : List Part := unitParts ++ [.each 0x8000 0xC000 256 0x80]

/-- What the end of host work changes: beside telling, the solver's batches, statuses and counts. -/
def hostParts : List Part := tellParts ++ [.slv, .smem, .regs 0x13000 0x13080]

/-- What a review of surge changes: beside telling, the lehr governor and the clock it raises. -/
def surgeParts : List Part := tellParts ++ [.lehr, .regs 0x1100 0x1101, .regs 0x13004 0x13005, .regs 0x1E804 0x1E805]

/-- What these change together. -/
def quietParts : List Part := torqueParts ++ (hostParts ++ surgeParts)

/-- What a change of the channel state changes: beside those, CHN_STATE and the energising of the groups. -/
def stateParts : List Part := quietParts ++ [.goingReady, .regs 4 5, .regs 0x16028 0x16029, .regs 0x16408 0x16448]

/-- What the reaction to a fault changes: beside those, the arms and the lockout marker. -/
def reactParts : List Part := stateParts ++ [.arms, .lockMark, .regs 0xC000 0x10000]

/-- What recording a fault changes: beside telling, the fault block and the flash ring. -/
def noteParts : List Part := tellParts ++ [.flt, .ring, .regs 0x1E000 0x1E800]

/-- What a fault changes with its reaction. -/
def faultParts : List Part := reactParts ++ noteParts

/-- What an evaluation of the profile units changes: beside faults and time, arms, joints, their registers, compare units, time-event
units and divided-pulse outputs. -/
def profileParts : List Part :=
  faultParts ++ [.clock, .fresh, .joints, .pevT, .cmps, .tev, .dpo, .regs 0xD000 0xE000, .regs 0x12C00 0x12CC0, .regs 0x1C400 0x1C800]

/-- What 0 ns of a basic cycle changes: beside noting faults and time, latches, samples, set-points, virtual masters and step commands. -/
def cycleParts : List Part :=
  noteParts ++ [.clock, .bcDone, .arms, .joints, .enc, .rem, .vm, .stp, .each 0x8000 0xC000 256 0x88, .regs 0xD500 0xD540,
    .regs 0x11000 0x11800, .regs 0x12000 0x12C00]

/-- What a count of an encoder port changes: beside faults, the port with its registers, and the units that take its count. -/
def countParts : List Part :=
  faultParts ++ [.clock, .enc, .cmps, .tev, .dpo, .regs 0x12000 0x12CC0, .regs 0x1C400 0x1C800]

/-- What the end of an engine's task changes: beside faults, the engine, the joint's loop and edge set, its duties, the solver. -/
def taskParts : List Part :=
  faultParts ++ [.fresh, .joints, .engines, .bricks, .red, .regs 0x6000 0xC000, .regs 0x10000 0x12000, .regs 0x13000 0x13100,
    .regs 0x1D000 0x1E000]

/-- What an instruction of a loop engine changes: the engine and its program counter. -/
def engineParts : List Part := [.engines, .sent, .regs 0x6000 0x7000]

/-- What a release or a dispatch changes: the scheduler, the engines, the joint's task marks. -/
def dispatchParts : List Part := [.clock, .sent, .sch, .fresh, .joints, .engines, .regs 0x5000 0x7000]

/-- What the separation monitor changes: beside faults and time, its results, the ledger, the override it sets. -/
def sepParts : List Part := faultParts ++ [.clock, .fresh, .sep, .regs 0x14000 0x16000]

/-- What the ledger of one zone and what is queued for it change: besides, what the host is told of a fault. -/
def tokenParts : List Part := noteParts ++ [.clock, .sep, .regs 0x15000 0x16000]

/-- What the safety island changes: beside faults and time, its blocks, groups and outputs, its connections, the volumes they carry. -/
def safetyParts : List Part := faultParts ++ [.clock, .fresh, .saf, .scx, .sep, .regs 0x14000 0x1A000]

/-- What the Cell Bus changes of itself: beside noting faults and time, its registers and what it holds. -/
def busParts : List Part := noteParts ++ [.clock, .fresh, .cb, .regs 0x1A000 0x1C000]

/-- What an own exclusive frame changes besides: what its records carry of bricks, connections and capsules. -/
def slotParts : List Part := busParts ++ [.bricks, .scx, .regs 0x11800 0x12000, .regs 0x18000 0x1A000]

/-- What muting or a new integration changes besides: the reaction to its fault, the ledger, the units that wait for cell time. -/
def ringParts : List Part := faultParts ++ [.clock, .fresh, .cb, .sep, .tev, .regs 0x15000 0x16000, .regs 0x1A000 0x1C000, .regs 0x1C400 0x1C800]

/-- Cell time runs at a rate within ±100 ppm of nominal, where R315 keeps it, and is not about to wrap. -/
abbrev ChanState.paced (ch : ChanState) : Prop :=
  0x3FFE6 ≤ ch.get Reg.CBUS_INC_INC ∧ ch.get Reg.CBUS_INC_INC ≤ 0x4001A ∧ ch.ct < 2 ^ 79

/-- Time has moved on to the first tick at or past `t` ns, and no further. -/
abbrev ChanState.reached (ch x : ChanState) (t : Nat) : Prop := t ≤ x.now ∧ ch.now ≤ x.now ∧ (x.now ≤ t + 4 ∨ x.now = ch.now)

/-- Time-event unit `n` has fired as domain `d` read `v` (R329): stamped, counted, FIRED, its pin low for its pulse where it has one. -/
abbrev tevFired (n v : Nat) (ch x : ChanState) : Prop :=
  x.get64 (Reg.TIM_EVTS n) = v ∧ x.get (Reg.TIM_EVCNT_FIRE n) = (ch.get (Reg.TIM_EVCNT_FIRE n) + 1) % 2 ^ 16 ∧
    x.bit (Reg.TIM_EVSTS_FIRED n) = true ∧ x.bit (Reg.TIM_EVSTS_ARMED n) = decide (ch.get (Reg.TIM_EVCFG_MODE n) = 2) ∧
    (ch.bit (Reg.TIM_EVCFG_PIN n) = true → (x.tevU n).pinTill = some (x.mono + 1000 * (ch.get (Reg.TIM_EVCFG_PW n) + 1)))

/-- The frames sent round the ring, and those sent to a neighbour on one port. -/
def ChanState.framed (x : ChanState) : List (List Byte) := x.sent.filterMap fun | .frame b => some b | _ => none
def ChanState.hopped (x : ChanState) (p : Nat) : List (List Byte) := x.sent.filterMap fun | .hop q b => if q = p then some b else none | _ => none

/-- A write of `v` at offset `o` has no effect beyond its access types. -/
abbrev plainReg (o v : Nat) : Prop :=
  actOf (if o < 0xC000 then portsLow else if o < 0x12000 then portsMid else portsHigh) o v = none ∧ o ≠ 0x20 ∧ o ≠ 0x4034 ∧ o ≠ 0x1F01C

/-- Every event release names Q1 or Q4, as SCH_EVT only can (R87). -/
abbrev ChanState.evtQueues (ch : ChanState) : Prop := ∀ e, e < 16 → ch.get (Reg.SCH_EVT_Q e) = 1 ∨ ch.get (Reg.SCH_EVT_Q e) = 4

/-- Phase `i` of PWM unit `u`. -/
def ChanState.phase (ch : ChanState) (u i : Nat) : Phase := Tab.get (ch.pwmU u).ph {} i

/-! ### Waiting commands of the profile units (R44) -/

/-- Arm `k` differs by `f` on the command bits that wait for the next sample; nothing else does but what a host write counts. -/
abbrev armWaits (k : Nat) (f : ArmCmd → ArmCmd) (ch x : ChanState) : Prop :=
  x.arm k = { ch.arm k with cmd := f (ch.arm k).cmd } ∧ (∀ i, i < 8 → i ≠ k → x.arm i = ch.arm i) ∧ Only (.arms :: tellParts) ch x

/-- The same of joint `j`. -/
abbrev jointWaits (j : Nat) (f : JointCmd → JointCmd) (ch x : ChanState) : Prop :=
  x.joint j = { ch.joint j with cmd := f (ch.joint j).cmd } ∧ (∀ i, i < 64 → i ≠ j → x.joint i = ch.joint i)

/-! ### Loop engines (R117, R118, R123, R126) -/

/-- Engine `n` can run an instruction of `cost` cycles: it has a task, whose code lies in user memory where it is user microcode, and the
cycle limit is not reached. -/
def ChanState.canLoop (ch : ChanState) (n cost : Nat) : Bool :=
  match (ch.engine n).task with
  | none => false
  | some t => (!ch.userTask t || decide (ch.get (Reg.LPE_PC_PC n) ≤ 0x1FFF)) && decide ((ch.engine n).cyc + cost < 8 * t.clim)

/-- The same, with no repeat active. -/
def ChanState.canRun (ch : ChanState) (n cost : Nat) : Bool := ch.canLoop n cost && (ch.engine n).reps.isEmpty

/-- Engine `n` has run an instruction of `cost` cycles and goes on at `pc`; the other engines and everything else are as before. -/
abbrev wentTo (n cost pc : Nat) (ch x : ChanState) : Prop :=
  (x.engine n).cyc = (ch.engine n).cyc + cost ∧ x.get (Reg.LPE_PC_PC n) = pc % 65536 ∧
    (∀ m, m < 8 → m ≠ n → x.engine m = ch.engine m) ∧ Only engineParts ch x

/-- Engine `n` has gone on to the next instruction. -/
abbrev wentOn (n cost : Nat) (ch x : ChanState) : Prop := wentTo n cost (ch.get (Reg.LPE_PC_PC n) + 1) ch x

/-- R113: what an exact result becomes in `w` bits: itself where it fits, else the nearest limit with S = 1 or the low bits with S = 0. -/
def ranged16 (sat : Bool) (r : Int) : Int :=
  if -32768 ≤ r ∧ r ≤ 32767 then r else if sat then (if r < 0 then -32768 else 32767) else (r + 32768) % 65536 - 32768
def ranged40 (sat : Bool) (r : Int) : Int :=
  if -549755813888 ≤ r ∧ r ≤ 549755813887 then r else if sat then (if r < 0 then -549755813888 else 549755813887)
  else (r + 549755813888) % 1099511627776 - 549755813888

/-- R115: Z and N tell of the value, V is `over`, the sticky bit `st` is set by an overflow and never cleared; the rest of FL stays. -/
abbrev flagsTook (e x : Engine) (v : Int) (exc : Bool) (st : Nat) : Prop :=
  x.fZ = (v == 0) ∧ x.fN = decide (v < 0) ∧ x.fV = exc ∧
    ∀ i, i < 16 → 3 ≤ i → x.fl.getLsbD i = (e.fl.getLsbD i || (i == st && exc))

/-- Dz holds `v`, and nothing but it, FL and the cycle count differs. -/
abbrev dTook (e x : Engine) (z : Fin 8) (v : Int) : Prop :=
  (x.dreg z).toInt = v ∧ (∀ i : Fin 8, i ≠ z → x.dreg i = e.dreg i) ∧ x = { e with d := x.d, fl := x.fl, cyc := x.cyc }

/-- ACa holds `v`, and nothing but it, FL and the cycle count differs. -/
abbrev accTook (e x : Engine) (a : AccSel) (v : Int) : Prop :=
  x.ax a = v ∧ x = { (e.setAcc a (x.acc a)) with fl := x.fl, cyc := x.cyc }

/-- An instruction of `cost` cycles with the exact result `r e` for Dz (R113, R115). -/
abbrev gaveD (n cost : Nat) (sat : Bool) (z : Fin 8) (r : Engine → Int) (ch x : ChanState) : Prop :=
  dTook (ch.engine n) (x.engine n) z (ranged16 sat (r (ch.engine n))) ∧
    flagsTook (ch.engine n) (x.engine n) (ranged16 sat (r (ch.engine n)))
      (decide (r (ch.engine n) < -32768 ∨ 32767 < r (ch.engine n))) 10 ∧ wentOn n cost ch x

/-- The same for ACa, of one cycle. -/
abbrev gaveAcc (n : Nat) (sat : Bool) (a : AccSel) (r : Engine → Int) (ch x : ChanState) : Prop :=
  accTook (ch.engine n) (x.engine n) a (ranged40 sat (r (ch.engine n))) ∧
    flagsTook (ch.engine n) (x.engine n) (ranged40 sat (r (ch.engine n)))
      (decide (r (ch.engine n) < -549755813888 ∨ 549755813887 < r (ch.engine n))) (match a with | .ac0 => 8 | .ac1 => 9) ∧
    wentOn n 1 ch x

/-- The pointers of the operands have been modified after their accesses, no other pointer (R112). -/
abbrev ptrsTook (e x : Engine) (p q : PtrOp) : Prop :=
  ∀ i : Fin 4, x.ptr i = if i = p.p then nextPtr (e.ptr i) (e.modr i) p.m else if i = q.p then nextPtr (e.ptr i) (e.modr i) q.m else e.ptr i

/-- `gaveAcc` of an instruction that reads its operands through pointers. -/
abbrev gaveAccM (n : Nat) (sat : Bool) (a : AccSel) (p q : PtrOp) (r : Engine → Int) (ch x : ChanState) : Prop :=
  (x.engine n).ax a = ranged40 sat (r (ch.engine n)) ∧ ptrsTook (ch.engine n) (x.engine n) p q ∧
    flagsTook (ch.engine n) (x.engine n) (ranged40 sat (r (ch.engine n)))
      (decide (r (ch.engine n) < -549755813888 ∨ 549755813887 < r (ch.engine n))) (match a with | .ac0 => 8 | .ac1 => 9) ∧
    x.engine n = { ((ch.engine n).setAcc a ((x.engine n).acc a)) with
      p := (x.engine n).p, fl := (x.engine n).fl, cyc := (x.engine n).cyc } ∧ wentOn n 1 ch x

/-- The address of the `i`-th access through a pointer operand, counted from 0. -/
def Engine.walk (e : Engine) (p : PtrOp) (i : Nat) : Ptr := Nat.repeat (fun a => nextPtr a (e.modr p.p) p.m) i (e.ptr p.p)

/-- MINX and MAXX (R121) over `k` > 0 words: the extreme by `le`, the lowest index that holds it, the pointer past the last word. -/
abbrev gaveExtreme (n : Nat) (le : Int → Int → Prop) (z : Fin 8) (p : PtrOp) (k : Nat) (ch x : ChanState) : Prop :=
  let at_ := fun i => ((ch.engine n).load ((ch.engine n).walk p i)).toInt
  let b := (Tab.get (x.engine n).d 0 (z.val + 1)).toNat
  (Tab.get (x.engine n).d 0 z.val).toInt = at_ b ∧ b < k ∧ (∀ i, i < k → le (at_ b) (at_ i)) ∧ (∀ i, i < b → ¬ le (at_ i) (at_ b)) ∧
    (x.engine n).ptr p.p = (ch.engine n).walk p k ∧ (∀ i : Fin 4, i ≠ p.p → (x.engine n).ptr i = (ch.engine n).ptr i) ∧
    (∀ i, i < 8 → i ≠ z.val → i ≠ z.val + 1 → Tab.get (x.engine n).d 0 i = Tab.get (ch.engine n).d 0 i) ∧
    flagsTook (ch.engine n) (x.engine n) (at_ b) false 0 ∧
    x.engine n = { ch.engine n with d := (x.engine n).d, p := (x.engine n).p, fl := (x.engine n).fl, cyc := (x.engine n).cyc } ∧
    wentOn n (2 + (k + 1) / 2) ch x

/-- The fault of this code, scope and index is active (R428). -/
abbrev ChanState.shows (ch : ChanState) (code : Nat) (scope : Option Nat) (index : Nat) : Prop :=
  ∃ a ∈ ch.flt.active, a.code = code ∧ a.scope = scope ∧ a.index = index

/-- One fault of this code and index has been recorded: counted, and in the fault queue unless that is full (R427, R428). -/
abbrev noted (code index : Nat) (ch x : ChanState) : Prop :=
  x.get Reg.FLT_TOTAL = (ch.get Reg.FLT_TOTAL + 1) % 2 ^ 32 ∧
    (32 ≤ ch.flt.queue.length ∨ ∃ r ∈ x.flt.queue, r.code = code ∧ r.index = index)

/-- Nothing of the engine but its cycle count differs. -/
abbrev Engine.keeps (e x : Engine) : Prop := x = { e with cyc := x.cyc }

/-- Engine `n` has halted on a fault: it stands, shows why and where, has no task, and F1 0x0405 is active (R95, R126). -/
abbrev halted (n : Nat) (ch x : ChanState) : Prop :=
  x.get (Reg.LPE_STS_STATE n) = 3 ∧ x.get (Reg.LPE_STS_FLT n) = 1 ∧ x.bit (Reg.LPE_STS_FLTS n) = true ∧
    x.get (Reg.LPE_PC_PC n) = ch.get (Reg.LPE_PC_PC n) ∧ (x.engine n).task = none ∧
    x.shows 0x0405 none n ∧ Only taskParts ch x

/-- Every buffer of the channel holds at most what the spec gives it: 128 tasks in a ready queue (R88), four entries in a return stack (R124),
two staged checkpoints (R343), 32 fault records (R433), 16 entries in the flash ring (R434). -/
abbrev ChanState.buffersHold (ch : ChanState) : Prop :=
  (∀ q, q < 5 → (ch.queue q).length ≤ 128) ∧ (∀ n, n < 8 → (ch.engine n).stack.length ≤ 4) ∧ ch.red.staged.length ≤ 2 ∧
    ch.flt.queue.length ≤ 32 ∧ ch.ring.length ≤ 16

/-! ### Statements about commands -/

/-- Whether a channel of the package takes commands: it is present and not held in reset. -/
abbrev State.runs (s : State) (c : Chan) : Prop := s.present c = true ∧ (s.chan c).rst.held = false

/-- In every state in which channel `c` runs and meets `pre`, the command answers a next state that differs in that channel alone, and
`post` relates the channel before and after. -/
def Acts (i : Instr) (c : Chan) (pre : ChanState → Prop) (post : ChanState → ChanState → Prop) : Prop :=
  ∀ s : State, s.runs c → pre (s.chan c) → ∃ x, exec i s = .next (s.setChan c x) ∧ post (s.chan c) x

/-- In every state that meets `pre` the command answers a next state, with the queue and the variant as they were, and `post` relates the
two. For commands that reach beyond one running channel. -/
def Gives (i : Instr) (pre : State → Prop) (post : State → State → Prop) : Prop :=
  ∀ s : State, pre s → ∃ t, exec i s = .next t ∧ (t.variant = s.variant ∧ t.pending = s.pending) ∧ post s t

/-- The count of reset source `q` (R407). -/
def causeCount (q : Nat) : RF := if q % 2 = 0 then Reg.RST_CNT_LO (q / 2) else Reg.RST_CNT_HI (q / 2)

/-- Channel `x` is held in reset at level `l` by source `q`: nothing but what R404 keeps is left of `ch`. -/
abbrev tookReset (q l : Nat) (ch x : ChanState) : Prop :=
  x.rst.held = true ∧ x.rst.level = l ∧ x.get Reg.RST_CAUSE_LVL = l ∧ x.get Reg.RST_CAUSE_SRC = q ∧
    x.get (causeCount q) = (if l = 3 then 1 else (ch.get (causeCount q) + 1) % 2 ^ 16) ∧
    x.get Reg.CHN_STATE_CODE = 1 ∧ (∀ j, j < 64 → x.get (Reg.JNT_BIND j) = 0) ∧ x.flt = {} ∧ x.arms = [] ∧ x.pool = [] ∧ x.cb = {} ∧
    x.nvm = ch.nvm ∧ x.ring = ch.ring ∧ x.lockMark = ch.lockMark ∧ x.mono = (if l = 1 then ch.mono else 0) ∧
    x.cps = (if l = 1 then ch.cps else []) ∧ x.cfg.image = (if l = 1 then ch.cfg.image else [])

/-- The source is taken at level `l`, outside a start and with the trim loaded. -/
abbrev ChanState.takes (ch : ChanState) (q l : Nat) : Prop :=
  ch.sourceLevel q = l ∧ ch.get Reg.CHN_STATE_CODE ≠ 1 ∧ ch.rst.trim = .loaded

/-- Nothing but channel `c` differs, what the other channel sent last aside. -/
abbrev besides (c : Chan) (s t : State) : Prop :=
  t.dev = s.dev ∧ { t.chan (other c) with sent := [] } = { s.chan (other c) with sent := [] }

/-- The step answers a next state: neither a fault nor a refusal. -/
def Goes (o : Host.Outcome State Fault Refusal) : Prop := ∃ t, o = .next t

/-- Outside READY, RUN, STOPPING and GO_READY no joint of the channel has its torque on (R276). -/
def ChanState.torqueSafe (ch : ChanState) : Prop :=
  ch.torqueState = false → ∀ j, j < 64 → ch.bound j = true → ch.bit (Reg.JNT_STS_TOFF j) = true

end Sys2Proof.Machine
end

