-- ==== Sys2Proof/Certificates/Slice0/Obligations.lean ====
section
/-!
DEFINITION. The statements for the provers, family by family.
-/

open Sys2Proof Sys2Proof.Machine

/-! ### The package -/

/-- A step with a command in front of the queue is that command on the state with the rest of the queue. -/
def Obligations.StepRunsFront : Prop :=
  ∀ (i : Instr) (rest : List Instr) (s : State), step { s with pending := i :: rest } = exec i { s with pending := rest }

/-- R320; that a step on an empty queue is one tick of CLK_SYS is the model's choice. In each channel that runs, cell time moves on by
CBUS_INC, the plant domains by theirs, monotonic time by 4 ns, and nothing else changes; a channel that is held stays as it is but for
what its last command sent; a channel the package does not have stays as it is. -/
def Obligations.IdleStepTicks : Prop :=
  ∀ s : State, s.pending = [] → ∃ t, step s = .next t ∧ t.dev = s.dev ∧ t.variant = s.variant ∧ t.pending = [] ∧
    ∀ c, (s.present c = true → (s.chan c).rst.held = false →
        (t.chan c).ct = ((s.chan c).ct + (s.chan c).get Reg.CBUS_INC_INC) % 2 ^ 80 ∧
        (t.chan c).pt1 = ((s.chan c).pt1 + (s.chan c).get (Reg.TIM_PINC 0)) % 2 ^ 88 ∧
        (t.chan c).pt2 = ((s.chan c).pt2 + (s.chan c).get (Reg.TIM_PINC 1)) % 2 ^ 88 ∧
        (t.chan c).mono = ((s.chan c).mono + 4) % 2 ^ 64 ∧ Only [.clock, .sent] (s.chan c) (t.chan c)) ∧
      (s.present c = true → (s.chan c).rst.held = true → t.chan c = { s.chan c with sent := [] }) ∧
      (s.present c = false → t.chan c = s.chan c)

/-- Every command answers a next state, takes exactly itself from the queue, and leaves the variant as it is. -/
def Obligations.CommandsTakenInOrder : Prop :=
  ∀ (i : Instr) (s : State), ∃ t, exec i s = .next t ∧ t.pending = s.pending ∧ t.variant = s.variant

/-- R12: a command that stays within one channel leaves the other channel, and the device's pins, as they are. -/
def Obligations.OtherChannelUntouched : Prop :=
  ∀ (i : Instr) (c d : Chan) (s t : State), within i = some c → d ≠ c → exec i s = .next t → t.chan d = s.chan d ∧ t.dev = s.dev

/-- R5, R6: on an EV7208 the state of channel B never changes, whatever the command. -/
def Obligations.Ev7208HasNoChannelB : Prop :=
  ∀ (s t : State), s.variant = .EV7208 ∧ s.chB = State.reset.chB → step s = .next t → t.variant = .EV7208 ∧ t.chB = State.reset.chB

/-- R88, R124, R343, R433, R434: the ready queues, the return stacks, the staged checkpoints, the fault queue and the flash ring never hold more
than the spec gives them, whatever the command. -/
def Obligations.BuffersHold : Prop :=
  ∀ (s t : State), (∀ c, (s.chan c).buffersHold) → step s = .next t → ∀ c, (t.chan c).buffersHold

/-- R365, R405: a channel that is held in reset takes no command but those of resets, starts and the endpoint's functions; a channel the
package does not have takes none. -/
def Obligations.HeldChannelStays : Prop :=
  ∀ (i : Instr) (c : Chan) (s : State), within i = some c →
    (s.present c = false → exec i s = .next s) ∧
    (whileHeld i = false → s.present c = true → (s.chan c).rst.held = true → exec i s = .next (s.setChan c { s.chan c with sent := [] }))

/-! ### Channel states (R28 to R33) -/

/-- R29: GO_RUN, STOP, TO_SAFE_IDLE and MAINTAIN, with the right key, alone in their CLK_SYS cycle, while CHN_STATE.BUSY is 0: CODE becomes
the state of the table, CAUSE 0x01, PREV the state left, TARGET the state that follows STOPPING. STOP asks every bound arm to stop. On the
way to SAFE_IDLE and MAINTENANCE every STO group is off and every bound joint's torque too (R28). Nothing else changes but what a change of
state is allowed to. -/
def Obligations.StateCommandsCarriedOut : Prop := ∀ c : Chan,
  Acts (.goRun c 0x57A7 false) c (fun ch => ch.bit Reg.CHN_STATE_BUSY = false ∧ ch.get Reg.CHN_STATE_CODE = 4)
    (fun ch x => x.get Reg.CHN_STATE_CODE = 5 ∧ x.get Reg.CHN_STATE_CAUSE = 1 ∧ x.get Reg.CHN_STATE_PREV = 4 ∧
      x.get Reg.CHN_STATE_TARGET = 0 ∧ Only stateParts ch x) ∧
  Acts (.stop c 0x57A7 false) c (fun ch => ch.bit Reg.CHN_STATE_BUSY = false ∧ ch.get Reg.CHN_STATE_CODE = 5)
    (fun ch x => x.get Reg.CHN_STATE_CODE = 6 ∧ x.get Reg.CHN_STATE_CAUSE = 1 ∧ x.get Reg.CHN_STATE_PREV = 5 ∧
      x.get Reg.CHN_STATE_TARGET = 4 ∧ (∀ k ∈ ch.boundArms, (x.arm k).stopL.isSome = true) ∧ Only (.arms :: stateParts) ch x) ∧
  Acts (.toSafeIdle c 0x57A7 false) c (fun ch => ch.bit Reg.CHN_STATE_BUSY = false ∧ ch.get Reg.CHN_STATE_CODE = 4)
    (fun ch x => x.get Reg.CHN_STATE_CODE = 3 ∧ x.get Reg.CHN_STATE_CAUSE = 1 ∧ x.get Reg.CHN_STATE_PREV = 4 ∧
      x.get Reg.CHN_STATE_TARGET = 0 ∧ (∀ g, g < 4 → x.get (Reg.SAF_STOSTS_ENG g) = 0) ∧
      (∀ j, j < 64 → ch.bound j = true → x.bit (Reg.JNT_STS_TOFF j) = true) ∧ Only stateParts ch x) ∧
  Acts (.maintain c 0x57A7 false) c (fun ch => ch.bit Reg.CHN_STATE_BUSY = false ∧ ch.get Reg.CHN_STATE_CODE = 3)
    (fun ch x => x.get Reg.CHN_STATE_CODE = 8 ∧ x.get Reg.CHN_STATE_CAUSE = 1 ∧ x.get Reg.CHN_STATE_PREV = 3 ∧
      x.get Reg.CHN_STATE_TARGET = 0 ∧ (∀ g, g < 4 → x.get (Reg.SAF_STOSTS_ENG g) = 0) ∧
      (∀ j, j < 64 → ch.bound j = true → x.bit (Reg.JNT_STS_TOFF j) = true) ∧ Only stateParts ch x)

/-- R33 and the field REJC: a command written with another key, with a fault reaction in the same cycle, while BUSY is 1, or in a state that
does not take it is rejected: REJ is set, REJC tells why, the channel stays in its state. That the reasons are judged in this order is the
model's choice (log entry 20). -/
def Obligations.StateCommandsRejected : Prop :=
  ∀ p ∈ [((Instr.goReady · · ·), [3]), ((Instr.goRun · · ·), [4]), ((Instr.stop · · ·), [5]), ((Instr.toSafeIdle · · ·), [4]),
      ((Instr.maintain · · ·), [3]), ((Instr.restart · · ·), [2, 8]), ((Instr.lockoutAck · · ·), [7])],
    ∀ (c : Chan) (key : BitVec 16) (coin : Bool),
      Acts (p.1 c key coin) c
        (fun ch => key ≠ 0x57A7 ∨ coin = true ∨ ch.bit Reg.CHN_STATE_BUSY = true ∨ ch.get Reg.CHN_STATE_CODE ∉ p.2)
        (fun ch x => x.bit Reg.CHN_STATE_REJ = true ∧
          x.get Reg.CHN_STATE_REJC = (if key ≠ 0x57A7 then 3 else if coin = true then 8 else if ch.bit Reg.CHN_STATE_BUSY = true then 2 else 1) ∧
          x.get Reg.CHN_STATE_CODE = ch.get Reg.CHN_STATE_CODE ∧ Only (.regs 4 5 :: tellParts) ch x)

/-- R30, R162: GO_READY with every condition of R30 met (no F2 or F3, every STO group in use permitted by its safety function, every bound
joint's position valid, the channel transmitting, every brick and drive of a joint present): BUSY is set, the groups in use are energised,
and READY is due once the slowest brake has been released; BRAKE_RELEASE_DONE ends it. Otherwise the command is rejected, and REJC names
a condition that does not hold.
R162, R163: once the brakes of an arm have engaged after its stop, its torque goes off, joint by joint. -/
def Obligations.ReadyAndBrakes : Prop := ∀ (c : Chan) (k : Fin 8),
Acts (.goReady c 0x57A7 false) c
    (fun ch => ch.bit Reg.CHN_STATE_BUSY = false ∧ ch.get Reg.CHN_STATE_CODE = 3 ∧ ch.classAny < 2 ∧
      (∀ g, g < 4 → ch.bit (Reg.SAF_STOCFG_EN g) = true → ch.bit (Reg.SAF_STOSTS_PERM g) = true) ∧ ch.positionsValid = true ∧
      ch.transmits = true ∧ ∀ n ∈ ch.jointNodes, ch.nodePresent n = true)
    (fun ch x => x.get Reg.CHN_STATE_CODE = 3 ∧ x.bit Reg.CHN_STATE_BUSY = true ∧ x.goingReady = true ∧
      x.readyAt = ch.mono + ch.releaseTime ∧ (∀ g, g < 4 → ch.bit (Reg.SAF_STOCFG_EN g) = true → x.bit (Reg.SAF_STOSTS_ENG g) = true) ∧
      Only (.readyAt :: stateParts) ch x) ∧
  Acts (.goReady c 0x57A7 false) c
    (fun ch => ch.bit Reg.CHN_STATE_BUSY = false ∧ ch.get Reg.CHN_STATE_CODE = 3 ∧
      (2 ≤ ch.classAny ∨ (∃ g, g < 4 ∧ ch.bit (Reg.SAF_STOCFG_EN g) = true ∧ ch.bit (Reg.SAF_STOSTS_PERM g) = false) ∨
        ch.positionsValid = false ∨ ch.transmits = false ∨ ∃ n ∈ ch.jointNodes, ch.nodePresent n = false))
    (fun ch x => x.get Reg.CHN_STATE_CODE = 3 ∧ x.bit Reg.CHN_STATE_REJ = true ∧ x.goingReady = ch.goingReady ∧
      (x.get Reg.CHN_STATE_REJC = 4 ∧ 2 ≤ ch.classAny ∨
       x.get Reg.CHN_STATE_REJC = 5 ∧ (∃ g, g < 4 ∧ ch.bit (Reg.SAF_STOCFG_EN g) = true ∧ ch.bit (Reg.SAF_STOSTS_PERM g) = false) ∨
       x.get Reg.CHN_STATE_REJC = 6 ∧ ch.positionsValid = false ∨
       x.get Reg.CHN_STATE_REJC = 7 ∧ (ch.transmits = false ∨ ∃ n ∈ ch.jointNodes, ch.nodePresent n = false)) ∧
      Only (.regs 4 5 :: tellParts) ch x) ∧
  Acts (.brakeReleaseDone c) c (fun ch => ch.goingReady = true)
    (fun ch x => x.get Reg.CHN_STATE_CODE = 4 ∧ x.get Reg.CHN_STATE_CAUSE = 1 ∧ x.get Reg.CHN_STATE_PREV = ch.get Reg.CHN_STATE_CODE ∧
      x.goingReady = false ∧ Only (.clock :: stateParts) ch x) ∧
Acts (.brakeEngageDone c k) c (fun ch => (ch.arm k.val).engaging.isSome = true)
    (fun ch x => (x.arm k.val).engaging = none ∧ (x.arm k.val).torqueOff = true ∧
      (∀ j, j < 64 → ch.bound j = true → ch.armOf j = k.val → x.bit (Reg.JNT_STS_TOFF j) = true) ∧
      Only (.clock :: .arms :: .saf :: stateParts) ch x)


/-- R32, R406: RESTART from COMMISSION or MAINTENANCE puts the channel into BOOT, held in reset at L2 for a cold start; the flash and what
is kept in it stay. LOCKOUT_ACK (R278, R424) with no cause of an F2 or F3 present and a qualified reset uses the reset up, clears every F2
and F3 with the lockout marker and leaves LOCKOUT for SAFE_IDLE, or for COMMISSION where the image in force was refused; with a cause
present or without the reset it is rejected. -/
def Obligations.RestartAndLockoutAck : Prop := ∀ c : Chan,
  Acts (.restart c 0x57A7 false) c
    (fun ch => ch.bit Reg.CHN_STATE_BUSY = false ∧ (ch.get Reg.CHN_STATE_CODE = 2 ∨ ch.get Reg.CHN_STATE_CODE = 8))
    (fun ch x => x.get Reg.CHN_STATE_CODE = 1 ∧ x.rst.held = true ∧ x.rst.level = 2 ∧ x.rst.why = 1 ∧ x.nvm = ch.nvm ∧ x.ring = ch.ring ∧
      x.lockMark = ch.lockMark ∧ x.flt = {} ∧ x.pool = []) ∧
  Acts (.lockoutAck c 0x57A7 false) c
    (fun ch => ch.bit Reg.CHN_STATE_BUSY = false ∧ ch.get Reg.CHN_STATE_CODE = 7 ∧ ch.bit Reg.SAF_STS_RSTQ = true ∧
      ∀ a ∈ ch.flt.active, 2 ≤ a.cls → ch.causePresent a = false)
    (fun ch x => x.get Reg.CHN_STATE_CODE = (if ch.cfg.refused then 2 else 3) ∧ x.get Reg.CHN_STATE_CAUSE = 7 ∧
      x.bit Reg.SAF_STS_RSTQ = false ∧ x.bit Reg.RST_STS_LMARK = false ∧ x.lockMark = false ∧ x.flt.active = ch.flt.active.filter (·.cls < 2) ∧
      (∀ k, k < 8 → (x.arm k).torqueOff = false)) ∧
  Acts (.lockoutAck c 0x57A7 false) c
    (fun ch => ch.bit Reg.CHN_STATE_BUSY = false ∧ ch.get Reg.CHN_STATE_CODE = 7 ∧
      (ch.bit Reg.SAF_STS_RSTQ = false ∨ ∃ a ∈ ch.flt.active, 2 ≤ a.cls ∧ ch.causePresent a = true))
    (fun ch x => x.get Reg.CHN_STATE_CODE = 7 ∧ x.bit Reg.CHN_STATE_REJ = true ∧ x.flt = ch.flt ∧ x.lockMark = ch.lockMark ∧
      Only (.regs 4 5 :: tellParts) ch x)

/-! ### Trajectory (R42 to R76) -/

/-- R44: ARM_GO, HOLD, RESUME, ABORT and PLAY wait as command bits of their arm for the sample at the next 0 ns; nothing else changes but
what a host write counts. -/
def Obligations.ArmCommandsWait : Prop := ∀ (c : Chan) (k : Fin 8) (t : Fin 32),
  Acts (.armGo c k) c (fun _ => True) (armWaits k fun a => { a with go := true }) ∧
  Acts (.hold c k) c (fun _ => True) (armWaits k fun a => { a with hold := true }) ∧
  Acts (.resume c k) c (fun _ => True) (armWaits k fun a => { a with resume := true }) ∧
  Acts (.abort c k) c (fun _ => True) (armWaits k fun a => { a with abort := true }) ∧
  Acts (.play c k t) c (fun _ => True) (armWaits k fun a => { a with play := some t.val })

/-- R44, R45, R50, R66: JOINT_GO, JOINT_STOP, ARM and DISARM wait as command bits of their joint; DISARM undoes an ARM that waits. GO and
STOP of a joint of a segment-mode arm are rejected with PRF_STS.REJ. A profile parameter shows its new value at once and waits with it. -/
def Obligations.JointCommandsWait : Prop := ∀ (c : Chan) (j : Fin 64) (which : RampParam) (v : Word),
  Acts (.jointGo c j) c (fun ch => ch.segJoint j = false)
    (fun ch x => jointWaits j (fun a => { a with go := true }) ch x ∧ Only (.joints :: tellParts) ch x) ∧
  Acts (.jointStop c j) c (fun ch => ch.segJoint j = false)
    (fun ch x => jointWaits j (fun a => { a with stop := true }) ch x ∧ Only (.joints :: tellParts) ch x) ∧
  Acts (.jointGo c j) c (fun ch => ch.segJoint j = true)
    (fun ch x => x.bit (Reg.PRF_STS_REJ j) = true ∧ Only (.each 0xE000 0x10000 128 0x24 :: tellParts) ch x) ∧
  Acts (.jointStop c j) c (fun ch => ch.segJoint j = true)
    (fun ch x => x.bit (Reg.PRF_STS_REJ j) = true ∧ Only (.each 0xE000 0x10000 128 0x24 :: tellParts) ch x) ∧
  Acts (.arm c j) c (fun _ => True)
    (fun ch x => jointWaits j (fun a => { a with arm := true }) ch x ∧ Only (.joints :: tellParts) ch x) ∧
  Acts (.disarm c j) c (fun _ => True)
    (fun ch x => jointWaits j (fun a => { a with disarm := true, arm := false }) ch x ∧ Only (.joints :: tellParts) ch x) ∧
  Acts (.rampParameterWrite c j which v) c (fun _ => True)
    (fun ch x => jointWaits j (fun a => { a with wr := a.wr ++ [(which, v.toNat)] }) ch x ∧
      x.get (match which with | .vmax => Reg.PRF_JVMAX j | .acc => Reg.PRF_JACC j | .dec => Reg.PRF_JDEC j | .jerk => Reg.PRF_JJERK j)
        = v.toNat ∧ Only (.joints :: .each 0xE000 0x10000 128 (match which with | .vmax => 0x14 | .acc => 0x18 | .dec => 0x1C | .jerk => 0x20)
          :: tellParts) ch x)

/-- R53, R54: a write of PRF_SAPP that moves back, or past the ring's space, is rejected whole with APPREJ and F0 0x0507; with all its
segments valid it appends each of them in order, with the CRC of its entries and its duration; up to the first invalid segment it appends
those before it, sets SEGERR and shows the cause in SEGC. -/
def Obligations.SegmentAppend : Prop := ∀ (c : Chan) (k : Fin 8) (cnt : Word),
  Acts (.segmentAppend c k cnt) c
    (fun ch => 2 ^ 31 ≤ ofInt 32 (cnt.toNat - ch.get (Reg.PRF_SAPP k)) ∨
      ch.get (Reg.PRF_RSIZE_SIZE k) < ofInt 32 (cnt.toNat - ch.get (Reg.PRF_RCON k)))
    (fun ch x => x.bit (Reg.PRF_ASTS_APPREJ k) = true ∧ x.get (Reg.PRF_SAPP k) = ch.get (Reg.PRF_SAPP k) ∧
      Only (.each 0xC000 0xD000 512 0x1C :: noteParts) ch x) ∧
  Acts (.segmentAppend c k cnt) c
    (fun ch => ofInt 32 (cnt.toNat - ch.get (Reg.PRF_SAPP k)) < 2 ^ 31 ∧
      ofInt 32 (cnt.toNat - ch.get (Reg.PRF_RCON k)) ≤ ch.get (Reg.PRF_RSIZE_SIZE k) ∧
      ∀ i, i < ofInt 32 (cnt.toNat - ch.get (Reg.PRF_SAPP k)) → segCheck (ch.nj k) (ch.ringBytes k (ch.get (Reg.PRF_SAPP k) + i)) = 0)
    (fun ch x => x.get (Reg.PRF_SAPP k) = cnt.toNat ∧
      (x.arm k).pend = (ch.arm k).pend ++ (List.range (ofInt 32 (cnt.toNat - ch.get (Reg.PRF_SAPP k)))).map (fun i =>
        let bs := ch.ringBytes k (ch.get (Reg.PRF_SAPP k) + i)
        { crc := (Config.segCrc bs).toNat, dur := (segOf (ch.nj k) bs).dur, fin := (segOf (ch.nj k) bs).final }) ∧
      (∀ i, i < 8 → i ≠ k.val → x.arm i = ch.arm i) ∧ Only (.arms :: .each 0xC000 0xD000 512 0x28 :: tellParts) ch x) ∧
  Acts (.segmentAppend c k cnt) c
    (fun ch => 0 < ofInt 32 (cnt.toNat - ch.get (Reg.PRF_SAPP k)) ∧ ofInt 32 (cnt.toNat - ch.get (Reg.PRF_SAPP k)) < 2 ^ 31 ∧
      ofInt 32 (cnt.toNat - ch.get (Reg.PRF_RCON k)) ≤ ch.get (Reg.PRF_RSIZE_SIZE k) ∧
      segCheck (ch.nj k) (ch.ringBytes k (ch.get (Reg.PRF_SAPP k))) ≠ 0)
    (fun ch x => x.get (Reg.PRF_SAPP k) = ch.get (Reg.PRF_SAPP k) ∧ x.bit (Reg.PRF_ASTS_SEGERR k) = true ∧
      x.get (Reg.PRF_ASTS_SEGC k) = segCheck (ch.nj k) (ch.ringBytes k (ch.get (Reg.PRF_SAPP k))) ∧
      Only (.each 0xC000 0xD000 512 0x1C :: tellParts) ch x)

/-- R22, R43, R68, R97, R170: BASIC_CYCLE_START moves time to the next 0 ns of a basic cycle (the first tick at or past it). There the virtual masters move on by their
rates in the states 3 to 6, every encoder's count is latched, every bound joint's actual position is its feedback, and set-points
committed by a servo task come into force; in every fourth basic cycle the waiting commands of arms and joints are sampled. -/
def Obligations.BasicCycleStarts : Prop := ∀ c : Chan,
  Acts (.basicCycleStart c) c (fun ch => ch.loaded = true ∧ ch.paced)
    (fun ch x => x.now % 16000 ≤ 4 ∧ ch.now ≤ x.now ∧ x.now ≤ ch.now + 16004 ∧ x.bcDone = some x.cycle ∧
      (∀ m, m < 4 → Tab.get x.vm 0 m = (if ch.get Reg.CHN_STATE_CODE ∈ [3, 4, 5, 6] then
        wrapS 64 (Tab.get ch.vm 0 m + ch.geti (Reg.PRF_VMRATE m)) else Tab.get ch.vm 0 m)) ∧
      (∀ p, p < 24 → (x.encU p).cnt0 = ch.geti64 (Reg.ENC_CNT p) ∧
        (ch.get (Reg.ENC_CFG_MODE p) ≠ 2 → x.geti64 (Reg.ENC_LAT p) = wrapS 64 (ch.geti64 (Reg.ENC_CNT p) * 65536))) ∧
      (∀ j, j < 64 → ch.bound j = true → (x.joint j).act = (x.feedback j).1 ∧ (x.joint j).actVal = (x.feedback j).2 ∧
        (x.joint j).refNext = none ∧ ∀ r, (ch.joint j).refNext = some r →
          x.get (Reg.JNT_REF_IDREF j) = r.1.toNat ∧ x.get (Reg.JNT_REF_IQREF j) = r.2.toNat) ∧
      (x.bIdx % 4 = 0 → (∀ k, k < 8 → (x.arm k).smp = (ch.arm k).cmd ∧ (x.arm k).cmd = {}) ∧
        ∀ m, m < 4 → x.geti64 (Reg.PRF_VMPOS m) = Tab.get x.vm 0 m) ∧
      (ch.bit Reg.RED_CFG_EN = false → Only cycleParts ch x)) ∧
  Acts (.basicCycleStart c) c (fun ch => ch.loaded = false ∧ ch.bit Reg.RED_CFG_EN = false) (fun ch x => Only [.sent] ch x)

/-- R42, R43, R52: PROFILE_EVALUATION moves time to the next 1,600 ns of a fourth basic cycle and evaluates each arm that has joints: the
arm shows its mode, its override in force, and no stop is left waiting. Nothing changes but what an evaluation may. -/
def Obligations.ProfileEvaluates : Prop := ∀ c : Chan,
  Acts (.profileEvaluation c) c (fun ch => ch.loaded = true ∧ ch.paced ∧ ch.pevT.all (fun t => decide (t < 2 ^ 62)) = true)
    (fun ch x => x.pevT.isSome = true ∧ 1600 ≤ x.now % 64000 ∧ x.now % 64000 ≤ 1604 ∧ ch.now ≤ x.now ∧
      (∀ k, k < 8 → 0 < ch.nj k → (x.arm k).seen = true ∧ x.get (Reg.PRF_OVR_EFF k) = (x.arm k).eff % 2 ^ 13) ∧
      (∀ k, k < 8 → ch.nj k = 0 → (x.arm k).smp = (ch.arm k).smp) ∧ Only profileParts ch x) ∧
  Acts (.profileEvaluation c) c (fun ch => ch.loaded = false) (fun ch x => Only [.sent] ch x)

/-- R69 to R72: a write of CMP_POS_HI arms the unit. With no valid source, or with a position that lies ahead, it waits; a position that the
source has reached or passed fires it at once with PASTFIRE where CFG.PASSED allows it (time-stamp, count, FIRED, not armed), else it
waits with BEHIND. CMP_PULSE_END moves time to the end of the pulse and returns the pin high. -/
def Obligations.CompareUnits : Prop := ∀ (c : Chan) (n : Fin 16) (hi : Word),
  Acts (.compareArm c n hi) c (fun ch => ch.masterLive (ch.get (Reg.CMP_CFG_SRC n)) (ch.get (Reg.CMP_CFG_IDX n)) = none)
    (fun ch x => x.get (Reg.CMP_POS_HI n) = hi.toNat ∧ x.bit (Reg.CMP_STS_ARMED n) = true ∧
      Only (.each 0xD000 0xD400 64 8 :: .each 0xD000 0xD400 64 0xC :: tellParts) ch x) ∧
  Acts (.compareArm c n hi) c
    (fun ch => (ch.masterLive (ch.get (Reg.CMP_CFG_SRC n)) (ch.get (Reg.CMP_CFG_IDX n))).any (fun v =>
        let p := wrapS 64 (ch.get (Reg.CMP_POS_LO n) + hi.toNat * 2 ^ 32)
        p != v && (if (ch.cmpU n).neg then decide (p ≤ v) else decide (v ≤ p))) = true)
    (fun ch x => x.bit (Reg.CMP_STS_ARMED n) = true ∧ x.get (Reg.CMP_STS_FIRED n) = ch.get (Reg.CMP_STS_FIRED n) ∧
      x.get (Reg.CMP_CNT n) = ch.get (Reg.CMP_CNT n) ∧ Only (.cmps :: .each 0xD000 0xD400 64 8 :: .each 0xD000 0xD400 64 0xC :: tellParts) ch x) ∧
  Acts (.compareArm c n hi) c
    (fun ch => (ch.masterLive (ch.get (Reg.CMP_CFG_SRC n)) (ch.get (Reg.CMP_CFG_IDX n))).any (fun v =>
        let p := wrapS 64 (ch.get (Reg.CMP_POS_LO n) + hi.toNat * 2 ^ 32)
        p == v || (if (ch.cmpU n).neg then decide (v < p) else decide (p < v))) = true ∧
      ch.bit (Reg.CMP_CFG_PASSED n) = true)
    (fun ch x => x.bit (Reg.CMP_STS_ARMED n) = false ∧ x.bit (Reg.CMP_STS_FIRED n) = true ∧ x.bit (Reg.CMP_STS_PASTFIRE n) = true ∧
      x.get (Reg.CMP_CNT n) = (ch.get (Reg.CMP_CNT n) + 1) % 2 ^ 32 ∧ x.get64 (Reg.CMP_TS n) = ch.now % 2 ^ 64 ∧
      (ch.bit (Reg.CMP_CFG_PIN n) = true → (x.cmpU n).pinTill = some (ch.now + 128 * (ch.get (Reg.CMP_CFG_PW n) + 1))) ∧
      Only (.cmps :: .tev :: .regs 0xD000 0xD400 :: .regs 0x1C400 0x1C800 :: tellParts) ch x ∧
      (ch.bit (Reg.CMP_CFG_TEVT n) = false → Only (.cmps :: .regs 0xD000 0xD400 :: tellParts) ch x)) ∧
  Acts (.compareArm c n hi) c
    (fun ch => (ch.masterLive (ch.get (Reg.CMP_CFG_SRC n)) (ch.get (Reg.CMP_CFG_IDX n))).any (fun v =>
        let p := wrapS 64 (ch.get (Reg.CMP_POS_LO n) + hi.toNat * 2 ^ 32)
        p == v || (if (ch.cmpU n).neg then decide (v < p) else decide (p < v))) = true ∧ ch.bit (Reg.CMP_CFG_PASSED n) = false)
    (fun ch x => x.bit (Reg.CMP_STS_ARMED n) = true ∧ x.bit (Reg.CMP_STS_BEHIND n) = true ∧ x.get (Reg.CMP_CNT n) = ch.get (Reg.CMP_CNT n) ∧
      Only (.cmps :: .each 0xD000 0xD400 64 8 :: .each 0xD000 0xD400 64 0xC :: tellParts) ch x) ∧
  Acts (.cmpPulseEnd c n) c (fun ch => (ch.cmpU n).pinTill.isSome = true)
    (fun ch x => (x.cmpU n).pinTill = none ∧ (ch.cmpU n).pinTill.any (fun t => decide (t ≤ x.now)) = true ∧ Only [.clock, .cmps, .sent] ch x)

/-! ### Loop engines (R108 to R127) -/

/-- R113, R114, R115, R118: the instructions with an exact result for a data register write it by the range rule, with Z, N, V and the
sticky SD; one cycle each; no other register, and no other engine, changes. -/
def Obligations.LeDataResults : Prop :=
  ∀ (c : Chan) (n : Fin 8) (sat : Bool) (z x y : Fin 8) (a : AccSel) (imm : BitVec 12) (sh : BitVec 5) (sh4 : BitVec 4),
  Acts (.leAdd c n sat z x y) c (fun ch => ch.canRun n 1 = true) (gaveD n 1 sat z fun e => e.dx x + e.dx y) ∧
  Acts (.leSub c n sat z x y) c (fun ch => ch.canRun n 1 = true) (gaveD n 1 sat z fun e => e.dx x - e.dx y) ∧
  Acts (.leAddi c n sat z x imm) c (fun ch => ch.canRun n 1 = true) (gaveD n 1 sat z fun e => e.dx x + imm.toInt) ∧
  Acts (.leShl c n sat z x sh4) c (fun ch => ch.canRun n 1 = true) (gaveD n 1 sat z fun e => e.dx x * 2 ^ sh4.toNat) ∧
  Acts (.leNeg c n sat z x) c (fun ch => ch.canRun n 1 = true) (gaveD n 1 sat z fun e => -(e.dx x)) ∧
  Acts (.leAbs c n sat z x) c (fun ch => ch.canRun n 1 = true) (gaveD n 1 sat z fun e => if e.dx x < 0 then -(e.dx x) else e.dx x) ∧
  Acts (.leMuld c n sat z x y sh) c (fun ch => ch.canRun n 1 = true)
    (gaveD n 1 sat z fun e => if sh = 0 then e.dx x * e.dx y else (2 * (e.dx x * e.dx y) + 2 ^ sh.toNat) / 2 ^ (sh.toNat + 1)) ∧
  Acts (.leRnd c n sat z a sh) c (fun ch => ch.canRun n 1 = true)
    (gaveD n 1 sat z fun e => if sh = 0 then e.ax a else (2 * e.ax a + 2 ^ sh.toNat) / 2 ^ (sh.toNat + 1))

/-- R114, R115, R118: AND, OR, ASR, MIN, MAX and CLMP, whose results always fit: Z and N tell of the result, V is cleared. CMP and BTST
write the flags alone: Z for equal (or the bit being 0), N for less. CLMP limits Dx to ±max(Dy, 0). -/
def Obligations.LeLogicAndCompare : Prop := ∀ (c : Chan) (n : Fin 8) (z x y : Fin 8) (sh b : BitVec 4),
  Acts (.leAnd c n z x y) c (fun ch => ch.canRun n 1 = true) (gaveD n 1 false z fun e => (e.dreg x &&& e.dreg y).toInt) ∧
  Acts (.leOr c n z x y) c (fun ch => ch.canRun n 1 = true) (gaveD n 1 false z fun e => (e.dreg x ||| e.dreg y).toInt) ∧
  Acts (.leAsr c n z x sh) c (fun ch => ch.canRun n 1 = true) (gaveD n 1 false z fun e => e.dx x / 2 ^ sh.toNat) ∧
  Acts (.leMin c n z x y) c (fun ch => ch.canRun n 1 = true) (gaveD n 1 false z fun e => if e.dx x ≤ e.dx y then e.dx x else e.dx y) ∧
  Acts (.leMax c n z x y) c (fun ch => ch.canRun n 1 = true) (gaveD n 1 false z fun e => if e.dx x ≤ e.dx y then e.dx y else e.dx x) ∧
  Acts (.leClmp c n z x y) c (fun ch => ch.canRun n 1 = true)
    (gaveD n 1 false z fun e => let l := if e.dx y < 0 then 0 else e.dx y; if e.dx x < -l then -l else if l < e.dx x then l else e.dx x) ∧
  Acts (.leCmp c n x y) c (fun ch => ch.canRun n 1 = true)
    (fun ch t => flagsTook (ch.engine n) (t.engine n) ((ch.engine n).dx x - (ch.engine n).dx y) false 0 ∧
      (t.engine n) = { ch.engine n with fl := (t.engine n).fl, cyc := (t.engine n).cyc } ∧ wentOn n 1 ch t) ∧
  Acts (.leBtst c n x b) c (fun ch => ch.canRun n 1 = true)
    (fun ch t => flagsTook (ch.engine n) (t.engine n) (if ((ch.engine n).dreg x).getLsbD b.toNat then 1 else 0) false 0 ∧
      (t.engine n) = { ch.engine n with fl := (t.engine n).fl, cyc := (t.engine n).cyc } ∧ wentOn n 1 ch t)

/-- R112, R113, R115, R118: the instructions with an exact result for an accumulator write it by the range rule over 40 bits, with Z, N, V
and the sticky SA0 or SA1; one cycle each; no other register, and no other engine, changes. MPYM, MACM and MACX read words of memory and
modify their pointers afterwards, and nothing else. -/
def Obligations.LeAccResults : Prop :=
  ∀ (c : Chan) (n : Fin 8) (sat : Bool) (x y : Fin 8) (a : AccSel) (sh : BitVec 5) (sh6 : BitVec 6) (p q : PtrOp),
  Acts (.leMpy c n sat a x y) c (fun ch => ch.canRun n 1 = true) (gaveAcc n sat a fun e => e.dx x * e.dx y) ∧
  Acts (.leMac c n sat a x y) c (fun ch => ch.canRun n 1 = true) (gaveAcc n sat a fun e => e.ax a + e.dx x * e.dx y) ∧
  Acts (.leMsu c n sat a x y) c (fun ch => ch.canRun n 1 = true) (gaveAcc n sat a fun e => e.ax a - e.dx x * e.dx y) ∧
  Acts (.leLdac c n sat a x sh) c (fun ch => ch.canRun n 1 = true) (gaveAcc n sat a fun e => e.dx x * 2 ^ sh.toNat) ∧
  Acts (.leAdda c n sat a x sh) c (fun ch => ch.canRun n 1 = true) (gaveAcc n sat a fun e => e.ax a + e.dx x * 2 ^ sh.toNat) ∧
  Acts (.leSuba c n sat a x sh) c (fun ch => ch.canRun n 1 = true) (gaveAcc n sat a fun e => e.ax a - e.dx x * 2 ^ sh.toNat) ∧
  Acts (.leAccClr c n sat a) c (fun ch => ch.canRun n 1 = true) (gaveAcc n sat a fun _ => 0) ∧
  Acts (.leAccMov c n sat a) c (fun ch => ch.canRun n 1 = true) (gaveAcc n sat a fun e => e.ax (otherAcc a)) ∧
  Acts (.leAccAdd c n sat a) c (fun ch => ch.canRun n 1 = true) (gaveAcc n sat a fun e => e.ax a + e.ax (otherAcc a)) ∧
  Acts (.leAccSub c n sat a) c (fun ch => ch.canRun n 1 = true) (gaveAcc n sat a fun e => e.ax a - e.ax (otherAcc a)) ∧
  Acts (.leAccNeg c n sat a) c (fun ch => ch.canRun n 1 = true) (gaveAcc n sat a fun e => -(e.ax a)) ∧
  Acts (.leAccAbs c n sat a) c (fun ch => ch.canRun n 1 = true) (gaveAcc n sat a fun e => if e.ax a < 0 then -(e.ax a) else e.ax a) ∧
  Acts (.leAsh c n sat a sh6) c (fun ch => ch.canRun n 1 = true)
    (gaveAcc n sat a fun e => if sh6.toInt < 0 then e.ax a / 2 ^ sh6.toInt.natAbs else e.ax a * 2 ^ sh6.toInt.natAbs) ∧
  Acts (.leMpym c n sat a p q) c (fun ch => ch.canRun n 1 = true ∧ p.p ≠ q.p)
    (gaveAccM n sat a p q fun e => (e.at p).toInt * (e.at q).toInt) ∧
  Acts (.leMacm c n sat a p q) c (fun ch => ch.canRun n 1 = true ∧ p.p ≠ q.p)
    (gaveAccM n sat a p q fun e => e.ax a + (e.at p).toInt * (e.at q).toInt) ∧
  Acts (.leMacx c n sat a y p) c (fun ch => ch.canRun n 1 = true) (gaveAccM n sat a p p fun e => e.ax a + e.dx y * (e.at p).toInt)

/-- R80, R81, R111, R112, R118: loads take the word at the address, stores put it there and nowhere else, a store to a window word that
is read-only or reserved is discarded; a pointer operand is modified after its access. LDI, LDP and LDA write the register they name,
flags untouched; LD2 reads both words before either pointer is modified; STA stores the accumulator's low 32 bits or their limit, low word
first, and writes V. -/
def Obligations.LeLoadsAndStores : Prop :=
  ∀ (c : Chan) (n : Fin 8) (z x y : Fin 8) (a : Ptr) (imm : Half) (p q : PtrOp) (acc : AccSel) (sat : Bool),
  Acts (.leLd2 c n z y p q) c (fun ch => ch.canRun n 1 = true ∧ p.p ≠ q.p)
    (fun ch t => (z ≠ y → (t.engine n).dreg z = (ch.engine n).at p) ∧ (t.engine n).dreg y = (ch.engine n).at q ∧
      (∀ i : Fin 8, i ≠ z → i ≠ y → (t.engine n).dreg i = (ch.engine n).dreg i) ∧ ptrsTook (ch.engine n) (t.engine n) p q ∧
      (t.engine n) = { ch.engine n with d := (t.engine n).d, p := (t.engine n).p, cyc := (t.engine n).cyc } ∧ wentOn n 1 ch t) ∧
  Acts (.leLdi c n z imm) c (fun ch => ch.canRun n 1 = true)
    (fun ch t => dTook (ch.engine n) (t.engine n) z imm.toInt ∧ (t.engine n).fl = (ch.engine n).fl ∧ wentOn n 1 ch t) ∧
  Acts (.leLdp c n x imm) c (fun ch => ch.canRun n 1 = true)
    (fun ch t => (x.val < 4 → Tab.get (t.engine n).p 0 x.val = imm.setWidth 15) ∧ (4 ≤ x.val → Tab.get (t.engine n).m 0 (x.val - 4) = imm) ∧
      (t.engine n) = { ch.engine n with p := (t.engine n).p, m := (t.engine n).m, cyc := (t.engine n).cyc } ∧
      (∀ i, i < 4 → i ≠ x.val → Tab.get (t.engine n).p 0 i = Tab.get (ch.engine n).p 0 i) ∧
      (∀ i, i < 4 → i + 4 ≠ x.val → Tab.get (t.engine n).m 0 i = Tab.get (ch.engine n).m 0 i) ∧ wentOn n 1 ch t) ∧
  Acts (.leLdDirect c n z a) c (fun ch => ch.canRun n 1 = true)
    (fun ch t => dTook (ch.engine n) (t.engine n) z ((ch.engine n).load a).toInt ∧ (t.engine n).fl = (ch.engine n).fl ∧ wentOn n 1 ch t) ∧
  Acts (.leStDirect c n x a) c (fun ch => ch.canRun n 1 = true)
    (fun ch t => ((a.toNat < 0x7C00 ∨ winWritable a.toNat = true) → (t.engine n).load a = (ch.engine n).dreg x) ∧
      (0x7C00 ≤ a.toNat → winWritable a.toNat = false → (t.engine n).keeps (ch.engine n)) ∧
      (∀ b, b < 32768 → b ≠ a.toNat → (t.engine n).load (BitVec.ofNat 15 b) = (ch.engine n).load (BitVec.ofNat 15 b)) ∧
      (t.engine n) = { ch.engine n with win := (t.engine n).win, loc := (t.engine n).loc, cyc := (t.engine n).cyc } ∧ wentOn n 1 ch t) ∧
  Acts (.leLdPointer c n z p) c (fun ch => ch.canRun n 1 = true)
    (fun ch t => ((t.engine n).dreg z) = (ch.engine n).load ((ch.engine n).ptr p.p) ∧
      (t.engine n).ptr p.p = nextPtr ((ch.engine n).ptr p.p) ((ch.engine n).modr p.p) p.m ∧
      (∀ i : Fin 8, i ≠ z → (t.engine n).dreg i = (ch.engine n).dreg i) ∧ (∀ i : Fin 4, i ≠ p.p → (t.engine n).ptr i = (ch.engine n).ptr i) ∧
      (t.engine n) = { ch.engine n with d := (t.engine n).d, p := (t.engine n).p, cyc := (t.engine n).cyc } ∧ wentOn n 1 ch t) ∧
  Acts (.leStPointer c n x p) c (fun ch => ch.canRun n 1 = true ∧
      (((ch.engine n).ptr p.p).toNat < 0x7C00 ∨ winWritable ((ch.engine n).ptr p.p).toNat = true))
    (fun ch t => (t.engine n).load ((ch.engine n).ptr p.p) = (ch.engine n).dreg x ∧
      (t.engine n).ptr p.p = nextPtr ((ch.engine n).ptr p.p) ((ch.engine n).modr p.p) p.m ∧
      (∀ i : Fin 4, i ≠ p.p → (t.engine n).ptr i = (ch.engine n).ptr i) ∧
      (∀ b, b < 32768 → b ≠ ((ch.engine n).ptr p.p).toNat → (t.engine n).load (BitVec.ofNat 15 b) = (ch.engine n).load (BitVec.ofNat 15 b)) ∧
      (t.engine n) = { ch.engine n with win := (t.engine n).win, loc := (t.engine n).loc, p := (t.engine n).p, cyc := (t.engine n).cyc } ∧
      wentOn n 1 ch t) ∧
  Acts (.leLda c n acc p) c (fun ch => ch.canRun n 1 = true)
    (fun ch t => (t.engine n).ax acc = ((ch.engine n).load ((ch.engine n).ptr p.p + 1) ++ (ch.engine n).load ((ch.engine n).ptr p.p)).toInt ∧
      (t.engine n).ptr p.p = nextPtr ((ch.engine n).ptr p.p) ((ch.engine n).modr p.p) p.m ∧
      (t.engine n) = { ((ch.engine n).setAcc acc ((t.engine n).acc acc)) with p := (t.engine n).p, cyc := (t.engine n).cyc } ∧ wentOn n 1 ch t) ∧
  Acts (.leSta c n sat acc p) c (fun ch => ch.canRun n 1 = true ∧ ((ch.engine n).ptr p.p).toNat < 0x7BFF)
    (fun ch t => let r := (ch.engine n).ax acc
      ((t.engine n).load ((ch.engine n).ptr p.p + 1) ++ (t.engine n).load ((ch.engine n).ptr p.p)).toInt =
        (if -2147483648 ≤ r ∧ r ≤ 2147483647 then r else if sat then (if r < 0 then -2147483648 else 2147483647)
          else (r + 2147483648) % 4294967296 - 2147483648) ∧
      (t.engine n).fV = decide (r < -2147483648 ∨ 2147483647 < r) ∧ (t.engine n).fZ = (ch.engine n).fZ ∧ (t.engine n).fN = (ch.engine n).fN ∧
      (t.engine n).ptr p.p = nextPtr ((ch.engine n).ptr p.p) ((ch.engine n).modr p.p) p.m ∧
      (∀ b, b < 32768 → b ≠ ((ch.engine n).ptr p.p).toNat → b ≠ ((ch.engine n).ptr p.p).toNat + 1 →
        (t.engine n).load (BitVec.ofNat 15 b) = (ch.engine n).load (BitVec.ofNat 15 b)) ∧
      (t.engine n) = { ch.engine n with loc := (t.engine n).loc, p := (t.engine n).p, fl := (t.engine n).fl, cyc := (t.engine n).cyc } ∧
      wentOn n 1 ch t)

/-- R119, R116: MOV copies a register MOV may read to one it may write; a guard byte takes bits 7:0 and reads sign-extended; a reserved number, or
a write of a source-only register, halts the engine. CMOV copies Dx to Dz where its condition holds. Flags stay. -/
def Obligations.LeMoves : Prop := ∀ (c : Chan) (n : Fin 8) (z x : Fin 8) (dst src : BitVec 5) (cond : BitVec 4),
  Acts (.leMov c n dst src) c
    (fun ch => ch.canRun n 1 = true ∧ src.toNat < 0x1A ∧ dst.toNat < 0x1A ∧ ¬(0x10 ≤ dst.toNat ∧ dst.toNat ≤ 0x13))
    (fun ch t => (dst.toNat < 8 → (t.engine n).movSrc dst.toNat = (ch.engine n).movSrc src.toNat) ∧
      (8 ≤ dst.toNat → dst.toNat < 12 → (t.engine n).movSrc dst.toNat = ((ch.engine n).movSrc src.toNat).map (· % 32768)) ∧
      (12 ≤ dst.toNat → dst.toNat < 16 → (t.engine n).movSrc dst.toNat = (ch.engine n).movSrc src.toNat) ∧
      (dst = 0x14 ∨ dst = 0x15 ∨ dst = 0x17 ∨ dst = 0x18 → (t.engine n).movSrc dst.toNat = (ch.engine n).movSrc src.toNat) ∧
      (dst = 0x16 ∨ dst = 0x19 → (t.engine n).movSrc dst.toNat =
        ((ch.engine n).movSrc src.toNat).map fun v => (v.setWidth 8).signExtend 16) ∧
      (∀ r, r < 0x1A → r ≠ dst.toNat → (t.engine n).movSrc r = (ch.engine n).movSrc r) ∧
      (t.engine n) = { ch.engine n with
        d := (t.engine n).d, p := (t.engine n).p, m := (t.engine n).m, ac0 := (t.engine n).ac0, ac1 := (t.engine n).ac1,
        cyc := (t.engine n).cyc } ∧ wentOn n 1 ch t) ∧
  Acts (.leMov c n dst src) c (fun ch => (ch.engine n).task.isSome = true ∧ (0x1A ≤ src.toNat ∨ 0x1A ≤ dst.toNat ∨
      (0x10 ≤ dst.toNat ∧ dst.toNat ≤ 0x13))) (fun ch x => halted n ch x) ∧
  Acts (.leCmov c n cond z x) c (fun ch => ch.canRun n 1 = true ∧ (ch.engine n).cond cond = some true)
    (fun ch t => dTook (ch.engine n) (t.engine n) z ((ch.engine n).dx x) ∧ (t.engine n).fl = (ch.engine n).fl ∧ wentOn n 1 ch t) ∧
  Acts (.leCmov c n cond z x) c (fun ch => ch.canRun n 1 = true ∧ (ch.engine n).cond cond = some false)
    (fun ch t => (ch.engine n).keeps (t.engine n) ∧ wentOn n 1 ch t)

/-- R114, R118, R122: DIV and SQRT take 18 cycles. DIV rounds to nearest, ties away from zero, by the range rule; by 0 it gives the limit
of the accumulator's sign, V and SZ whatever S. SQRT truncates; a negative radicand gives 0 with V and SD. -/
def Obligations.LeDivideAndRoot : Prop := ∀ (c : Chan) (n : Fin 8) (sat : Bool) (z y : Fin 8) (a : AccSel) (r : Nat),
  Acts (.leDiv c n sat z a y) c (fun ch => ch.canRun n 18 = true ∧ (ch.engine n).dx y ≠ 0)
    (fun ch t => gaveD n 18 sat z (fun e =>
      (if (e.ax a < 0) = (e.dx y < 0) then (1 : Int) else -1) * ((2 * (e.ax a).natAbs + (e.dx y).natAbs) / (2 * (e.dx y).natAbs) : Nat)) ch t) ∧
  Acts (.leDiv c n sat z a y) c (fun ch => ch.canRun n 18 = true ∧ (ch.engine n).dx y = 0)
    (fun ch t => dTook (ch.engine n) (t.engine n) z (if (ch.engine n).ax a < 0 then -32768 else 32767) ∧
      flagsTook (ch.engine n) (t.engine n) (if (ch.engine n).ax a < 0 then -1 else 1) true 11 ∧ wentOn n 18 ch t) ∧
  Acts (.leSqrt c n sat z a) c
    (fun ch => ch.canRun n 18 = true ∧ (r * r : Nat) ≤ (ch.engine n).ax a ∧ (ch.engine n).ax a < ((r + 1) * (r + 1) : Nat))
    (gaveD n 18 sat z fun _ => r) ∧
  Acts (.leSqrt c n sat z a) c (fun ch => ch.canRun n 18 = true ∧ (ch.engine n).ax a < 0)
    (fun ch t => dTook (ch.engine n) (t.engine n) z 0 ∧ flagsTook (ch.engine n) (t.engine n) 0 true 10 ∧ wentOn n 18 ch t)

/-- R118, R120, R121: TRIG writes cosine and sine of Dx into an even register pair in 2 cycles; MINX and MAXX write the extreme of the n
words they read through the pointer operand, and the lowest index that holds it, in 2 + ⌈n ÷ 2⌉ cycles, the pointer modified once per word;
with n = 0 the limit and 0xFFFF, the pointer unchanged. -/
def Obligations.LeTrigAndExtremes : Prop := ∀ (c : Chan) (n : Fin 8) (z x : Fin 8) (p : PtrOp), z.val % 2 = 0 →
  Acts (.leTrig c n z x) c (fun ch => ch.canRun n 2 = true)
    (fun ch t => Tab.get (t.engine n).d 0 z.val = BitVec.ofInt 16 (cosTurn ((ch.engine n).dreg x).toNat) ∧
      Tab.get (t.engine n).d 0 (z.val + 1) = BitVec.ofInt 16 (sinTurn ((ch.engine n).dreg x).toNat) ∧
      (∀ i, i < 8 → i ≠ z.val → i ≠ z.val + 1 → Tab.get (t.engine n).d 0 i = Tab.get (ch.engine n).d 0 i) ∧
      (t.engine n) = { ch.engine n with d := (t.engine n).d, cyc := (t.engine n).cyc } ∧ wentOn n 2 ch t) ∧
  Acts (.leMinx c n z x p) c (fun ch => ch.canRun n 2 = true ∧ ((ch.engine n).dreg x) = 0)
    (fun ch t => Tab.get (t.engine n).d 0 z.val = 0x7FFF ∧ Tab.get (t.engine n).d 0 (z.val + 1) = 0xFFFF ∧
      (∀ i, i < 8 → i ≠ z.val → i ≠ z.val + 1 → Tab.get (t.engine n).d 0 i = Tab.get (ch.engine n).d 0 i) ∧
      flagsTook (ch.engine n) (t.engine n) 32767 false 0 ∧
      (t.engine n) = { ch.engine n with d := (t.engine n).d, fl := (t.engine n).fl, cyc := (t.engine n).cyc } ∧ wentOn n 2 ch t) ∧
  Acts (.leMaxx c n z x p) c (fun ch => ch.canRun n 2 = true ∧ ((ch.engine n).dreg x) = 0)
    (fun ch t => Tab.get (t.engine n).d 0 z.val = 0x8000 ∧ Tab.get (t.engine n).d 0 (z.val + 1) = 0xFFFF ∧
      (∀ i, i < 8 → i ≠ z.val → i ≠ z.val + 1 → Tab.get (t.engine n).d 0 i = Tab.get (ch.engine n).d 0 i) ∧
      flagsTook (ch.engine n) (t.engine n) (-32768) false 0 ∧
      (t.engine n) = { ch.engine n with d := (t.engine n).d, fl := (t.engine n).fl, cyc := (t.engine n).cyc } ∧ wentOn n 2 ch t) ∧
  Acts (.leMinx c n z x p) c
    (fun ch => ch.canRun n (2 + (((ch.engine n).dreg x).toNat + 1) / 2) = true ∧ 0 < ((ch.engine n).dreg x).toNat)
    (fun ch t => gaveExtreme n (fun v w => v ≤ w) z p ((ch.engine n).dreg x).toNat ch t) ∧
  Acts (.leMaxx c n z x p) c
    (fun ch => ch.canRun n (2 + (((ch.engine n).dreg x).toNat + 1) / 2) = true ∧ 0 < ((ch.engine n).dreg x).toNat)
    (fun ch t => gaveExtreme n (fun v w => w ≤ v) z p ((ch.engine n).dreg x).toNat ch t)

/-- R95, R116, R118, R123, R124: NOP goes on; at the end of an active body the counter counts down, and the body runs again until it is 0.
ASK with no task waits. BR, CALL and RET are taken in 2 cycles where their condition holds, else go on in 1; CALL pushes the next address,
RET pops it; a taken BR out of an active body clears its counter. REP and REPR with a count of 0 skip the body in 2 cycles, else load the
counter and enter the body. -/
def Obligations.LeControlFlow : Prop :=
  ∀ (c : Chan) (n : Fin 8) (cond : BitVec 4) (t : BitVec 16) (lc : Fin 3) (x : Fin 8) (count : BitVec 12) (len : BitVec 10) (f l : Nat),
  Acts (.leNop c n) c (fun ch => ch.canRun n 1 = true) (fun ch y => (ch.engine n).keeps (y.engine n) ∧ wentOn n 1 ch y) ∧
  Acts (.leNop c n) c
    (fun ch => ch.canLoop n 1 = true ∧ (ch.engine n).reps = [⟨lc.val, f, ch.get (Reg.LPE_PC_PC n)⟩] ∧ Tab.get (ch.engine n).lc 0 lc.val ≠ 1)
    (fun ch y => (y.engine n) = { ch.engine n with lc := (y.engine n).lc, cyc := (y.engine n).cyc } ∧
      (∀ i, i < 3 → Tab.get (y.engine n).lc 0 i = Tab.get (ch.engine n).lc 0 i - if i = lc.val then 1 else 0) ∧ wentTo n 1 f ch y) ∧
  Acts (.leNop c n) c
    (fun ch => ch.canLoop n 1 = true ∧ (ch.engine n).reps = [⟨lc.val, f, ch.get (Reg.LPE_PC_PC n)⟩] ∧ Tab.get (ch.engine n).lc 0 lc.val = 1)
    (fun ch y => (y.engine n) = { ch.engine n with lc := (y.engine n).lc, cyc := (y.engine n).cyc, reps := [] } ∧
      (∀ i, i < 3 → Tab.get (y.engine n).lc 0 i = Tab.get (ch.engine n).lc 0 i - if i = lc.val then 1 else 0) ∧ wentOn n 1 ch y) ∧
  Acts (.leBr c n cond t) c
    (fun ch => ch.canLoop n 2 = true ∧ (ch.engine n).cond cond = some true ∧ (ch.engine n).reps = [⟨lc.val, f, l⟩] ∧ (t.toNat < f ∨ l < t.toNat))
    (fun ch y => (y.engine n) = { ch.engine n with lc := (y.engine n).lc, cyc := (y.engine n).cyc, reps := [] } ∧
      (∀ i, i < 3 → Tab.get (y.engine n).lc 0 i = if i = lc.val then 0 else Tab.get (ch.engine n).lc 0 i) ∧ wentTo n 2 t.toNat ch y) ∧
  Acts (.leBr c n cond t) c
    (fun ch => ch.canLoop n 2 = true ∧ (ch.engine n).cond cond = some true ∧ (ch.engine n).reps = [⟨lc.val, f, l⟩] ∧ f ≤ t.toNat ∧ t.toNat ≤ l)
    (fun ch y => (ch.engine n).keeps (y.engine n) ∧ wentTo n 2 t.toNat ch y) ∧
  Acts (.leAsk c n) c (fun ch => (ch.engine n).task = none) (fun ch y => Only [.sent] ch y) ∧
  Acts (.leBr c n cond t) c (fun ch => ch.canRun n 2 = true ∧ (ch.engine n).cond cond = some true)
    (fun ch y => (ch.engine n).keeps (y.engine n) ∧ wentTo n 2 t.toNat ch y) ∧
  Acts (.leBr c n cond t) c (fun ch => ch.canRun n 1 = true ∧ (ch.engine n).cond cond = some false)
    (fun ch y => (ch.engine n).keeps (y.engine n) ∧ wentOn n 1 ch y) ∧
  Acts (.leCall c n cond t) c (fun ch => ch.canRun n 2 = true ∧ (ch.engine n).cond cond = some true ∧ (ch.engine n).stack.length < 4)
    (fun ch y => (y.engine n) = { ch.engine n with stack := (ch.get (Reg.LPE_PC_PC n) + 1) :: (ch.engine n).stack, cyc := (y.engine n).cyc } ∧
      wentTo n 2 t.toNat ch y) ∧
  Acts (.leCall c n cond t) c (fun ch => ch.canRun n 1 = true ∧ (ch.engine n).cond cond = some false)
    (fun ch y => (ch.engine n).keeps (y.engine n) ∧ wentOn n 1 ch y) ∧
  Acts (.leRet c n cond) c (fun ch => ch.canRun n 2 = true ∧ (ch.engine n).cond cond = some true ∧ (ch.engine n).stack ≠ [])
    (fun ch y => (y.engine n) = { ch.engine n with stack := (ch.engine n).stack.tail, cyc := (y.engine n).cyc } ∧
      wentTo n 2 ((ch.engine n).stack.headD 0) ch y) ∧
  Acts (.leRet c n cond) c (fun ch => ch.canRun n 1 = true ∧ (ch.engine n).cond cond = some false)
    (fun ch y => (ch.engine n).keeps (y.engine n) ∧ wentOn n 1 ch y) ∧
  Acts (.leRep c n lc count len) c (fun ch => ch.canRun n 1 = true ∧ len ≠ 0 ∧ Tab.get (ch.engine n).lc 0 lc.val = 0 ∧ count ≠ 0)
    (fun ch y => (y.engine n) = { ch.engine n with lc := (y.engine n).lc, cyc := (y.engine n).cyc, reps := [⟨lc.val, ch.get (Reg.LPE_PC_PC n) + 1, ch.get (Reg.LPE_PC_PC n) + len.toNat⟩] } ∧
      (∀ i, i < 3 → Tab.get (y.engine n).lc 0 i = if i = lc.val then count.setWidth 16 else Tab.get (ch.engine n).lc 0 i) ∧ wentOn n 1 ch y) ∧
  Acts (.leRep c n lc count len) c (fun ch => ch.canRun n 2 = true ∧ len ≠ 0 ∧ Tab.get (ch.engine n).lc 0 lc.val = 0 ∧ count = 0)
    (fun ch y => (ch.engine n).keeps (y.engine n) ∧ wentTo n 2 (ch.get (Reg.LPE_PC_PC n) + len.toNat + 1) ch y) ∧
  Acts (.leRepr c n lc x len) c
    (fun ch => ch.canRun n 1 = true ∧ len ≠ 0 ∧ Tab.get (ch.engine n).lc 0 lc.val = 0 ∧ (ch.engine n).dreg x ≠ 0)
    (fun ch y => (y.engine n) = { ch.engine n with lc := (y.engine n).lc, cyc := (y.engine n).cyc, reps := [⟨lc.val, ch.get (Reg.LPE_PC_PC n) + 1, ch.get (Reg.LPE_PC_PC n) + len.toNat⟩] } ∧
      (∀ i, i < 3 → Tab.get (y.engine n).lc 0 i = if i = lc.val then (ch.engine n).dreg x else Tab.get (ch.engine n).lc 0 i) ∧
      wentOn n 1 ch y) ∧
  Acts (.leRepr c n lc x len) c
    (fun ch => ch.canRun n 2 = true ∧ len ≠ 0 ∧ Tab.get (ch.engine n).lc 0 lc.val = 0 ∧ (ch.engine n).dreg x = 0)
    (fun ch y => (ch.engine n).keeps (y.engine n) ∧ wentTo n 2 (ch.get (Reg.LPE_PC_PC n) + len.toNat + 1) ch y)

/-- R95, R124, R126: a word that does not stand, ASK in a task, a fetch of a user task past its memory, and the forms R126 names halt the
engine: it shows the fault and its program counter, its task is aborted, F1 0x0405 is active. -/
def Obligations.LeHalts : Prop :=
  ∀ (c : Chan) (n : Fin 8) (w : Word) (cond : BitVec 4) (t : BitVec 16) (lc : Fin 3) (z y : Fin 8) (count : BitVec 12) (len : BitVec 10)
    (p : PtrOp) (m : PMode) (a : AccSel) (sat : Bool),
  Acts (.illegalInstruction c n w) c (fun ch => (ch.engine n).task.isSome = true ∧ leLegal w.toNat = false) (fun ch x => halted n ch x) ∧
  Acts (.leNop c n) c
    (fun ch => (ch.engine n).task.any (ch.userTask ·) = true ∧ 0x1FFF < ch.get (Reg.LPE_PC_PC n))
    (fun ch x => halted n ch x) ∧
  Acts (.leAsk c n) c (fun ch => (ch.engine n).task.isSome = true) (fun ch x => halted n ch x) ∧
  Acts (.leBr c n cond t) c (fun ch => (ch.engine n).task.isSome = true ∧ 8 < cond.toNat) (fun ch x => halted n ch x) ∧
  Acts (.leCall c n cond t) c (fun ch => (ch.engine n).task.isSome = true ∧ 8 < cond.toNat) (fun ch x => halted n ch x) ∧
  Acts (.leRet c n cond) c (fun ch => (ch.engine n).task.isSome = true ∧ 8 < cond.toNat) (fun ch x => halted n ch x) ∧
  Acts (.leCmov c n cond z y) c (fun ch => (ch.engine n).task.isSome = true ∧ 8 < cond.toNat) (fun ch x => halted n ch x) ∧
  Acts (.leCall c n cond t) c
    (fun ch => (ch.engine n).task.isSome = true ∧ (ch.engine n).inBody (ch.get (Reg.LPE_PC_PC n)) = true)
    (fun ch x => halted n ch x) ∧
  Acts (.leRet c n cond) c
    (fun ch => (ch.engine n).task.isSome = true ∧ (ch.engine n).inBody (ch.get (Reg.LPE_PC_PC n)) = true)
    (fun ch x => halted n ch x) ∧
  Acts (.leCall c n cond t) c
    (fun ch => (ch.engine n).task.isSome = true ∧ (ch.engine n).cond cond = some true ∧ 4 ≤ (ch.engine n).stack.length)
    (fun ch x => halted n ch x) ∧
  Acts (.leRet c n cond) c (fun ch => (ch.engine n).task.isSome = true ∧ (ch.engine n).cond cond = some true ∧ (ch.engine n).stack = [])
    (fun ch x => halted n ch x) ∧
  Acts (.leRep c n lc count 0) c (fun ch => (ch.engine n).task.isSome = true) (fun ch x => halted n ch x) ∧
  Acts (.leRepr c n lc y 0) c (fun ch => (ch.engine n).task.isSome = true) (fun ch x => halted n ch x) ∧
  Acts (.leRep c n lc count len) c
    (fun ch => (ch.engine n).task.isSome = true ∧ Tab.get (ch.engine n).lc 0 lc.val ≠ 0)
    (fun ch x => halted n ch x) ∧
  Acts (.leRepr c n lc y len) c
    (fun ch => (ch.engine n).task.isSome = true ∧ Tab.get (ch.engine n).lc 0 lc.val ≠ 0)
    (fun ch x => halted n ch x) ∧
  Acts (.leLd2 c n z y p ⟨p.p, m⟩) c (fun ch => (ch.engine n).task.isSome = true) (fun ch x => halted n ch x) ∧
  Acts (.leMpym c n sat a p ⟨p.p, m⟩) c (fun ch => (ch.engine n).task.isSome = true) (fun ch x => halted n ch x) ∧
  Acts (.leMacm c n sat a p ⟨p.p, m⟩) c (fun ch => (ch.engine n).task.isSome = true) (fun ch x => halted n ch x) ∧
  Acts (.leTrig c n z y) c (fun ch => (ch.engine n).task.isSome = true ∧ z.val % 2 = 1) (fun ch x => halted n ch x) ∧
  Acts (.leMinx c n z y p) c (fun ch => (ch.engine n).task.isSome = true ∧ z.val % 2 = 1) (fun ch x => halted n ch x) ∧
  Acts (.leMaxx c n z y p) c (fun ch => (ch.engine n).task.isSome = true ∧ z.val % 2 = 1) (fun ch x => halted n ch x)


/-! ### The scheduler and its tasks (R84 to R95) -/

/-- R86, R88, R90: TABLE_RELEASE moves time to the instant of the entry at the pointer and releases it into its queue, counted, with the
deadline DL ticks into its basic cycle; not late, if its instant lay ahead. With its queue full the pointer stalls, and nothing is
released; RELEASE_RESUME releases it once there is space, now late: SCH_LATE, F0 0x0406. (Table of one entry, neither servo nor model
task.) -/
def Obligations.TableReleases : Prop := ∀ (c : Chan) (e : RelEnt), e.ofs < 4000 → e.b < 16 → e.ofs < e.dl → (e.kind = 1 ∨ e.kind = 4) →
  Acts (.tableRelease c) c
    (fun ch => ch.sch.table = [e] ∧ ch.sch.ptr = 0 ∧ ch.bit Reg.SCH_STS_STALL = false ∧ ch.releasing = true ∧ ch.paced ∧
      (ch.queue (kindQueue e.kind)).length < 128 ∧ ch.now < dueCycle ch.sch.cyc e.b * 16000 + 4 * e.ofs ∧
      dueCycle ch.sch.cyc e.b < 2 ^ 40)
    (fun ch x => dueCycle ch.sch.cyc e.b * 16000 + 4 * e.ofs ≤ x.now ∧ x.now ≤ dueCycle ch.sch.cyc e.b * 16000 + 4 * e.ofs + 4 ∧
      x.queue (kindQueue e.kind) = ch.queue (kindQueue e.kind) ++
        [{ kind := e.kind, joint := e.joint, rel := x.now, dl := dueCycle ch.sch.cyc e.b * 16000 + 4 * e.dl, clim := e.clim, entry := 0, evt := none }] ∧
      (∀ q, q < 5 → q ≠ kindQueue e.kind → x.queue q = ch.queue q) ∧ x.get Reg.SCH_REL = (ch.get Reg.SCH_REL + 1) % 2 ^ 32 ∧
      x.get Reg.SCH_LATE = ch.get Reg.SCH_LATE ∧ x.sch.table = [e] ∧ x.sch.ptr = 0 ∧ x.sch.cyc = (dueCycle ch.sch.cyc e.b / 16 + 1) * 16 ∧
      Only [.clock, .sent, .sch, .regs 0x5000 0x6000] ch x) ∧
  Acts (.tableRelease c) c
    (fun ch => ch.sch.table = [e] ∧ ch.sch.ptr = 0 ∧ ch.bit Reg.SCH_STS_STALL = false ∧ ch.releasing = true ∧ ch.paced ∧
      128 ≤ (ch.queue (kindQueue e.kind)).length ∧ dueCycle ch.sch.cyc e.b < 2 ^ 40)
    (fun ch x => x.bit Reg.SCH_STS_STALL = true ∧ x.sch = ch.sch ∧ x.get Reg.SCH_REL = ch.get Reg.SCH_REL ∧
      Only [.clock, .sent, .regs 0x5004 0x5005] ch x) ∧
  Acts (.releaseResume c) c
    (fun ch => ch.sch.table = [e] ∧ ch.sch.ptr = 0 ∧ ch.bit Reg.SCH_STS_STALL = true ∧ ch.releasing = true ∧ ch.paced ∧
      (ch.queue (kindQueue e.kind)).length < 128 ∧ dueCycle ch.sch.cyc e.b * 16000 + 4 * e.ofs + 5 ≤ ch.now ∧
      ch.now < dueCycle ch.sch.cyc e.b * 16000 + 4 * e.dl ∧ ch.now < ((dueCycle ch.sch.cyc e.b / 16 + 1) * 16 + e.b) * 16000 + 4 * e.ofs)
    (fun ch x => x.queue (kindQueue e.kind) = ch.queue (kindQueue e.kind) ++
        [{ kind := e.kind, joint := e.joint, rel := ch.now, dl := dueCycle ch.sch.cyc e.b * 16000 + 4 * e.dl, clim := e.clim, entry := 0, evt := none }] ∧ x.bit Reg.SCH_STS_STALL = false ∧ x.bit Reg.SCH_STS_LATE = true ∧
      x.get Reg.SCH_LATE = (ch.get Reg.SCH_LATE + 1) % 2 ^ 32 ∧ x.get Reg.SCH_REL = (ch.get Reg.SCH_REL + 1) % 2 ^ 32 ∧
      Only noteParts ch x) ∧
  Acts (.releaseResume c) c (fun ch => ch.sch.table = [e] ∧ ch.sch.ptr = 0 ∧ 128 ≤ (ch.queue (kindQueue e.kind)).length)
    (fun ch x => Only [.sent] ch x)

/-- R83, R88, R89, R110: an engine that asks is given the oldest task of the highest queue it allows whose joint runs no task, leaving those
passed over in their places: here from Q0. The engine runs it from its entry, its registers cleared. With no task it goes on waiting; a
lower-numbered engine that could be given a task is served first. -/
def Obligations.TaskDispatched : Prop := ∀ (c : Chan) (n : Fin 8) (t u : Task) (rest : List Task), t.kind = 1 → t.evt = none →
  t.joint < 64 → u.joint ≠ t.joint →
  Acts (.taskDispatch c n) c
    (fun ch => ch.get (Reg.LPE_STS_STATE n) = 1 ∧ (ch.engine n).task = none ∧ ch.blockQuiet (8 + n.val) = false ∧
      (∀ m, m < n.val → ch.get (Reg.LPE_STS_STATE m) ≠ 1) ∧ ch.get (Reg.LPE_CFG_CMASK n) % 2 = 1 ∧ ch.queue 0 = t :: rest ∧
      (∀ m, m < 8 → (ch.engine m).task.all (fun r => r.joint != t.joint) = true) ∧ tbit ch.red.seedC t.joint = false)
    (fun ch x => (x.engine n).task = some t ∧ (x.engine n).d = [] ∧ (x.engine n).fl = 0 ∧ (x.engine n).stack = [] ∧ (x.engine n).cyc = 0 ∧
      x.queue 0 = rest ∧ x.get (Reg.LPE_STS_STATE n) = 2 ∧ x.get (Reg.LPE_STS_JOINT n) = t.joint ∧ x.get (Reg.LPE_STS_KIND n) = 1 ∧
      x.get (Reg.LPE_PC_PC n) = (if ch.bit (Reg.JNT_CFG_LEVEL t.joint) then ch.get (Reg.JNT_UENT_CUR t.joint) else 0x8000) ∧
      (∀ m, m < 8 → m ≠ n.val → x.engine m = ch.engine m) ∧ Only dispatchParts ch x) ∧
  Acts (.taskDispatch c n) c
    (fun ch => ch.get (Reg.LPE_STS_STATE n) = 1 ∧ (ch.engine n).task = none ∧ ch.blockQuiet (8 + n.val) = false ∧
      (∀ m, m < n.val → ch.get (Reg.LPE_STS_STATE m) ≠ 1) ∧ ch.get (Reg.LPE_CFG_CMASK n) % 2 = 1 ∧ ch.queue 0 = u :: t :: rest ∧
      (∀ m, m < 8 → (ch.engine m).task.all (fun r => r.joint != t.joint) = true) ∧
      (∃ m, m < 8 ∧ (ch.engine m).task.any (fun r => r.joint == u.joint) = true) ∧ tbit ch.red.seedC t.joint = false)
    (fun ch x => (x.engine n).task = some t ∧ x.queue 0 = u :: rest ∧ Only dispatchParts ch x) ∧
  Acts (.taskDispatch c n) c
    (fun ch => ch.get (Reg.LPE_STS_STATE n) ≠ 1 ∨ (ch.engine n).task ≠ none ∨
      ((ch.get (Reg.LPE_CFG_CMASK n) % 2 = 0 ∨ ch.queue 0 = []) ∧ (ch.get (Reg.LPE_CFG_CMASK n) / 2 % 2 = 0 ∨ ch.queue 1 = []) ∧
        (ch.get (Reg.LPE_CFG_CMASK n) / 16 % 2 = 0 ∨ ch.queue 4 = [])))
    (fun ch x => Only [.sent] ch x)

/-- R91, R92, R95, R125: at a task's deadline, at its cycle limit, and at a DONE past either, the task is aborted: counted in SCH_ABRT, its
engine back at ASK (halted with EN 0). A current task counts as a miss of its joint with F1 0x0401; the second in a row disables the
joint's gates, F2 0x0402. A DONE in time of a user task counts in SCH_CMPL and LPE_TASKS and commits its output and state words. -/
def Obligations.TasksEnd : Prop := ∀ (c : Chan) (n : Fin 8) (t : Task), t.joint < 64 →
  Acts (.taskDeadline c) c
    (fun ch => t.kind = 1 ∧ t.evt = none ∧ ch.liveTasks = [t] ∧ ch.queue 0 = [t] ∧ ch.paced ∧ t.dl < 2 ^ 60 ∧ ch.get (Reg.JNT_STS_CCONS t.joint) = 0)
    (fun ch x => t.dl ≤ x.now ∧ x.queue 0 = [] ∧ x.get Reg.SCH_ABRT = (ch.get Reg.SCH_ABRT + 1) % 2 ^ 32 ∧
      x.get Reg.SCH_CMPL = ch.get Reg.SCH_CMPL ∧ x.bit (Reg.JNT_STS_CMISS t.joint) = true ∧
      x.get (Reg.JNT_MISS_CUR t.joint) = min (ch.get (Reg.JNT_MISS_CUR t.joint) + 1) 0xFFFF ∧ x.shows 0x0401 (some (ch.armOf t.joint)) t.joint ∧
      Only (.clock :: taskParts) ch x) ∧
  Acts (.taskDeadline c) c
    (fun ch => t.kind = 1 ∧ t.evt = none ∧ ch.liveTasks = [t] ∧ ch.queue 0 = [t] ∧ ch.paced ∧ t.dl < 2 ^ 60 ∧
      1 ≤ ch.get (Reg.JNT_STS_CCONS t.joint))
    (fun ch x => x.bit (Reg.JNT_STS_GOFF t.joint) = true ∧ x.bit (Reg.JNT_STS_TOFF t.joint) = true ∧
      x.shows 0x0402 (some (ch.armOf t.joint)) t.joint ∧ Only (.clock :: taskParts) ch x) ∧
  Acts (.taskCycleLimit c n) c (fun ch => (ch.engine n).task = some t)
    (fun ch x => (x.engine n).task = none ∧ x.get (Reg.LPE_STS_STATE n) = (if ch.bit (Reg.LPE_CFG_EN n) then 1 else 0) ∧
      x.get Reg.SCH_ABRT = (ch.get Reg.SCH_ABRT + 1) % 2 ^ 32 ∧ x.get Reg.SCH_CMPL = ch.get Reg.SCH_CMPL ∧
      x.get (Reg.LPE_CYC_LAST n) = min (8 * t.clim + 12) 0xFFFF ∧ x.get (Reg.LPE_TASKS n) = ch.get (Reg.LPE_TASKS n) ∧
      Only taskParts ch x) ∧
  Acts (.leDone c n) c
    (fun ch => (ch.engine n).task = some t ∧ ch.userTask t = true ∧ ch.past t.dl = false ∧ (ch.engine n).cyc + 1 ≤ 8 * t.clim)
    (fun ch x => (x.engine n).task = none ∧ x.get (Reg.LPE_STS_STATE n) = (if ch.bit (Reg.LPE_CFG_EN n) then 1 else 0) ∧
      x.get Reg.SCH_CMPL = (ch.get Reg.SCH_CMPL + 1) % 2 ^ 32 ∧ x.get (Reg.LPE_TASKS n) = (ch.get (Reg.LPE_TASKS n) + 1) % 2 ^ 32 ∧
      x.get (Reg.LPE_CYC_LAST n) = min ((ch.engine n).cyc + 13) 0xFFFF ∧
      (∀ i, i < 16 → Tab.get (x.joint t.joint).out 0 (0x7C40 + i) = Tab.get (ch.engine n).win 0 (0x7C40 + i)) ∧
      (∀ i, i < 128 → Tab.get (x.joint t.joint).st 0 (0x7C80 + i) = Tab.get (ch.engine n).win 0 (0x7C80 + i)) ∧ Only taskParts ch x) ∧
  Acts (.leDone c n) c
    (fun ch => (ch.engine n).task = some t ∧ (ch.past t.dl = true ∨ ch.userTask t = true ∧ 8 * t.clim < (ch.engine n).cyc + 1))
    (fun ch x => (x.engine n).task = none ∧ x.get Reg.SCH_ABRT = (ch.get Reg.SCH_ABRT + 1) % 2 ^ 32 ∧
      x.get Reg.SCH_CMPL = ch.get Reg.SCH_CMPL ∧ x.get (Reg.LPE_TASKS n) = ch.get (Reg.LPE_TASKS n) ∧ Only taskParts ch x) ∧
  Acts (.leAsk c n) c (fun ch => (ch.engine n).task = none) (fun ch x => Only [.sent] ch x)

/-- R8, R88, R95: RESTART returns a halted engine to ASK, or to its halt with EN 0, and is ignored of any other; CLRMAX clears LPE_CYC.MAX;
LPE_CFG takes a write in COMMISSION and MAINTENANCE that allows neither Q2 nor Q3, which an engine without a task follows at once, and no
other. Each counts as a host write. -/
def Obligations.EngineRegisters : Prop := ∀ (c : Chan) (n : Fin 8) (v : Word),
  Acts (.engineRestart c n) c (fun ch => ch.get (Reg.LPE_STS_STATE n) = 3)
    (fun ch x => x.get (Reg.LPE_STS_STATE n) = (if ch.bit (Reg.LPE_CFG_EN n) then 1 else 0) ∧ x.get (Reg.LPE_STS_FLT n) = 0 ∧
      x.get (Reg.LPE_STS_FLTS n) = ch.get (Reg.LPE_STS_FLTS n) ∧ (x.engine n).task = none ∧
      Only (.engines :: .each 0x6000 0x7000 512 8 :: .each 0x6000 0x7000 512 0xC :: tellParts) ch x) ∧
  Acts (.engineRestart c n) c (fun ch => ch.get (Reg.LPE_STS_STATE n) ≠ 3)
    (fun ch x => x.get Reg.HOST_WCNTP = (ch.get Reg.HOST_WCNTP + 1) % 2 ^ 32 ∧ Only [.sent, .regs 0x1F000 0x20000] ch x) ∧
  Acts (.clrmax c n) c (fun _ => True)
    (fun ch x => x.get (Reg.LPE_CYC_MAX n) = 0 ∧ x.get (Reg.LPE_CYC_LAST n) = ch.get (Reg.LPE_CYC_LAST n) ∧
      Only [.sent, .each 0x6000 0x7000 512 0x10, .regs 0x1F000 0x20000] ch x) ∧
  Acts (.engineEnableWrite c n v) c
    (fun ch => (ch.get Reg.CHN_STATE_CODE = 2 ∨ ch.get Reg.CHN_STATE_CODE = 8) ∧ v.getLsbD 6 = false ∧ v.getLsbD 7 = false)
    (fun ch x => x.get (Reg.LPE_CFG_EN n) = v.toNat % 2 ∧ x.get (Reg.LPE_CFG_CMASK n) = v.toNat / 16 % 32 ∧
      ((ch.engine n).task = none → ch.get (Reg.LPE_STS_STATE n) ≠ 3 → x.get (Reg.LPE_STS_STATE n) = v.toNat % 2) ∧
      ((ch.engine n).task ≠ none ∨ ch.get (Reg.LPE_STS_STATE n) = 3 → x.get (Reg.LPE_STS_STATE n) = ch.get (Reg.LPE_STS_STATE n)) ∧
      Only [.sent, .each 0x6000 0x7000 512 0, .each 0x6000 0x7000 512 8, .regs 0x1F000 0x20000] ch x) ∧
  Acts (.engineEnableWrite c n v) c
    (fun ch => (ch.get Reg.CHN_STATE_CODE = 2 ∨ ch.get Reg.CHN_STATE_CODE = 8) ∧ (v.getLsbD 6 = true ∨ v.getLsbD 7 = true))
    (fun ch x => Only [.sent, .regs 0x1F000 0x20000] ch x) ∧
  Acts (.engineEnableWrite c n v) c (fun ch => ch.get Reg.CHN_STATE_CODE ≠ 2 ∧ ch.get Reg.CHN_STATE_CODE ≠ 8)
    (fun ch x => x.bit Reg.HOST_ERR_LOCKW = true ∧ Only [.sent, .regs 0x1F000 0x20000] ch x)


/-! ### Power outputs (R130 to R168) -/

/-- R133, R134, R136, R138: at a reload a loop-mode unit's shadow duties become the active ones; an open-mode unit keeps its active duties
unless LOADALL has marked it, then takes the shadow and drops its mark. A commanded edge turns the phase's other side off at once. LOADALL
marks the open-mode units it names, and no others. -/
def Obligations.PwmReloadsAndEdges : Prop := ∀ (c : Chan) (u : Fin 16) (i : Fin 3) (units : BitVec 16),
  Acts (.pwmReload c u) c
    (fun ch => ch.bit (Reg.PWM_CFG_MODE u) = false ∧ (ch.pwmU u).comCt = none ∧ (ch.pwmU u).lastB.all (fun b => decide (b ≤ ch.now)) = true ∧
      ch.paced ∧ ∀ i, i < 3 → (ch.phase u i).hi = false)
    (fun ch x => (x.pwmU u).act = [ch.get (Reg.PWM_DUTYA_DUTY u), ch.get (Reg.PWM_DUTYB_DUTY u), ch.get (Reg.PWM_DUTYC_DUTY u)] ∧
      (x.pwmU u).lastB.any (fun b => ch.isReload u b && decide (b % ch.pwmHalf u = ch.pwmPhase u % ch.pwmHalf u) && decide (b ≤ x.now) &&
        decide (x.now ≤ b + 4)) = true ∧
      (∀ v, v < 16 → v ≠ u.val → x.pwmU v = ch.pwmU v) ∧ Only [.clock, .pwm, .sent] ch x) ∧
  Acts (.pwmReload c u) c (fun ch => ch.bit (Reg.PWM_CFG_MODE u) = true ∧ ch.bit (Reg.PWM_STS_PEND u) = false)
    (fun ch x => (x.pwmU u).act = (ch.pwmU u).act ∧ Only [.clock, .pwm, .sent] ch x) ∧
  Acts (.pwmReload c u) c
    (fun ch => ch.bit (Reg.PWM_CFG_MODE u) = true ∧ ch.bit (Reg.PWM_STS_PEND u) = true ∧ (ch.pwmU u).ldCt = none ∧
      8000 * 2 ^ ch.get (Reg.PWM_PERSH_PER u) = ch.pwmHalf u)
    (fun ch x => (x.pwmU u).act = [ch.get (Reg.PWM_DUTYA_DUTY u), ch.get (Reg.PWM_DUTYB_DUTY u), ch.get (Reg.PWM_DUTYC_DUTY u)] ∧
      x.bit (Reg.PWM_STS_PEND u) = false ∧ tbit (x.get Reg.PWM_LDSTS_PEND) u = false ∧
      Only [.clock, .pwm, .sent, .each 0x10000 0x11000 256 0x38, .regs 0x10084 0x10085] ch x) ∧
  Acts (.pwmEdge c u i true) c (fun ch => ch.bit (Reg.PWM_CFG_EXP u) = false ∧ (ch.pwmU u).resume.isSome = true)
    (fun ch x => (x.phase u i).hi = true ∧ tbit (x.get (Reg.PWM_STS_GATES u)) (gateBit i false) = false ∧
      Only [.clock, .pwm, .sent, .each 0x10000 0x11000 256 0x38] ch x) ∧
  Acts (.pwmEdge c u i false) c (fun ch => (ch.phase u i).hi = true ∧ (ch.pwmU u).resume.isSome = true)
    (fun ch x => (x.phase u i).hi = false ∧ tbit (x.get (Reg.PWM_STS_GATES u)) (gateBit i true) = false ∧
      Only [.clock, .pwm, .sent, .each 0x10000 0x11000 256 0x38] ch x) ∧
  Acts (.loadall c units) c (fun _ => True)
    (fun ch x => (∀ v, v < 16 → x.get (Reg.PWM_STS_PEND v) =
        if units.getLsbD v = true ∧ ch.bit (Reg.PWM_CFG_MODE v) = true then 1 else ch.get (Reg.PWM_STS_PEND v)) ∧
      Only [.pwm, .sent, .each 0x10000 0x11000 256 0x38, .regs 0x10084 0x10085, .regs 0x1F000 0x20000] ch x)

/-- R140 to R143: the asserted trip input of a unit whose trip is enabled turns its six gates off and latches: for a loop-mode unit of a
joint F2 0x0601 for its arm, else F1 0x0602; with the trip not enabled only the input shows. TRIPCLR is refused while the input is
asserted, else clears the latch. PWM_CTL.EN 0 turns the gates off, with F2 0x060C where a loop-mode unit's joint has torque on. -/
def Obligations.PwmTrips : Prop := ∀ (c : Chan) (u : Fin 16) (j : Fin 64) (v : Word),
  Acts (.trip c u) c
    (fun ch => ch.bit (Reg.PWM_TRIPSTS_TRIPIN u) = false ∧ ch.bit (Reg.PWM_CFG_TRPEN u) = true ∧ ch.bit (Reg.PWM_CFG_MODE u) = false ∧
      ch.unitJoint 1 u = some j.val)
    (fun ch x => x.bit (Reg.PWM_TRIPSTS_TRIP u) = true ∧ x.bit (Reg.PWM_TRIPSTS_TRIPIN u) = true ∧ x.get (Reg.PWM_STS_GATES u) = 0 ∧
      x.get (Reg.PWM_TRIPSTS_CNT u) = min (ch.get (Reg.PWM_TRIPSTS_CNT u) + 1) 0xFFFF ∧ x.shows 0x0601 (some (ch.armOf j)) u ∧
      Only (.pwm :: .regs 0x10000 0x11000 :: faultParts) ch x) ∧
  Acts (.trip c u) c
    (fun ch => ch.bit (Reg.PWM_TRIPSTS_TRIPIN u) = false ∧ ch.bit (Reg.PWM_CFG_TRPEN u) = true ∧
      (ch.bit (Reg.PWM_CFG_MODE u) = true ∨ ch.unitJoint 1 u = none))
    (fun ch x => x.bit (Reg.PWM_TRIPSTS_TRIP u) = true ∧ x.get (Reg.PWM_STS_GATES u) = 0 ∧ x.shows 0x0602 none u ∧
      Only (.pwm :: .each 0x10000 0x11000 256 0x30 :: .each 0x10000 0x11000 256 0x38 :: noteParts) ch x) ∧
  Acts (.trip c u) c (fun ch => ch.bit (Reg.PWM_CFG_TRPEN u) = false)
    (fun ch x => x.bit (Reg.PWM_TRIPSTS_TRIPIN u) = true ∧ x.get (Reg.PWM_TRIPSTS_TRIP u) = ch.get (Reg.PWM_TRIPSTS_TRIP u) ∧
      Only [.sent, .each 0x10000 0x11000 256 0x30] ch x) ∧
  Acts (.tripInputRelease c u) c (fun _ => True)
    (fun ch x => x.bit (Reg.PWM_TRIPSTS_TRIPIN u) = false ∧ x.get (Reg.PWM_TRIPSTS_TRIP u) = ch.get (Reg.PWM_TRIPSTS_TRIP u) ∧
      Only [.sent, .each 0x10000 0x11000 256 0x30] ch x) ∧
  Acts (.tripclr c u) c (fun ch => ch.bit (Reg.PWM_TRIPSTS_TRIPIN u) = true)
    (fun ch x => x.bit (Reg.PWM_TRIPSTS_CLRREF u) = true ∧ x.get (Reg.PWM_TRIPSTS_TRIP u) = ch.get (Reg.PWM_TRIPSTS_TRIP u) ∧
      Only [.sent, .each 0x10000 0x11000 256 0x30, .regs 0x1F000 0x20000] ch x) ∧
  Acts (.tripclr c u) c (fun ch => ch.bit (Reg.PWM_TRIPSTS_TRIPIN u) = false)
    (fun ch x => x.bit (Reg.PWM_TRIPSTS_TRIP u) = false ∧
      Only [.pwm, .sent, .each 0x10000 0x11000 256 0x30, .each 0x10000 0x11000 256 0x38, .regs 0x1F000 0x20000] ch x) ∧
  Acts (.pwmEnableWrite c u v) c
    (fun ch => v.getLsbD 0 = false ∧ (ch.bit (Reg.PWM_CFG_MODE u) = true ∨ (ch.unitJoint 1 u).all (fun j => ch.bit (Reg.JNT_STS_TOFF j)) = true) ∧
      ch.bit (Reg.PWM_STS_ON u) = true)
    (fun ch x => x.get (Reg.PWM_CTL_EN u) = 0 ∧ x.get (Reg.PWM_STS_ON u) = 0 ∧ x.get (Reg.PWM_STS_GATES u) = 0 ∧
      Only [.pwm, .sent, .each 0x10000 0x11000 256 0x10, .each 0x10000 0x11000 256 0x38, .regs 0x1F000 0x20000] ch x) ∧
  Acts (.pwmEnableWrite c u v) c
    (fun ch => v.getLsbD 0 = true ∧ ch.bit (Reg.PWM_CFG_MODE u) = true ∧ ch.bit (Reg.PWM_TRIPSTS_TRIP u) = false ∧
      ch.bit (Reg.SAF_STOSTS_ENG (u / 4)) = true)
    (fun ch x => x.get (Reg.PWM_CTL_EN u) = 1 ∧ x.get (Reg.PWM_STS_ON u) = 1 ∧
      Only [.pwm, .sent, .each 0x10000 0x11000 256 0x10, .each 0x10000 0x11000 256 0x38, .regs 0x1F000 0x20000] ch x) ∧
  Acts (.pwmEnableWrite c u v) c
    (fun ch => v.getLsbD 0 = false ∧ ch.bit (Reg.PWM_CFG_MODE u) = false ∧ ch.unitJoint 1 u = some j.val ∧ ch.bit (Reg.JNT_STS_TOFF j) = false)
    (fun ch x => x.get (Reg.PWM_CTL_EN u) = 0 ∧ x.shows 0x060C (some (ch.armOf j)) u ∧
      Only (.pwm :: .regs 0x10000 0x11000 :: faultParts) ch x)

/-- R144, R145: a sample of a current input in use, or of a group's DC-link voltage, is shown calibrated: the offset taken off, times the
gain in units of 2^-13, rounded, ties upwards, saturated to 16 bits. An invalid input marks its unit's, or its group's, values invalid. -/
def Obligations.SigmaDeltaSamples : Prop := ∀ (c : Chan) (u : Fin 16) (i : Fin 3) (g : Fin 4) (v : BitVec 16),
  Acts (.sigmaDeltaSampleReady c (.phase u i) v) c (fun ch => ch.bit (Reg.PWM_CFG_SDEN u) = true)
    (fun ch x => let cal := match i with | 0 => Reg.PWM_SDCALA u | 1 => Reg.PWM_SDCALB u | _ => Reg.PWM_SDCALC u
      let out := match i with | 0 => Reg.PWM_ISMP0_IA u | 1 => Reg.PWM_ISMP0_IB u | _ => Reg.PWM_ISMP1_IC u
      x.geti out = ranged16 true ((2 * ((v.toInt - wrapS 16 (ch.get cal)) * (ch.get cal / 65536)) + 8192) / 16384) ∧
      Only [.clock, .pwm, .sent, .each 0x10000 0x11000 256 0x38, .each 0x10000 0x11000 256 0x50, .each 0x10000 0x11000 256 0x54] ch x) ∧
  Acts (.sigmaDeltaSampleReady c (.phase u i) v) c (fun ch => ch.bit (Reg.PWM_CFG_SDEN u) = false) (fun ch x => Only [.sent] ch x) ∧
  Acts (.sigmaDeltaSampleReady c (.vdc g) v) c (fun _ => True)
    (fun ch x => x.bit (Reg.PWM_VDC_VAL g) = true ∧
      x.geti (Reg.PWM_VDC_VDC g) = ranged16 true ((2 * ((v.toInt - ch.geti (Reg.PWM_VDCCAL_OFS g)) * ch.get (Reg.PWM_VDCCAL_GAIN g)) + 8192) / 16384) ∧
      Only [.clock, .sent, .regs 0x100A0 0x100B0] ch x) ∧
  Acts (.sigmaDeltaInputInvalid c (.phase u i)) c (fun _ => True)
    (fun ch x => x.bit (Reg.PWM_STS_SDVAL u) = false ∧ Only [.pwm, .sent, .each 0x10000 0x11000 256 0x38] ch x) ∧
  Acts (.sigmaDeltaInputInvalid c (.vdc g)) c (fun _ => True)
    (fun ch x => x.bit (Reg.PWM_VDC_VAL g) = false ∧ x.get (Reg.PWM_VDC_VDC g) = ch.get (Reg.PWM_VDC_VDC g) ∧
      Only [.sent, .regs 0x100A0 0x100B0] ch x)

/-- R156 to R159: a microstep moves STP_EMIT by one towards STP_CMD and the index by 256 over the resolution, below STP_MAXR per basic
cycle; with nothing pending none is emitted. A coil at its threshold leaves drive once the blanking time has passed, its off time over it
drives again or stays off at code 0; 64 µs without a threshold is F1 0x0607. The mixed decay's fast part ends in slow decay; HDLY basic
cycles without a microstep select the hold current. BRK_ETCLR puts TRIPCLR into the next record of each EDGE joint it names. -/
def Obligations.SteppersAndBricks : Prop := ∀ (c : Chan) (n : Fin 8) (j : Fin 64) (k : Coil) (t : Nat) (mask : BitVec 64), t < 2 ^ 60 →
  Acts (.microstepEmit c n) c
    (fun ch => ch.stpOk n = true ∧ ch.geti64 (Reg.STP_CMD n) ≠ ch.geti64 (Reg.STP_EMIT n) ∧
      (if (ch.stpU n).cyc = ch.cycle then (ch.stpU n).n else 0) < ch.get (Reg.STP_MAXR_MAXR n))
    (fun ch x => let d : Int := if ch.geti64 (Reg.STP_EMIT n) < ch.geti64 (Reg.STP_CMD n) then 1 else -1
      x.geti64 (Reg.STP_EMIT n) = ch.geti64 (Reg.STP_EMIT n) + d ∧ x.geti64 (Reg.STP_CMD n) = ch.geti64 (Reg.STP_CMD n) ∧
      x.get (Reg.STP_STS_IDX n) = ofInt 10 (ch.get (Reg.STP_STS_IDX n) + d * (256 / 2 ^ ch.get (Reg.STP_CFG_MRES n) : Nat)) ∧
      x.bit (Reg.STP_STS_HOLD n) = false ∧ (x.stpU n).last = ch.now ∧ (∀ m, m < 8 → m ≠ n.val → x.stpU m = ch.stpU m) ∧
      Only [.stp, .sent, .each 0x11000 0x11800 256 0x18, .each 0x11000 0x11800 256 0x1C, .each 0x11000 0x11800 256 0x20,
        .each 0x11000 0x11800 256 0x24] ch x) ∧
  Acts (.microstepEmit c n) c (fun ch => ch.geti64 (Reg.STP_CMD n) = ch.geti64 (Reg.STP_EMIT n)) (fun ch x => Only [.sent] ch x) ∧
  Acts (.coilThresholdReached c n k) c
    (fun ch => (ch.stpU n).coil k = .drive t ∧ t + 128 * (ch.get (Reg.STP_CFG_BLANK n) + 1) ≤ ch.now)
    (fun ch x => (x.stpU n).coil k = .rest ch.now ∧
      x.get (coilField n k) = (if ch.get (Reg.STP_CFG_DECAY n) = 1 ∨ ch.get (Reg.STP_CFG_DECAY n) = 2 ∧ 0 < ch.get (Reg.STP_CFG_FFRAC n)
        then 3 - ch.get (coilField n k) else 3) ∧ Only [.stp, .sent, .each 0x11000 0x11800 256 0x24] ch x) ∧
  Acts (.coilThresholdReached c n k) c
    (fun ch => (ch.stpU n).coil k = .drive t ∧ ch.now < t + 128 * (ch.get (Reg.STP_CFG_BLANK n) + 1)) (fun ch x => Only [.sent] ch x) ∧
  Acts (.coilOffEnd c n k) c (fun ch => (ch.stpU n).coil k = .rest t ∧ ch.paced)
    (fun ch x => ch.reached x (t + 250 * (ch.get (Reg.STP_CFG_TOFF n) + 1)) ∧
      (x.stpU n).coil k = (if coilIdx (ch.get (Reg.STP_STS_IDX n)) k % 512 = 0 then .off else .drive x.now) ∧
      Only [.clock, .stp, .sent, .each 0x11000 0x11800 256 0x24] ch x) ∧
  Acts (.coilNoTrip c n k) c (fun ch => (ch.stpU n).coil k = .drive t ∧ ch.unitJoint 2 n = some j.val ∧ ch.paced)
    (fun ch x => ch.reached x (t + 64000) ∧ (x.stpU n).coil k = .rest x.now ∧ x.shows 0x0607 (some (ch.armOf j)) n ∧
      x.bit (match k with | .A => Reg.STP_STS_NOTRIPA n | .B => Reg.STP_STS_NOTRIPB n) = true ∧
      Only (.clock :: .stp :: .each 0x11000 0x11800 256 0x24 :: noteParts) ch x) ∧
  Acts (.mixedDecayFastEnd c n k) c (fun ch => (ch.stpU n).coil k = .rest t ∧ ch.get (Reg.STP_CFG_DECAY n) = 2 ∧ ch.paced)
    (fun ch x => ch.reached x (t + 250 * (ch.get (Reg.STP_CFG_TOFF n) + 1) * ch.get (Reg.STP_CFG_FFRAC n) / 16) ∧
      x.get (coilField n k) = 3 ∧ Only [.clock, .sent, .each 0x11000 0x11800 256 0x24] ch x) ∧
  Acts (.holdDelayExpiry c n) c (fun ch => (ch.stpU n).last < 2 ^ 60 ∧ ch.paced)
    (fun ch x => ch.reached x ((ch.stpU n).last + 16000 * ch.get (Reg.STP_REF_HDLY n)) ∧ x.bit (Reg.STP_STS_HOLD n) = true ∧
      Only [.clock, .sent, .each 0x11000 0x11800 256 0x24] ch x) ∧
  Acts (.brickTripClear c mask) c (fun _ => True)
    (fun ch x => (∀ i, i < 64 → x.brick i =
        if mask.getLsbD i = true ∧ ch.get (Reg.JNT_BIND_KIND i) = 3 then { ch.brick i with tclr := true } else ch.brick i) ∧
      Only [.bricks, .sent, .regs 0x1F000 0x20000] ch x)


/-! ### Position feedback (R169 to R190) -/

/-- R171, R173 to R175: one accepted edge of A or B moves the count by one, up when A leads B, the other way with INV; both at once count
nothing and are F2 or F1 0x0703. The first index references: to AOFS with REFM, else its residue becomes IDXREF; a later one shows its
residual r, nearest to 0, and within TOL ends the run of errors. IDXARM makes the next index the reference, CLRERR clears the error
counts. -/
def Obligations.EncoderCounts : Prop := ∀ (c : Chan) (p : Fin 24) (a b : Bool),
  Acts (.encoderEdge c p a b) c
    (fun ch => ch.encLive = true ∧ ch.get (Reg.ENC_CFG_MODE p) = 1 ∧ ((ch.encU p).a = a ↔ (ch.encU p).b ≠ b))
    (fun ch x => x.geti64 (Reg.ENC_CNT p) = wrapS 64 (ch.geti64 (Reg.ENC_CNT p) +
        if (a != (ch.encU p).b) = ch.bit (Reg.ENC_CFG_INV p) then -1 else 1) ∧
      (x.encU p).a = a ∧ (x.encU p).b = b ∧ (∀ q, q < 24 → q ≠ p.val → x.encU q = ch.encU q) ∧ Only countParts ch x) ∧
  Acts (.encoderEdge c p a b) c
    (fun ch => ch.encLive = true ∧ ch.get (Reg.ENC_CFG_MODE p) = 1 ∧ (ch.encU p).a ≠ a ∧ (ch.encU p).b ≠ b)
    (fun ch x => x.geti64 (Reg.ENC_CNT p) = ch.geti64 (Reg.ENC_CNT p) ∧ x.bit (Reg.ENC_STS_QERR p) = true ∧
      x.get (Reg.ENC_QERR p) = (ch.get (Reg.ENC_QERR p) + 1) % 2 ^ 32 ∧ (∃ f ∈ x.flt.active, f.code = 0x0703 ∧ f.index = p.val) ∧
      Only (.enc :: .regs 0x12000 0x12C00 :: faultParts) ch x) ∧
  Acts (.encoderEdge c p a b) c (fun ch => ch.encLive = false ∨ ch.get (Reg.ENC_CFG_MODE p) ≠ 1) (fun ch x => Only [.sent] ch x) ∧
  Acts (.index c p) c
    (fun ch => ch.encLive = true ∧ ch.get (Reg.ENC_CFG_MODE p) = 1 ∧ ch.get (Reg.ENC_CPR p) ≠ 0 ∧ (ch.encU p).needRef = true ∧
      (ch.bit (Reg.ENC_CFG_REFM p) = false ∨ ch.bit (Reg.ENC_STS_REF p) = true))
    (fun ch x => (x.get (Reg.ENC_IDXREF p) : Int) = ch.geti64 (Reg.ENC_CNT p) % ch.get (Reg.ENC_CPR p) ∧ (x.encU p).needRef = false ∧
      x.geti64 (Reg.ENC_CNT p) = ch.geti64 (Reg.ENC_CNT p) ∧ Only [.enc, .sent, .regs 0x12000 0x12C00] ch x) ∧
  Acts (.index c p) c
    (fun ch => ch.encLive = true ∧ ch.get (Reg.ENC_CFG_MODE p) = 1 ∧ ch.bit (Reg.ENC_CFG_REFM p) = true ∧ ch.bit (Reg.ENC_STS_REF p) = false)
    (fun ch x => x.geti64 (Reg.ENC_CNT p) = ch.geti64 (Reg.ENC_AOFS p) ∧ x.bit (Reg.ENC_STS_REF p) = true ∧
      x.bit (Reg.ENC_STS_VALID p) = true ∧ Only countParts ch x) ∧
  Acts (.index c p) c
    (fun ch => ch.encLive = true ∧ ch.get (Reg.ENC_CFG_MODE p) = 1 ∧ ch.get (Reg.ENC_CPR p) ≠ 0 ∧ ch.get (Reg.ENC_CPR p) < 2 ^ 31 ∧
      (ch.encU p).needRef = false ∧ (ch.bit (Reg.ENC_CFG_REFM p) = false ∨ ch.bit (Reg.ENC_STS_REF p) = true) ∧
      ch.bit (Reg.ENC_CFG_RPH p) = false ∧ ch.get (Reg.ENC_CPR p) ≤ 2 * ch.get (Reg.ENC_IDXTOL_TOL p))
    (fun ch x => (ch.geti64 (Reg.ENC_CNT p) - ch.get (Reg.ENC_IDXREF p) - x.geti (Reg.ENC_IDXRES p)) % ch.get (Reg.ENC_CPR p) = 0 ∧
      2 * (x.geti (Reg.ENC_IDXRES p)).natAbs ≤ ch.get (Reg.ENC_CPR p) ∧ x.get (Reg.ENC_STS_ICONS p) = 0 ∧
      x.geti64 (Reg.ENC_CNT p) = ch.geti64 (Reg.ENC_CNT p) ∧ Only [.enc, .sent, .regs 0x12000 0x12C00] ch x) ∧
  Acts (.idxarm c p) c (fun ch => (ch.encU p).idxAt ≠ some ch.ct)
    (fun ch x => (x.encU p).needRef = true ∧ Only [.enc, .sent, .regs 0x1F000 0x20000] ch x) ∧
  Acts (.clrerr c p) c (fun _ => True)
    (fun ch x => x.get (Reg.ENC_ERRCNT p) = 0 ∧ Only [.sent, .each 0x12000 0x12C00 128 0x68, .regs 0x1F000 0x20000] ch x)

/-- R176 to R180: a frame's latch instant lies LEAD before a multiple of the interval, and starts the frame under the settings of that
instant. A good sample moves the count by the difference of the position field, unwrapped; a failed one by the last accepted difference,
once, with its cause counted, SFAIL and EXTR; the second in a row makes the port invalid, 0x0702. A missing start bit, and a data line that
does not rise, fail the sample; the monoflop also takes back one already taken. -/
def Obligations.SerialSamples : Prop := ∀ (c : Chan) (p : Fin 24) (w : BitVec 64) (lh ok : Bool) (f : SerialFrame) (u : EncUndo), f.tl < 2 ^ 60 →
  Acts (.serialLatch c p lh) c (fun ch => ch.encLive = true ∧ ch.get (Reg.ENC_CFG_MODE p) = 2 ∧ ch.paced)
    (fun ch x => (x.encU p).frm.any (fun f => (f.tl + 4 * ch.get (Reg.ENC_LEAD_LEAD p)) % (16000 * 4 ^ ch.get (Reg.ENC_SCFG_IVL p)) == 0 &&
        f.lineHigh == lh && f.scfg == ch.get (Reg.ENC_SCFG p) && f.slay == ch.get (Reg.ENC_SLAY p) && f.scrc == ch.get (Reg.ENC_SCRC p) &&
        f.stmo == ch.get (Reg.ENC_STMO p) && decide (f.tl ≤ x.now) && decide (ch.now ≤ f.tl) && decide (x.now ≤ f.tl + 4)) = true ∧
      Only [.clock, .enc, .sent] ch x) ∧
  Acts (.serialSampleReady c p w ok) c
    (fun ch => (ch.encU p).frm = some f ∧ f.lineHigh = true ∧ f.crcOk w.toNat = true ∧ f.errBit w.toNat = false ∧ (ch.encU p).acq = true ∧
      ch.get (Reg.ENC_SJMP p) = 0 ∧ 0 < f.posl)
    (fun ch x => x.geti64 (Reg.ENC_CNT p) = wrapS 64 (ch.geti64 (Reg.ENC_CNT p) + wrapS f.posl ((f.pos w.toNat : Int) - (ch.encU p).uPrev)) ∧
      x.bit (Reg.ENC_STS_VALID p) = true ∧ x.get (Reg.ENC_STS_SCONS p) = 0 ∧ (x.encU p).frm = none ∧ (x.encU p).uPrev = f.pos w.toNat ∧
      Only countParts ch x) ∧
  Acts (.serialSampleReady c p w ok) c
    (fun ch => (ch.encU p).frm = some f ∧ f.lineHigh = true ∧ f.crcOk w.toNat = false ∧ (ch.encU p).acq = true ∧ ch.get (Reg.ENC_STS_SCONS p) = 0)
    (fun ch x => x.geti64 (Reg.ENC_CNT p) = wrapS 64 (ch.geti64 (Reg.ENC_CNT p) + (ch.encU p).dAcc) ∧ x.get (Reg.ENC_STS_FCAUSE p) = 1 ∧
      x.get (Reg.ENC_ERRCNT_CRC p) = min (ch.get (Reg.ENC_ERRCNT_CRC p) + 1) 255 ∧ x.bit (Reg.ENC_STS_SFAIL p) = true ∧
      x.bit (Reg.ENC_STS_EXTR p) = true ∧ x.get (Reg.ENC_STS_SCONS p) = 1 ∧ Only countParts ch x) ∧
  Acts (.serialSampleReady c p w ok) c
    (fun ch => (ch.encU p).frm = some f ∧ f.lineHigh = false ∧ (ch.encU p).acq = true ∧ ch.get (Reg.ENC_STS_SCONS p) = 1)
    (fun ch x => x.bit (Reg.ENC_STS_VALID p) = false ∧ x.get (Reg.ENC_STS_FCAUSE p) = 4 ∧ x.geti64 (Reg.ENC_CNT p) = ch.geti64 (Reg.ENC_CNT p) ∧
      (∃ f ∈ x.flt.active, f.code = 0x0702 ∧ f.index = p.val) ∧ Only countParts ch x) ∧
  Acts (.startTimeout c p) c
    (fun ch => (ch.encU p).frm = some f ∧ tbit f.scfg 29 = true ∧ ch.paced)
    (fun ch x => ch.reached x (f.tl + f.stmo / 256 % 256 * (4 * (f.scfg % 4096 + 1))) ∧ (x.encU p).frm = none ∧
      x.get (Reg.ENC_STS_FCAUSE p) = 3 ∧ x.get (Reg.ENC_ERRCNT_TMO p) = min (ch.get (Reg.ENC_ERRCNT_TMO p) + 1) 255 ∧ Only countParts ch x) ∧
  Acts (.monoflopTimeout c p) c
    (fun ch => (ch.encU p).frm = none ∧ (ch.encU p).undo = some u ∧ u.acq = true ∧ u.scons = 0)
    (fun ch x => x.geti64 (Reg.ENC_CNT p) = wrapS 64 (wrapS 64 (ch.geti64 (Reg.ENC_CNT p) - u.d) + u.dAcc) ∧
      x.get (Reg.ENC_STS_FCAUSE p) = 4 ∧ x.get (Reg.ENC_ERRCNT_TMO p) = min (ch.get (Reg.ENC_ERRCNT_TMO p) + 1) 255 ∧
      x.bit (Reg.ENC_STS_SFAIL p) = true ∧ x.get (Reg.ENC_STS_SCONS p) = 1 ∧ Only countParts ch x)

/-- R8, R186 to R188: an enabled output emits one pending edge towards DPO_OUT, MINSP ticks after its last; with none pending it emits
nothing. A write of its ratio where RWL fields take writes restarts it with remainder 0; elsewhere it is discarded. The safety positions are
evaluated at 0 ns of a servo cycle: a joint with a valid safety position beyond STOL of its control position for STCNT cycles in a row shows
in JSP_MISM; one without a source is left out. -/
def Obligations.DpoAndSafetyPositions : Prop := ∀ (c : Chan) (m : Fin 4) (v : Word) (which : DpoParam) (j : Fin 64) (p : Fin 24),
  Acts (.dpoEdgeEmit c m) c
    (fun ch => ch.bit (Reg.DPO_CFG_EN m) = true ∧ ch.geti64 (Reg.DPO_OUT m) ≠ ch.geti64 (Reg.DPO_EMIT m))
    (fun ch x => x.geti64 (Reg.DPO_EMIT m) = ch.geti64 (Reg.DPO_EMIT m) +
        (if ch.geti64 (Reg.DPO_EMIT m) < ch.geti64 (Reg.DPO_OUT m) then 1 else -1) ∧ x.geti64 (Reg.DPO_OUT m) = ch.geti64 (Reg.DPO_OUT m) ∧
      (x.dpoU m).last = x.mono ∧ Only [.clock, .dpo, .sent, .regs 0x12C00 0x12CC0] ch x) ∧
  Acts (.dpoEdgeEmit c m) c
    (fun ch => ch.bit (Reg.DPO_CFG_EN m) = false ∨ ch.geti64 (Reg.DPO_OUT m) = ch.geti64 (Reg.DPO_EMIT m)) (fun ch x => Only [.sent] ch x) ∧
  Acts (.dpoRatioWrite c m .num v) c (fun ch => ch.get Reg.CHN_STATE_CODE = 2 ∨ ch.get Reg.CHN_STATE_CODE = 8)
    (fun ch x => x.get (Reg.DPO_NUM m) = v.toNat ∧ x.get (Reg.DPO_REM m) = 0 ∧
      Only [.dpo, .sent, .regs 0x12C00 0x12CC0, .regs 0x1F000 0x20000] ch x) ∧
  Acts (.dpoRatioWrite c m .den v) c (fun ch => ch.get Reg.CHN_STATE_CODE = 2 ∨ ch.get Reg.CHN_STATE_CODE = 8)
    (fun ch x => x.get (Reg.DPO_DEN m) = v.toNat ∧ x.get (Reg.DPO_REM m) = 0 ∧
      Only [.dpo, .sent, .regs 0x12C00 0x12CC0, .regs 0x1F000 0x20000] ch x) ∧
  Acts (.dpoRatioWrite c m which v) c (fun ch => ch.get Reg.CHN_STATE_CODE ≠ 2 ∧ ch.get Reg.CHN_STATE_CODE ≠ 8)
    (fun ch x => x.bit Reg.HOST_ERR_LOCKW = true ∧ Only [.sent, .regs 0x1F000 0x20000] ch x) ∧
  Acts (.safetyPositionEvaluation c) c
    (fun ch => ch.logicOn = true ∧ ch.get Reg.CHN_STATE_CODE ≠ 1 ∧ ch.paced ∧ ch.bound j = true ∧ ch.get (Reg.JSP_CFG_SRC j) = 1 ∧
      ch.get (Reg.JSP_CFG_IDX j) = p.val ∧ ch.get (Reg.ENC_CFG_MODE p) ≠ 2 ∧ ch.bit (Reg.ENC_STS_VALID p) = true ∧
      ch.get (Reg.JSP_CFG_STOL j) < (ch.safetyPos j (ch.encU p).cnt0 - (ch.joint j).act / 65536).natAbs ∧
      ch.get (Reg.JSP_CFG_STCNT j) ≤ min ((Tab.get ch.jsp {} j).mis + 1) 8)
    (fun ch x => tbit (x.get64 Reg.JSP_MISM) j = true ∧ x.shows 0x0706 none j ∧ x.now % 64000 < 16000 ∧
      Only (.clock :: .saf :: .jsp :: .regs 0x12CC0 0x12CC8 :: faultParts) ch x) ∧
  Acts (.safetyPositionEvaluation c) c (fun ch => ch.logicOn = true ∧ ∀ i, i < 64 → ch.get (Reg.JSP_CFG_SRC i) = 0)
    (fun ch x => x.saf = { ch.saf with jspK := some x.cycle } ∧ Only [.clock, .saf, .sent] ch x)

/-! ### The solver (R192 to R217) -/

/-- R196, R207, R208, R210, R214: SLV_HPROD takes a count that neither moves back nor runs more than HRSIZE ahead of SLV_HCONS; any other
write is discarded with PREJ and F0 0x0802. While host work is allowed the descriptor at SLV_HCONS is taken, if valid: its problems pending
in their status records and counted in SLV_HSUB. They are released into Q3 while it has space, each counted; SLV_HCONS passes the
descriptor with the last. HABORT removes what waits and takes every descriptor, none of which then waits; the running problem goes on. -/
def Obligations.SolverSubmission : Prop := ∀ (c : Chan) (v : Word) (b : SBatch), b.n ≤ 256 → b.rel ≤ b.n →
  Acts (.hprodWrite c v) c
    (fun ch => ofInt 32 (ch.get Reg.SLV_HPROD - ch.get Reg.SLV_HCONS) ≤ ofInt 32 (v.toNat - ch.get Reg.SLV_HCONS) ∧
      ofInt 32 (v.toNat - ch.get Reg.SLV_HCONS) ≤ ch.get Reg.SLV_HRSIZE_SIZE)
    (fun ch x => x.get Reg.SLV_HPROD = v.toNat ∧ Only [.sent, .regs 0x13000 0x13080, .regs 0x1F000 0x20000] ch x) ∧
  Acts (.hprodWrite c v) c
    (fun ch => ofInt 32 (v.toNat - ch.get Reg.SLV_HCONS) < ofInt 32 (ch.get Reg.SLV_HPROD - ch.get Reg.SLV_HCONS) ∨
      ch.get Reg.SLV_HRSIZE_SIZE < ofInt 32 (v.toNat - ch.get Reg.SLV_HCONS))
    (fun ch x => x.get Reg.SLV_HPROD = ch.get Reg.SLV_HPROD ∧ x.bit Reg.SLV_DERR_PREJ = true ∧
      Only (.regs 0x13000 0x13080 :: noteParts) ch x) ∧
  Acts (.descriptorTake c) c
    (fun ch => ch.blockQuiet 3 = false ∧ ch.bit Reg.SLV_CFG_HEN = true ∧ hostWork (ch.get Reg.CHN_STATE_CODE) = true ∧ ch.slvOpen = false ∧
      ch.get Reg.SLV_HCONS ≠ ch.get Reg.SLV_HPROD ∧ 0 < ch.get Reg.SLV_HRSIZE_SIZE ∧
      ch.descReason (ch.sBytes (64 * ch.get Reg.SLV_HRBASE_BASE + 64 * (ch.get Reg.SLV_HCONS % ch.get Reg.SLV_HRSIZE_SIZE)) 64) = 0)
    (fun ch x =>
      x.slv.batches = ch.slv.batches ++
        [{ idx := ch.get Reg.SLV_HCONS, desc := ch.sBytes (64 * ch.get Reg.SLV_HRBASE_BASE + 64 * (ch.get Reg.SLV_HCONS % ch.get Reg.SLV_HRSIZE_SIZE)) 64,
           n := descCount (ch.sBytes (64 * ch.get Reg.SLV_HRBASE_BASE + 64 * (ch.get Reg.SLV_HCONS % ch.get Reg.SLV_HRSIZE_SIZE)) 64) }] ∧
      (∀ e, x.slv.batches.getLast? = some e → x.get Reg.SLV_HSUB = (ch.get Reg.SLV_HSUB + e.n) % 2 ^ 32 ∧
        ∀ p, p < e.n → x.sByte (leAt e.desc 48 4 + 8 * p) = 0xFF) ∧
      x.get Reg.SLV_HCONS = ch.get Reg.SLV_HCONS ∧ Only [.slv, .smem, .sent, .regs 0x13000 0x13080] ch x) ∧
  Acts (.descriptorTake c) c
    (fun ch => ch.bit Reg.SLV_CFG_HEN = false ∨ hostWork (ch.get Reg.CHN_STATE_CODE) = false ∨ ch.get Reg.SLV_HCONS = ch.get Reg.SLV_HPROD)
    (fun ch x => Only [.sent] ch x) ∧
  Acts (.problemRelease c) c
    (fun ch => ch.blockQuiet 3 = false ∧ ch.slv.batches.getLast? = some b ∧ b.idx = ch.get Reg.SLV_HCONS ∧ b.rel < b.n ∧
      (ch.queue 3).length ≤ 128 ∧ ch.slv.batches.all (fun e => e == b || e.idx != b.idx) = true)
    (fun ch x => let n := min (b.n - b.rel) (128 - (ch.queue 3).length)
      (x.queue 3).length = (ch.queue 3).length + n ∧ (x.queue 3).take (ch.queue 3).length = ch.queue 3 ∧
      ((x.queue 3).drop (ch.queue 3).length).map (·.joint) = (List.range n).map (b.rel + ·) ∧
      x.get Reg.SCH_REL = (ch.get Reg.SCH_REL + n) % 2 ^ 32 ∧ x.slv.batches.getLast? = some { b with rel := b.rel + n } ∧
      x.get Reg.SLV_HCONS = (if b.rel + n = b.n then (b.idx + 1) % 2 ^ 32 else ch.get Reg.SLV_HCONS) ∧
      Only [.slv, .sch, .sent, .regs 0x5000 0x6000, .regs 0x13000 0x13080] ch x) ∧
  Acts (.habort c) c (fun ch => ofInt 32 (ch.get Reg.SLV_HPROD - ch.get Reg.SLV_HCONS) ≤ 4096 ∧ ch.slvOpen = false ∧ ch.evtQueues)
    (fun ch x => x.get Reg.SLV_HCONS = ch.get Reg.SLV_HPROD ∧ x.queue 3 = [] ∧ x.slv.run = ch.slv.run ∧ Only hostParts ch x)

/-- R88, R203, R205, R208 to R210, R213: the idle solver takes a model task before any host problem; a host problem past its deadline is
reported NOT_RUN, reason 1. At the deadline of a running problem other than BLS it ends with DEADLINE, its result area as it was; one that
ends on its own leaves the solver idle, with one count in SLV_HCMPL or SLV_HFAIL. A model task that ends in time shows its results, the
matrix M symmetric, with SLV_MDLVAL; past its deadline it commits nothing, F1 0x0801. -/
def Obligations.SolverRuns : Prop := ∀ (c : Chan) (t : Task) (rest : List Task) (b : SBatch) (k : Fin 8) (inp : List Nat) (d : List Byte)
    (idx p since : Nat), since < 2 ^ 60 →
  Acts (.solverDispatch c) c (fun ch => ch.blockQuiet 3 = false ∧ ch.slv.run = none ∧ ch.queue 2 = t :: rest ∧ ch.evtQueues)
    (fun ch x => x.slv.run = some (.model t (Tab.get ch.slv.inp [] t.joint) ch.now) ∧ x.queue 2 = rest ∧ x.get Reg.SLV_STS_STATE = 1 ∧
      x.get Reg.SLV_STS_OP = 0x20 ∧ Only (.slv :: .regs 0x13000 0x13080 :: surgeParts) ch x) ∧
  Acts (.solverDispatch c) c
    (fun ch => ch.blockQuiet 3 = false ∧ ch.slv.run = none ∧ ch.queue 2 = [] ∧ ch.slv.rest = none ∧ ch.queue 3 = t :: rest ∧
      ch.slv.batches = [b] ∧ b.idx = t.entry ∧ dDeadline b.desc ≠ 0 ∧ dDeadline b.desc ≤ ch.now ∧ statusArea b.desc = true)
    (fun ch x => x.slv.run = none ∧ x.get Reg.SLV_HNRUN = (ch.get Reg.SLV_HNRUN + 1) % 2 ^ 32 ∧
      x.sByte (leAt b.desc 48 4 + 8 * t.joint) = 7 ∧ x.sByte (leAt b.desc 48 4 + 8 * t.joint + 1) = 1 ∧
      Only (hostParts ++ surgeParts) ch x) ∧
  Acts (.solverDeadline c) c
    (fun ch => ch.slv.run = some (.host idx p d inp since) ∧ dDeadline d ≠ 0 ∧ dDeadline d < 2 ^ 60 ∧ dOp d ≠ 9 ∧ statusArea d = true ∧ ch.paced)
    (fun ch x => ch.reached x (dDeadline d) ∧ x.slv.run = none ∧ x.get Reg.SLV_HFAIL = (ch.get Reg.SLV_HFAIL + 1) % 2 ^ 32 ∧
      x.sByte (leAt d 48 4 + 8 * p) = 5 ∧ x.get Reg.SLV_STS_STATE = 0 ∧
      Only (.clock :: hostParts ++ surgeParts) ch x) ∧
  Acts (.problemComplete c) c (fun ch => ch.slv.run = some (.host idx p d inp since))
    (fun ch x => x.slv.run = none ∧ x.get Reg.SLV_STS_STATE = 0 ∧ x.get Reg.SCH_CMPL = (ch.get Reg.SCH_CMPL + 1) % 2 ^ 32 ∧
      (x.get Reg.SLV_HCMPL + x.get Reg.SLV_HFAIL) % 2 ^ 32 = (ch.get Reg.SLV_HCMPL + ch.get Reg.SLV_HFAIL + 1) % 2 ^ 32 ∧
      x.get Reg.SLV_HNRUN = ch.get Reg.SLV_HNRUN ∧ Only (.clock :: .fresh :: hostParts ++ surgeParts) ch x) ∧
  Acts (.modelTaskComplete c) c
    (fun ch => t.joint = k.val ∧ ch.slv.run = some (.model t inp since) ∧ ch.paced ∧ ch.sByte (0x800 * k) ≤ 10 ∧ modelCost (ch.sByte (0x800 * k)) ≤ 8 * t.clim ∧
      since + 2 * (modelCost (ch.sByte (0x800 * k)) + 20) ≤ t.dl ∧ ch.now ≤ t.dl)
    (fun ch x => x.slv.run = none ∧ tbit (x.get Reg.SLV_MDLVAL_VAL) k = true ∧ x.get Reg.SLV_ICMPL = (ch.get Reg.SLV_ICMPL + 1) % 2 ^ 32 ∧
      x.get (Reg.SLV_MDLMCC k) = t.rel / 256000 % 2 ^ 32 ∧
      (∀ i, i < 10 → ∀ j, j < 10 → i < ch.sByte (0x800 * k) → j < ch.sByte (0x800 * k) →
        x.sLe (0x10000 + 0x1000 * k + 4 * (i * ch.sByte (0x800 * k) + j)) 4 = x.sLe (0x10000 + 0x1000 * k + 4 * (j * ch.sByte (0x800 * k) + i)) 4) ∧
      Only (.clock :: .fresh :: .regs 0x13080 0x13100 :: faultParts) ch x) ∧
  Acts (.modelTaskComplete c) c
    (fun ch => t.joint = k.val ∧ ch.slv.run = some (.model t inp since) ∧ ch.past t.dl = true ∧ ch.paced)
    (fun ch x => x.slv.run = none ∧ x.smem = ch.smem ∧ x.get Reg.SLV_ICMPL = ch.get Reg.SLV_ICMPL ∧
      x.get Reg.SLV_IFAIL = (ch.get Reg.SLV_IFAIL + 1) % 2 ^ 32 ∧ x.get Reg.SLV_MDLMISS = (ch.get Reg.SLV_MDLMISS + 1) % 2 ^ 32 ∧
      x.shows 0x0801 (some k.val) k ∧ Only (.clock :: .fresh :: faultParts) ch x) ∧
  Acts (.halfRateRestEnd c) c (fun ch => ch.slv.rest = some since ∧ ch.paced)
    (fun ch x => ch.reached x since ∧ x.slv = { ch.slv with rest := none } ∧ Only [.clock, .slv, .sent] ch x)

/-! ### Separation and zone tokens (R218 to R255) -/

/-- R233, R234, R236 to R240: an evaluation latches at 0 ns of a servo cycle and stages one result for each monitored arm; the commit at
48,000 ns shows it (the override factor, the margin, the stopping time) and counts in SSM_SEQ; a margin below 0 to a person is F2 0x0901
for the arm. An evaluation not committed by then is F3 0x0907. The Y path's findings are F3 0x0904, 0x0905, 0x0906. -/
def Obligations.SeparationPipeline : Prop := ∀ (c : Chan) (k : Fin 8) (r : Par) (flags : BitVec 4),
  Acts (.separationEvaluation c) c (fun ch => ch.sepOn = true ∧ ch.paced)
    (fun ch x => x.sep.staged.any (fun l => l.map (·.arm) == (List.range 8).filter ch.monitored) = true ∧ x.sep.lastK = some x.cycle ∧
      x.now % 64000 < 16000 ∧ ch.now ≤ x.now ∧ x.bit Reg.SSM_STS_RUN = true ∧
      (∀ k, k < 8 → x.get (Reg.SSM_AMARG k) = ch.get (Reg.SSM_AMARG k)) ∧ Only sepParts ch x) ∧
  Acts (.separationEvaluation c) c (fun ch => ch.sepOn = false) (fun ch x => Only [.sent] ch x) ∧
  Acts (.evaluationCommit c) c
    (fun ch => ch.sep.staged = some [r] ∧ r.arm = k.val ∧ r.m.isSome = true ∧ r.pviol = false ∧ r.aaviol = false ∧ r.zviol = false ∧
      ch.sep.lastK.any (fun n => decide (n < 2 ^ 40)) = true ∧ ch.paced)
    (fun ch x => ch.sep.lastK.any (fun n => decide (ch.reached x (n * 16000 + 48000))) = true ∧ x.sep.staged = none ∧
      x.get Reg.SSM_SEQ = (ch.get Reg.SSM_SEQ + 1) % 2 ^ 32 ∧
      x.get (Reg.PRF_OVRSSM_SSM k) = r.fact % 2 ^ 13 ∧ (∀ m, r.m = some m → x.geti (Reg.SSM_AMARG k) = if m < -2147483648 then -2147483648 else if 2147483647 < m then 2147483647 else m) ∧
      x.get (Reg.SSM_ATS k) = r.ts % 2 ^ 32 ∧ x.bit (Reg.SSM_ASTS_STOP k) = false ∧
      (∀ i, i < 8 → i ≠ k.val → x.get (Reg.SSM_AMARG i) = ch.get (Reg.SSM_AMARG i)) ∧ Only sepParts ch x) ∧
  Acts (.evaluationCommit c) c
    (fun ch => ch.sep.staged = some [r] ∧ r.arm = k.val ∧ r.pviol = true ∧ ch.sep.lastK.isSome = true ∧ ch.get Reg.CHN_STATE_CODE ≠ 9 ∧
      ch.get Reg.CHN_STATE_CODE ≠ 0xA)
    (fun ch x => x.bit (Reg.SSM_ASTS_PVIOL k) = true ∧ x.bit (Reg.SSM_ASTS_STOP k) = true ∧ x.shows 0x0901 (some k.val) k ∧ Only sepParts ch x) ∧
  Acts (.xPathOverrun c) c
    (fun ch => ch.sep.staged.isSome = true ∧ ch.sep.lastK.isSome = true ∧ ch.get Reg.CHN_STATE_CODE ≠ 9 ∧ ch.get Reg.CHN_STATE_CODE ≠ 0xA)
    (fun ch x => x.sep.staged = none ∧ x.bit Reg.SSM_STS_OVRUN = true ∧ x.get Reg.SSM_SEQ = ch.get Reg.SSM_SEQ ∧ x.shows 0x0907 none 0 ∧
      Only sepParts ch x) ∧
  Acts (.yPathCheck c flags) c
    (fun ch => ch.sepOn = true ∧ ch.get Reg.CHN_STATE_CODE ≠ 9 ∧ ch.get Reg.CHN_STATE_CODE ≠ 0xA)
    (fun ch x => x.get Reg.SSM_STS_YSUB = ch.get Reg.SSM_SEQ % 16 ∧
      (flags.getLsbD 0 = true ∨ flags.getLsbD 3 = true → x.bit Reg.SSM_STS_WITERR = true ∧ x.shows 0x0904 none 0) ∧
      (flags.getLsbD 1 = true → x.bit Reg.SSM_STS_YERR = true ∧ x.shows 0x0905 none 0) ∧
      (flags.getLsbD 2 = true → x.bit Reg.SSM_STS_FKERR = true ∧ x.shows 0x0906 none 0) ∧
      (flags = 0 → Only [.sent, .regs 0x14000 0x15000] ch x) ∧ Only sepParts ch x)

/-- R242 to R247: REQUEST of a token zone for a monitored arm that does not hold it marks the request and queues its record; KEEP and UNKEEP
set and clear the arm's mark; CANCEL withdraws a request before GRANT and does nothing after. An accepted transit queues its ACCEPT again, a
holder its LEDGER. A transit older than TMO is FROZEN, F1 0x090A; a holder silent for LOSTT is LOST and still named. The provisional ledger
becomes HELD, but LOST where another holder was heard.
R250: with every condition met ZTK_RECOV uses up the qualified reset and makes the arm the holder with the next move; RECOVER is sent three
times in successive basic cycles. Otherwise ZTK_RSTS.RC says why, and the ledger stays; which reason shows where several hold is the model's
choice (log entry 55). -/
def Obligations.ZoneTokens : Prop := ∀ (c : Chan) (k : Fin 8) (z : Fin 64) (v : Word) (body : List Byte) (t : Nat),
    t < 2 ^ 60 →
  Acts (.tokenRequest c k z) c
    (fun ch => ch.tokenZone z = true ∧ ch.tokenLive = true ∧ ch.monitored k = true ∧ ch.get (Reg.ZTK_ZSTS_HCCH z) ≠ ch.get Reg.ZTK_CFG_CCH)
    (fun ch x => x.bit (Reg.ZTK_ZSTS_REQPEND z) = true ∧ tbit (x.tok z).want k = true ∧
      x.sep.out.contains (leBytes 1 1 ++ leBytes 1 z ++ leBytes 1 (ch.get Reg.ZTK_CFG_CCH + 16 * k) ++ leBytes 1 0 ++
        leBytes 4 (ch.get (Reg.ZTK_ZMOVE z)) ++ leBytes 4 (ch.get Reg.CFG_CDIG) ++ leBytes 4 0) = true ∧
      Only [.sep, .sent, .each 0x15000 0x16000 16 (0x08), .regs 0x1F000 0x20000] ch x) ∧
  Acts (.tokenRequest c k z) c (fun ch => ch.tokenZone z = false ∨ ch.tokenLive = false ∨ ch.holds k z = true ∨ ch.monitored k = false)
    (fun ch x => Only [.sent, .regs 0x1F000 0x20000] ch x) ∧
  Acts (.keep c k z) c (fun _ => True)
    (fun ch x => tbit x.sep.keep k = true ∧ (∀ i, i < 8 → i ≠ k.val → tbit x.sep.keep i = tbit ch.sep.keep i) ∧
      Only [.sep, .sent, .regs 0x1F000 0x20000] ch x) ∧
  Acts (.unkeep c k z) c (fun _ => True)
    (fun ch x => tbit x.sep.keep k = false ∧ (∀ i, i < 8 → i ≠ k.val → tbit x.sep.keep i = tbit ch.sep.keep i) ∧ Only tokenParts ch x) ∧
  Acts (.cancel c k z) c
    (fun ch => ch.get (Reg.ZTK_ZSTS_STATE z) ≠ 2 ∧ ch.get (Reg.ZTK_ZSTS_STATE z) ≠ 3)
    (fun ch x => tbit (x.tok z).want k = false ∧ (∀ i, i < 8 → i ≠ k.val → tbit (x.tok z).want i = tbit (ch.tok z).want i) ∧
      Only [.sep, .sent, .each 0x15000 0x16000 16 8, .regs 0x1F000 0x20000] ch x) ∧
  Acts (.cancel c k z) c
    (fun ch => ch.get (Reg.ZTK_ZSTS_STATE z) = 2 ∧ ch.get (Reg.ZTK_ZSTS_TCCH z) = ch.get Reg.ZTK_CFG_CCH ∧ ch.get (Reg.ZTK_ZSTS_TARM z) = k.val)
    (fun ch x => Only [.sent, .regs 0x1F000 0x20000] ch x) ∧
  Acts (.tokenRetry c) c
    (fun ch => ch.tokenLive = true ∧ ch.tokenZone z = true ∧ ch.get (Reg.ZTK_ZSTS_STATE z) = 2 ∧ (ch.tok z).accepted = true)
    (fun ch x => x.sep.out.contains (leBytes 1 3 ++ leBytes 1 z ++ leBytes 1 (ch.get Reg.ZTK_CFG_CCH + 16 * ch.get (Reg.ZTK_ZSTS_TARM z)) ++
        leBytes 1 (ch.get (Reg.ZTK_ZSTS_HCCH z) + 16 * ch.get (Reg.ZTK_ZSTS_HARM z)) ++ leBytes 4 ((ch.get (Reg.ZTK_ZMOVE z) + 1) % 2 ^ 32) ++
        leBytes 4 (ch.get Reg.CFG_CDIG) ++ leBytes 4 0) = true ∧ Only tokenParts ch x) ∧
  Acts (.transitTimeout c z) c
    (fun ch => ch.get (Reg.ZTK_ZSTS_STATE z) = 2 ∧ ch.paced ∧ (ch.tok z).since < 2 ^ 60 ∧ ch.get Reg.CHN_STATE_CODE ≠ 9 ∧
      ch.get Reg.CHN_STATE_CODE ≠ 0xA)
    (fun ch x => x.get (Reg.ZTK_ZSTS_STATE z) = 3 ∧ x.shows 0x090A none z ∧
      (ch.tok z).since + ch.get Reg.ZTK_CFG_TMO * 256000 < x.now ∧
      Only (.clock :: .each 0x15000 0x16000 16 8 :: noteParts) ch x) ∧
  Acts (.transitTimeout c z) c (fun ch => ch.get (Reg.ZTK_ZSTS_STATE z) ≠ 2) (fun ch x => Only [.sent] ch x) ∧
  Acts (.holderLost c z) c
    (fun ch => ch.get (Reg.ZTK_ZSTS_STATE z) = 1 ∧ ch.get (Reg.ZTK_ZSTS_HCCH z) ≠ ch.get Reg.ZTK_CFG_CCH ∧ ch.paced ∧ (ch.tok z).heard < 2 ^ 60)
    (fun ch x => x.get (Reg.ZTK_ZSTS_STATE z) = 4 ∧ x.get (Reg.ZTK_ZSTS_HCCH z) = ch.get (Reg.ZTK_ZSTS_HCCH z) ∧
      ch.reached x ((ch.tok z).heard + ch.get Reg.ZTK_CFG_LOSTT * 256000) ∧ Only [.clock, .sent, .regs 0x15000 0x16000] ch x) ∧
  Acts (.holderLost c z) c (fun ch => ch.get (Reg.ZTK_ZSTS_STATE z) ≠ 1 ∨ ch.get (Reg.ZTK_ZSTS_HCCH z) = ch.get Reg.ZTK_CFG_CCH)
    (fun ch x => Only [.sent] ch x) ∧
  Acts (.ledgerSend c) c
    (fun ch => ch.tokenLive = true ∧ ch.tokenZone z = true ∧ ch.get (Reg.ZTK_ZSTS_STATE z) = 1 ∧ ch.get (Reg.ZTK_ZSTS_HCCH z) = ch.get Reg.ZTK_CFG_CCH)
    (fun ch x => x.sep.out.contains (leBytes 1 6 ++ leBytes 1 z ++ leBytes 1 (ch.get Reg.ZTK_CFG_CCH + 16 * ch.get (Reg.ZTK_ZSTS_HARM z)) ++
        leBytes 1 0 ++ leBytes 4 (ch.get (Reg.ZTK_ZMOVE z)) ++ leBytes 4 (ch.get Reg.CFG_CDIG) ++ leBytes 4 0) = true ∧
      Only [.clock, .sep, .sent] ch x) ∧
  Acts (.provisionalEnd c) c (fun ch => ch.sep.prov = some t ∧ ch.paced)
    (fun ch x => ch.reached x (t + 512000) ∧ x.sep.prov = none ∧
      (∀ i, i < 64 → x.get (Reg.ZTK_ZSTS_STATE i) = if ch.get (Reg.ZTK_ZSTS_STATE i) ≠ 5 then ch.get (Reg.ZTK_ZSTS_STATE i)
        else if ch.get (Reg.ZTK_ZSTS_HCCH i) = ch.get Reg.ZTK_CFG_CCH ∧ (ch.tok i).barred = true then 4 else 1) ∧
      Only [.clock, .sep, .sent, .regs 0x15000 0x16000] ch x) ∧
Acts (.tokenRecovery c v) c (fun ch => v.toNat % 64 = z.val ∧ ch.recoverCode z (v.toNat / 65536) = 1)
    (fun ch x => x.get Reg.ZTK_RSTS_RC = 1 ∧ x.get (Reg.ZTK_ZSTS_STATE z) = 1 ∧ x.get (Reg.ZTK_ZSTS_HCCH z) = ch.get Reg.ZTK_CFG_CCH ∧
      x.get (Reg.ZTK_ZSTS_HARM z) = v.toNat / 256 % 8 ∧ x.get (Reg.ZTK_ZMOVE z) = (ch.get (Reg.ZTK_ZMOVE z) + 1) % 2 ^ 32 ∧
      x.bit Reg.SAF_STS_RSTQ = false ∧ x.get Reg.ZTK_MOVES = (ch.get Reg.ZTK_MOVES + 1) % 2 ^ 32 ∧
      x.sep.recov.any (fun r => r.left == 2 && x.sep.out.contains r.body && leAt r.body 0 1 == 5 && leAt r.body 1 1 == z.val &&
        leAt r.body 4 4 == (ch.get (Reg.ZTK_ZMOVE z) + 1) % 2 ^ 32) = true ∧
      (∀ i, i < 64 → i ≠ z.val → x.get (Reg.ZTK_ZSTS i) = ch.get (Reg.ZTK_ZSTS i) ∧ x.get (Reg.ZTK_ZMOVE i) = ch.get (Reg.ZTK_ZMOVE i)) ∧
      Only (.saf :: .regs 0x16000 0x18000 :: tokenParts) ch x) ∧
  Acts (.tokenRecovery c v) c (fun ch => v.toNat % 64 = z.val ∧
      (ch.tokenZone z = false ∨ ch.get Reg.CHN_STATE_CODE ∉ [3, 4] ∨ ch.bit Reg.SAF_STS_RSTQ = false ∨ v.toNat / 65536 ≠ ch.get Reg.CHN_ID_BCODE ∨
        ch.zoneFull z = true))
    (fun ch x => x.get Reg.ZTK_RSTS_RC ∈ [2, 3, 4, 5, 6, 7, 8] ∧ Only [.sent, .regs 0x15000 0x15100, .regs 0x1F000 0x20000] ch x) ∧
  Acts (.recoverRepeat c) c (fun ch => ch.sep.recov = some ⟨body, 2⟩ ∧ ch.tokenLive = true ∧ ch.paced)
    (fun ch x => x.cycle = ch.cycle + 1 ∧ x.sep.out.contains body = true ∧ x.sep.recov = some ⟨body, 1⟩ ∧ Only [.clock, .sep, .sent] ch x) ∧
  Acts (.recoverRepeat c) c (fun ch => ch.sep.recov = some ⟨body, 1⟩ ∧ ch.tokenLive = true ∧ ch.paced)
    (fun ch x => x.cycle = ch.cycle + 1 ∧ x.sep.out.contains body = true ∧ x.sep.recov = none ∧ Only [.clock, .sep, .sent] ch x)


/-! ### The safety island (R256 to R285) -/

/-- R260, R261, R266: a filtered level shows in SAF_SIN; releasing the reset input after a press between T0 and T1 qualifies the reset for
RSTWIN seconds. A test pulse drives its output low and ends; an input under test that reads 1 in its last 10 µs has a test-pulse fault, F3
0x0A02. The end of the window takes the qualification back. -/
def Obligations.SafetyInputs : Prop := ∀ (c : Chan) (i : Fin 20) (lvl : Bool) (f : Fin 16) (t : Fin 4) (highs : BitVec 20) (w : Nat),
  Acts (.siLevelAccepted c i lvl) c (fun ch => ch.logicOn = false)
    (fun ch x => tbit (x.get Reg.SAF_SIN_SIN) i = lvl ∧ (∀ j, j < 20 → j ≠ i.val → tbit (x.get Reg.SAF_SIN_SIN) j = tbit (ch.get Reg.SAF_SIN_SIN) j) ∧
      Only [.sent, .regs 0x16008 0x16010] ch x) ∧
  Acts (.siLevelAccepted c i lvl) c (fun _ => True)
    (fun ch x => tbit (x.get Reg.SAF_SIN_SIN) i = lvl ∧ (∀ j, j < 20 → j ≠ i.val → tbit (x.get Reg.SAF_SIN_SIN) j = tbit (ch.get Reg.SAF_SIN_SIN) j) ∧
      Only (.saf :: .regs 0x16004 0x16010 :: .each 0x16200 0x16300 16 0xC :: noteParts) ch x) ∧
  Acts (.siLevelAccepted c i false) c
    (fun ch => ch.logicOn = true ∧ ch.get (Reg.SAF_FBCFG_TYPE f) = 5 ∧ ch.get (Reg.SAF_FBIN_IN0 f) = i.val ∧ ch.get Reg.SAF_CFG_RSTFB = f.val ∧
      (ch.fb f).last = true ∧ (ch.fb f).press = some w ∧ w + ch.get (Reg.SAF_FBTIM_T0 f) * 1000000 ≤ ch.mono ∧
      ch.mono ≤ w + ch.get (Reg.SAF_FBTIM_T1 f) * 1000000)
    (fun ch x => x.bit Reg.SAF_STS_RSTQ = true ∧ x.saf.window = some (ch.mono + ch.get Reg.SAF_CFG_RSTWIN * 1000000000) ∧
      tbit x.saf.qrel f = true) ∧
  Acts (.resetWindowExpiry c) c (fun ch => ch.saf.window = some w)
    (fun ch x => x.bit Reg.SAF_STS_RSTQ = false ∧ x.saf = { ch.saf with window := none } ∧ Only [.clock, .saf, .sent, .regs 0x16004 0x16005] ch x) ∧
  Acts (.testPulse c t) c (fun ch => ch.tpOn t = true ∧ tbit ch.saf.tpLow t = false ∧ ch.paced)
    (fun ch x => tbit x.saf.tpLow t = true ∧ (x.now - t * ch.get Reg.SAF_TPCFG_PER * 250000) % (ch.get Reg.SAF_TPCFG_PER * 1000000) ≤ 4 ∧
      x.saf = { ch.saf with tpLow := x.saf.tpLow } ∧ Only [.clock, .saf, .sent] ch x) ∧
  Acts (.testPulseEnd c t) c (fun ch => tbit ch.saf.tpLow t = true)
    (fun ch x => tbit x.saf.tpLow t = false ∧ x.saf = { ch.saf with tpLow := x.saf.tpLow } ∧ Only [.clock, .saf, .sent] ch x) ∧
  Acts (.testPulseSample c t highs) c
    (fun ch => ch.tpOn t = true ∧ tbit ch.saf.tpLow t = true ∧ ch.bit (Reg.SAF_SIFLT_EN i) = true ∧ ch.get (Reg.SAF_SIFLT_TP i) = t.val + 1 ∧
      tbit (ch.get Reg.SAF_SIN_SIN) i = true)
    (fun ch x => tbit x.saf.tpErr i = highs.getLsbD i ∧ (highs.getLsbD i = true → x.bit Reg.SAF_STS_TPERR = true ∧ x.shows 0x0A02 none i) ∧
      Only (.clock :: .saf :: .regs 0x16004 0x16005 :: .each 0x16200 0x16300 16 0xC :: faultParts) ch x)

/-- R256, R257, R269, R270, R274, R275: after a tick of the safety logic no group is energised that is not in use, or in a state without
torque, or neither permitted nor in its SS1 time, and no safe output pair without its permissive; paths that differ at two ticks in a row
are F3 0x0A03. A permissive that falls takes a group of stop category 0 off at once; the end of SS1T takes one of category 1 off. A
discrepancy of a block's inputs is F3 0x0A01, lines that do not read back as commanded F3 0x0A05. -/
def Obligations.SafetyLogic : Prop := ∀ (c : Chan) (d b : Bool) (g : Fin 4) (f : Fin 16) (hand : Fin 2) (w : Nat) (levels : BitVec 12),
  Acts (.safetyTick c d b) c (fun ch => ch.logicOn = false) (fun ch x => Only [.sent] ch x) ∧
  Acts (.safetyTick c d b) c (fun ch => ch.logicOn = true)
    (fun ch x => x.saf.differ = d ∧
      (∀ i, i < 4 → x.bit (Reg.SAF_STOSTS_ENG i) = true → x.bit (Reg.SAF_STOCFG_EN i) = true ∧ x.torqueState = true ∧
        (x.bit (Reg.SAF_STOSTS_PERM i) = true ∨ x.bit (Reg.SAF_STOSTS_SS1 i) = true)) ∧
      (∀ n, n < 8 → tbit (x.get Reg.SAF_SOSTS_ENG) n = true → tbit (x.get Reg.SAF_SOSTS_PERM) n = true ∧ ch.bit (Reg.SAF_SOCFG_EN n) = true) ∧
      Only safetyParts ch x) ∧
  Acts (.safetyTick c true b) c (fun ch => ch.logicOn = true ∧ ch.saf.differ = true)
    (fun ch x => x.bit Reg.SAF_STS_XYERR = true ∧ x.shows 0x0A03 none 0 ∧ Only safetyParts ch x) ∧
  Acts (.safetyTick c d b) c
    (fun ch => ch.logicOn = true ∧ ch.bit (Reg.SAF_STOSTS_PERM g) = true ∧ ch.bit (Reg.SAF_STOSTS_ENG g) = true ∧
      ch.bit (Reg.SAF_STOSTS_SS1 g) = false ∧ ch.bit (Reg.SAF_STOCFG_CAT g) = false ∧ ch.get (Reg.SAF_STOCFG_SIG g) = 0x1E ∧
      ch.groupArms g ≠ [] ∧ ∀ f, f < 16 → ch.get (Reg.SAF_FBCFG_TYPE f) = 0)
    (fun ch x => x.bit (Reg.SAF_STOSTS_ENG g) = false ∧ x.bit (Reg.SAF_STOSTS_PERM g) = false ∧
      x.get (Reg.SAF_STOSTS_DEM g) = (ch.get (Reg.SAF_STOSTS_DEM g) + 1) % 2 ^ 16 ∧
      (∃ a ∈ x.flt.active, a.code = 0x0A0B ∧ a.index = g.val) ∧
      (∀ j, j < 64 → ch.bound j = true → ch.groupOf j = g.val → x.bit (Reg.JNT_STS_TOFF j) = true) ∧ Only safetyParts ch x) ∧
  Acts (.ss1Timeout c g) c (fun ch => Tab.get ch.saf.ss1 none g = some w)
    (fun ch x => x.bit (Reg.SAF_STOSTS_SS1 g) = false ∧ x.bit (Reg.SAF_STOSTS_WAITCLR g) = true ∧ x.bit (Reg.SAF_STOSTS_ENG g) = false ∧
      Tab.get x.saf.ss1 none g = none ∧ Only (.clock :: .saf :: .regs 0x16400 0x16440 :: torqueParts ++ [.sent]) ch x) ∧
  Acts (.discrepancyTimeout c f) c (fun ch => (ch.fb f).since = some w ∧ ch.bit (Reg.SAF_FBSTS_DISC f) = false)
    (fun ch x => x.bit (Reg.SAF_FBSTS_DISC f) = true ∧ x.bit Reg.SAF_STS_DISCERR = true ∧ x.shows 0x0A01 none f ∧
      Only (.clock :: .regs 0x16004 0x16005 :: .each 0x16200 0x16300 16 0xC :: faultParts) ch x) ∧
  Acts (.contactDiscrepancy c f hand) c
    (fun ch => (if hand = 0 then (ch.fb f).ns0 else (ch.fb f).ns1) = some w ∧ ch.bit (Reg.SAF_FBSTS_DISC f) = false)
    (fun ch x => x.bit (Reg.SAF_FBSTS_DISC f) = true ∧ x.bit Reg.SAF_STS_DISCERR = true ∧ x.shows 0x0A01 none f ∧
      Only (.clock :: .regs 0x16004 0x16005 :: .each 0x16200 0x16300 16 0xC :: faultParts) ch x) ∧
  Acts (.outputReadback c levels) c
    (fun ch => ch.logicOn = true ∧ ((∃ g, g < 4 ∧ levels.getLsbD g ≠ ch.bit (Reg.SAF_STOSTS_ENG g)) ∨
      ∃ n, n < 8 ∧ levels.getLsbD (4 + n) ≠ tbit (ch.get Reg.SAF_SOSTS_ENG) n) ∧ ∀ a ∈ ch.flt.active, a.code ≠ 0x0A05)
    (fun ch x => x.bit Reg.SAF_STS_OSTERR = true ∧ (∃ a ∈ x.flt.active, a.code = 0x0A05 ∧ a.cls = 3) ∧
      Only (.regs 0x16004 0x16005 :: faultParts) ch x) ∧
  Acts (.outputReadback c levels) c
    (fun ch => (∀ g, g < 4 → levels.getLsbD g = ch.bit (Reg.SAF_STOSTS_ENG g)) ∧
      ∀ n, n < 8 → levels.getLsbD (4 + n) = tbit (ch.get Reg.SAF_SOSTS_ENG) n)
    (fun ch x => Only [.flt, .sent] ch x)

/-- R279 to R285: a datagram of the plant port brings its containers to the connections of their CIDs. One that passes every check is
accepted by a running connection: payload, SEQ, the count, the watchdog restarted; one with a wrong check value is refused and counted, F0
0x0A08. A malformed datagram does nothing. A watchdog that expires loses the connection: its payload, F1 0x0A09. -/
def Obligations.SafetyConnections : Prop := ∀ (c : Chan) (i : Fin 128) (bs : List Byte) (w : Nat),
  Acts (.plantDatagram c ([1, 1, 0, 0] ++ bs)) c
    (fun ch => ch.logicOn = true ∧ ch.blockDown 2 = false ∧ 18 ≤ bs.length ∧ bs.length = 22 + leAt bs 16 1 ∧ bs.length ≤ 70 ∧
      ch.bit (Reg.SCX_CFG_EN i) = true ∧ ch.bit (Reg.SCX_CFG_DIR i) = false ∧ ch.bit (Reg.SCX_CFG_PATH i) = true ∧
      ch.get (Reg.SCX_CID_CID i) = leAt bs 0 2 ∧ (∀ h, h < 128 → h ≠ i.val → ch.get (Reg.SCX_CID_CID h) ≠ leAt bs 0 2) ∧
      ch.get (Reg.SCX_STS_STATE i) = 1 ∧ ch.get (Reg.SCX_SEQ_LAST i) ≠ leAt bs 2 2 ∧ ch.scxCause i bs false = 0 ∧ ch.get (Reg.SCX_CFG_KIND i) ≠ 4)
    (fun ch x => (x.conn i).pay = (bs.drop 18).take (leAt bs 16 1) ∧ (x.conn i).wd = some ch.mono ∧ x.get (Reg.SCX_SEQ_LAST i) = leAt bs 2 2 ∧
      x.get (Reg.SCX_ACC i) = (ch.get (Reg.SCX_ACC i) + 1) % 2 ^ 32 ∧ x.get (Reg.SCX_STS_STATE i) = 1 ∧
      (∀ h, h < 128 → h ≠ i.val → x.conn h = ch.conn h) ∧ Only [.scx, .flt, .sent, .regs 0x18000 0x1A000] ch x) ∧
  Acts (.plantDatagram c ([1, 1, 0, 0] ++ bs)) c
    (fun ch => ch.logicOn = true ∧ ch.blockDown 2 = false ∧ 18 ≤ bs.length ∧ bs.length = 22 + leAt bs 16 1 ∧ bs.length ≤ 70 ∧
      ch.bit (Reg.SCX_CFG_EN i) = true ∧ ch.bit (Reg.SCX_CFG_DIR i) = false ∧ ch.bit (Reg.SCX_CFG_PATH i) = true ∧
      ch.get (Reg.SCX_CID_CID i) = leAt bs 0 2 ∧ (∀ h, h < 128 → h ≠ i.val → ch.get (Reg.SCX_CID_CID h) ≠ leAt bs 0 2) ∧
      leAt bs 16 1 = ch.get (Reg.SCX_CFG_LEN i) ∧ leAt bs 17 1 = 0 ∧
      leAt bs (18 + leAt bs 16 1) 4 ≠ containerCrc (ch.get (Reg.SCX_CID_CID i)) (ch.get64 (Reg.SCX_PID i)) (bs.take (18 + leAt bs 16 1)))
    (fun ch x => (x.conn i).pay = (ch.conn i).pay ∧ x.get (Reg.SCX_STS_LASTREF i) = 1 ∧ x.bit (Reg.SCX_STS_REF i) = true ∧
      x.get (Reg.SCX_REFC_CRC i) = min (ch.get (Reg.SCX_REFC_CRC i) + 1) 255 ∧ x.get (Reg.SCX_ACC i) = ch.get (Reg.SCX_ACC i) ∧
      Only (.scx :: .regs 0x18000 0x1A000 :: noteParts) ch x) ∧
  Acts (.plantDatagram c bs) c (fun _ => leAt bs 0 1 ≠ 1 ∨ leAt bs 1 1 = 0 ∨ 16 < leAt bs 1 1 ∨ leAt bs 2 2 ≠ 0) (fun ch x => Only [.sent] ch x) ∧
  Acts (.connectionWatchdogExpiry c i) c (fun ch => (ch.conn i).wd = some w ∧ ch.logicOn = false ∧ ch.get (Reg.SCX_CFG_KIND i) ≠ 4)
    (fun ch x => (x.conn i).wd = none ∧ (x.conn i).pay = [] ∧ x.get (Reg.SCX_STS_STATE i) = 3 ∧ x.bit (Reg.SCX_STS_EXP i) = true ∧
      x.get (Reg.SCX_EXP i) = (ch.get (Reg.SCX_EXP i) + 1) % 2 ^ 32 ∧ x.shows 0x0A09 none i ∧
      Only (.clock :: .scx :: .regs 0x18000 0x1A000 :: noteParts) ch x) ∧
  Acts (.connectionWatchdogExpiry c i) c (fun ch => (ch.conn i).wd = some w)
    (fun ch x => (x.conn i).wd = none ∧ (x.conn i).pay = [] ∧ x.get (Reg.SCX_STS_STATE i) = 3 ∧ x.shows 0x0A09 none i ∧ Only safetyParts ch x)

/-! ### The Cell Bus (R286 to R318) -/

/-- R298 to R301, R306, R312, R313: at the start of an own slot with a SYNC frame the channel sends a frame of the slot's index and row, with
its node, the next SEQ, the matrix cycle and its claim, or leaves it waiting while the output is busy; a slot that carries no record stays
empty, counted, F0 0x0B08. A frame that has waited is sent, or dropped and counted. The snapshot at 15,840 ns of the last row holds the
counts of every pair. A delay measurement asks both neighbours and notes the instant. -/
def Obligations.OwnSlots : Prop := ∀ (c : Chan) (i : Fin 256) (busy : Bool) (sl : Slot) (t : Nat) (w : List Byte), t < 2 ^ 60 → sl.sidx = i.val →
  Acts (.ownSlotStart c i false) c
    (fun ch => ch.nextSlot i = some (t, sl) ∧ sl.sync = true ∧ ch.transmits = true ∧ ch.paced)
    (fun ch x => ch.reached x t ∧ x.cb.seq = (ch.cb.seq + 1) % 2 ^ 16 ∧ x.get Reg.CBUS_TXF = (ch.get Reg.CBUS_TXF + 1) % 2 ^ 32 ∧
      (∃ f ∈ x.framed, leAt f 0 4 = 1 + 0x100 * ch.node + 0x10000 + 0x1000000 * ((ch.cb.nodes.length - 1) % 256) ∧
        leAt f 4 2 = ch.cb.seq % 2 ^ 16 ∧ leAt f 6 2 = x.mcc % 2 ^ 16 ∧ leAt f 8 2 = i + 256 * x.bIdx ∧ leAt f 10 1 = ch.claimSent) ∧
      Only slotParts ch x) ∧
  Acts (.ownSlotStart c i true) c
    (fun ch => ch.nextSlot i = some (t, sl) ∧ sl.sync = true ∧ ch.transmits = true ∧ ch.paced)
    (fun ch x => ch.reached x t ∧ x.cb.seq = ch.cb.seq ∧ x.get Reg.CBUS_TXF = ch.get Reg.CBUS_TXF ∧ x.cb.wait.isSome = true ∧
      Only slotParts ch x) ∧
  Acts (.ownSlotStart c i busy) c
    (fun ch => ch.nextSlot i = some (t, sl) ∧ sl.sync = false ∧ ch.transmits = true ∧ ch.quiet = false ∧ ((ch.advanceTo t).slotRecords sl).1 = [])
    (fun ch x => x.get Reg.CBUS_OWNEMPTY = (ch.get Reg.CBUS_OWNEMPTY + 1) % 2 ^ 32 ∧ noted 0x0B08 i ch x ∧ x.cb.seq = ch.cb.seq ∧
      Only slotParts ch x) ∧
  Acts (.ownSlotStart c i busy) c
    (fun ch => ch.nextSlot i = some (t, sl) ∧ ch.quiet = true ∧ sl.sync = false ∧ sl.status = false) (fun ch x => Only [.clock, .sent] ch x) ∧
  Acts (.ownFrameDeferredSend c true) c (fun ch => ch.cb.wait = some w)
    (fun ch x => x.cb.wait = none ∧ x.cb.seq = (ch.cb.seq + 1) % 2 ^ 16 ∧ x.sent = [Sent.frame (w.take 4 ++ leBytes 2 ch.cb.seq ++ w.drop 6)] ∧
      x.get Reg.CBUS_TXF = (ch.get Reg.CBUS_TXF + 1) % 2 ^ 32 ∧ Only [.cb, .sent, .regs 0x1A000 0x1C000] ch x) ∧
  Acts (.ownFrameDeferredSend c false) c (fun ch => ch.cb.wait = some w)
    (fun ch x => x.cb = { ch.cb with wait := none } ∧ x.get Reg.CBUS_OWNEMPTY = (ch.get Reg.CBUS_OWNEMPTY + 1) % 2 ^ 32 ∧
      noted 0x0B08 (leAt w 8 1) ch x ∧ Only busParts ch x) ∧
  Acts (.auditSnapshot c) c (fun ch => ch.cbState = 5 ∧ ch.paced ∧ ∀ p ∈ ch.cb.pairs, p.snap = none)
    (fun ch x => 255840 ≤ x.now % 256000 ∧ x.now % 256000 ≤ 255844 ∧ x.cb.pairs = ch.cb.pairs.map (fun p => { p with snap := some (x.mcc, p.now) }) ∧
      x.get Reg.CBUS_CRAUD = ch.get Reg.CBUS_CRAUD ∧ Only [.clock, .cb, .sent, .regs 0x1A000 0x1C000] ch x) ∧
  Acts (.delayMeasurementSend c) c (fun ch => ch.cbUp = true ∧ ch.cbState ≠ 0)
    (fun ch x => Tab.get x.cb.t1 none 0 = some x.ct ∧ Tab.get x.cb.t1 none 1 = some x.ct ∧ x.sent.length = 2 ∧
      (∀ p, p < 2 → ∃ f ∈ x.hopped p, leAt f 1 3 = ch.node + 0x400) ∧ Only [.clock, .cb, .sent] ch x)

/-- R303, R311: in a minislot of its own a channel with an announcement of a zone to send sends it in an arbitrating frame of that minislot;
with a busy output the frame waits; with nothing to send, or in another node's minislot, none is sent. One that has waited past 15,040 ns
is not sent. The TX buffer of the host relay waits as one record while none waits; a second one, or one of no bytes, is ignored. RXFULL
cleared brings the next record and gives the sender's credit back. -/
def Obligations.ArbitratingWindow : Prop := ∀ (c : Chan) (m : Fin 34) (busy : Bool) (b : List Byte) (v : Word) (r : Relay) (q : List Relay) (k : Nat),
  Acts (.minislotStart c m false) c
    (fun ch => ch.transmits = true ∧ ch.quiet = false ∧ ch.cb.minis[m.val]? = some ch.node ∧ ch.paced ∧ ch.sep.out = [b] ∧ leAt b 0 1 = 6 ∧
      ch.cb.relay = none ∧ ∀ p ∈ ch.cb.pairs, p.due = false)
    (fun ch x => 9600 + 160 * m ≤ x.now % 16000 ∧ x.now % 16000 ≤ 9604 + 160 * m ∧ x.sep.out = [] ∧ x.cb.seq = (ch.cb.seq + 1) % 2 ^ 16 ∧
      (∃ f ∈ x.framed, leAt f 0 4 = 1 + 0x100 * ch.node + 0x20000 + 0x1000000 * ((ch.cb.nodes.length - 1) % 256) ∧
        leAt f 4 2 = ch.cb.seq % 2 ^ 16 ∧ leAt f 8 2 = 0x8000 + m + 256 * x.bIdx ∧ leAt f 11 1 = 1 ∧ leAt f 16 2 = 0xFF06 ∧
        (f.drop 20).take b.length = b) ∧
      Only [.clock, .cb, .sep, .sent, .regs 0x1A000 0x1C000] ch x) ∧
  Acts (.minislotStart c m true) c
    (fun ch => ch.transmits = true ∧ ch.quiet = false ∧ ch.cb.minis[m.val]? = some ch.node ∧ ch.paced)
    (fun ch x => x.cb = { ch.cb with arbWait := some m.val } ∧ Only [.clock, .cb, .sent] ch x) ∧
  Acts (.minislotStart c m busy) c (fun ch => ch.cb.minis[m.val]? ≠ some ch.node ∨ ch.quiet = true) (fun ch x => Only [.clock, .sent] ch x) ∧
  Acts (.minislotStart c m false) c
    (fun ch => ch.sep.out = [] ∧ ch.cb.relay = none ∧ ∀ p ∈ ch.cb.pairs, p.due = false)
    (fun ch x => x.sent = [] ∧ x.cb.seq = ch.cb.seq ∧ x.get Reg.CBUS_TXF = ch.get Reg.CBUS_TXF ∧
      Only [.clock, .cb, .sent, .regs 0x1A000 0x1C000] ch x) ∧
  Acts (.arbitratingDeferredSend c) c (fun ch => ch.cb.arbWait = some k ∧ 15040 < ch.now % 16000)
    (fun ch x => x.cb = { ch.cb with arbWait := none } ∧ Only [.cb, .sent] ch x) ∧
  Acts (.arbitratingDeferredSend c) c
    (fun ch => ch.cb.arbWait = some k ∧ ch.now % 16000 ≤ 15040 ∧ ch.transmits = true ∧ ch.quiet = false ∧ ch.sep.out = [b] ∧ leAt b 0 1 = 6)
    (fun ch x => x.cb.arbWait = none ∧ x.sep.out = [] ∧ x.cb.seq = (ch.cb.seq + 1) % 2 ^ 16 ∧
      (∃ f ∈ x.framed, leAt f 2 1 = 2 ∧ leAt f 8 2 = (k + 256 * ch.bIdx + 0x8000) % 2 ^ 16 ∧ leAt f 16 2 = 0xFF06 ∧
        (f.drop 20).take b.length = b) ∧
      Only [.cb, .sep, .sent, .fresh, .regs 0x1A000 0x1C000] ch x) ∧
  Acts (.hostrelaySend c v) c
    (fun ch => v.toNat % 2 = 1 ∧ ch.bit Reg.CBUS_HRSTS_TXBUSY = false ∧ 0 < v.toNat / 2 ^ 16 % 256 ∧ v.toNat / 2 ^ 16 % 256 ≤ 224)
    (fun ch x => x.bit Reg.CBUS_HRSTS_TXBUSY = true ∧ x.cb = { ch.cb with relay := some ⟨v.toNat / 256 % 64, ch.get Reg.CBUS_HRTAG,
        ((List.range 56).flatMap fun i => leBytes 4 (ch.get (Reg.CBUS_HRTX i))).take (v.toNat / 2 ^ 16 % 256)⟩ } ∧
      Only [.cb, .sent, .regs 0x1A000 0x1C000, .regs 0x1F000 0x20000] ch x) ∧
  Acts (.hostrelaySend c v) c
    (fun ch => v.toNat % 2 = 0 ∨ ch.bit Reg.CBUS_HRSTS_TXBUSY = true ∨ v.toNat / 2 ^ 16 % 256 = 0 ∨ 224 < v.toNat / 2 ^ 16 % 256)
    (fun ch x => Only [.sent, .regs 0x1F000 0x20000] ch x) ∧
  Acts (.rxfullClear c) c (fun ch => ch.bit Reg.CBUS_HRSTS_RXFULL = true ∧ ch.cb.rxq = [])
    (fun ch x => x.bit Reg.CBUS_HRSTS_RXFULL = false ∧
      x.cb.pairs = ch.cb.pairs.map (fun p => if p.peer = ch.get Reg.CBUS_HRSTS_RXSRC ∧ p.recv = true
        then { p with now := { p.now with iss := (p.now.iss + 1) % 2 ^ 16 }, due := true } else p) ∧
      Only [.cb, .sent, .regs 0x1A000 0x1C000, .regs 0x1F000 0x20000] ch x) ∧
  Acts (.rxfullClear c) c (fun ch => ch.bit Reg.CBUS_HRSTS_RXFULL = true ∧ ch.cb.rxq = r :: q ∧ r.data.length ≤ 224)
    (fun ch x => x.bit Reg.CBUS_HRSTS_RXFULL = true ∧ x.cb.rxq = q ∧ x.get Reg.CBUS_HRSTS_RXSRC = r.node % 64 ∧ x.get Reg.CBUS_HRRTAG = r.tag % 2 ^ 32 ∧
      x.get Reg.CBUS_HRSTS_RXLEN = r.data.length ∧ (∀ i, i < 56 → x.get (Reg.CBUS_HRRX i) = leAt r.data (4 * i) 4) ∧
      Only [.cb, .sent, .regs 0x1A000 0x1C000, .regs 0x1F000 0x20000] ch x) ∧
  Acts (.rxfullClear c) c (fun ch => ch.bit Reg.CBUS_HRSTS_RXFULL = false) (fun ch x => Only [.sent, .regs 0x1F000 0x20000] ch x)

/-- R296, R297, R302, R307, R309, R312, R313, R314, R318: a frame that fails its check value, or names no node of the list, is counted in
CBUS_RXBAD; an own frame that returns is removed and counted. An exclusive frame of another row or matrix cycle is stale; one in its window
with a SEQ not seen is accepted, copied out of the other port with one hop less; one seen is cullet; one outside the window early or late. A STATUS record shows the sender's
digest, image and state. A startup frame heard while listening sets cell time. A delay request is answered on its port; the response gives
the link's delay. The window of a transmitting node's slot that closes without a frame counts it empty. -/
def Obligations.RingFrames : Prop := ∀ (c : Chan) (p : Fin 2) (sl : Slot) (sfd : Nat) (i : Fin 256) (r : Src) (t : Nat) (b bs : List Byte),
  Acts (.portBlockLock c p) c (fun ch => ch.cbState = 1 ∧ ch.cbUp = true ∧ ch.bit (if p = 0 then Reg.CBUS_STS_LINK1 else Reg.CBUS_STS_LINK0) = true)
    (fun ch x => x.bit (if p = 0 then Reg.CBUS_STS_LINK0 else Reg.CBUS_STS_LINK1) = true ∧ x.cbState = 2 ∧ x.cb.listen = some (ch.mono + 512000) ∧
      Only [.flt, .cb, .sent, .regs 0x1A000 0x1C000] ch x) ∧
  Acts (.portLockLoss c p) c (fun ch => ch.cbState = 5)
    (fun ch x => x.bit (if p = 0 then Reg.CBUS_STS_LINK0 else Reg.CBUS_STS_LINK1) = false ∧ x.shows 0x0B03 none p ∧
      Only (.regs 0x1A000 0x1C000 :: noteParts) ch x) ∧
  Acts (.portLockLoss c p) c (fun ch => ch.cbState ≠ 5)
    (fun ch x => x.bit (if p = 0 then Reg.CBUS_STS_LINK0 else Reg.CBUS_STS_LINK1) = false ∧ Only [.sent, .regs 0x1A000 0x1C000] ch x) ∧
  Acts (.exclusiveFrame c p false bs sfd) c (fun ch => ch.cbUp = true ∧ sfd ≤ ch.ct)
    (fun ch x => x.get Reg.CBUS_RXBAD = (ch.get Reg.CBUS_RXBAD + 1) % 2 ^ 32 ∧ Only [.fresh, .sent, .regs 0x1A000 0x1C000] ch x) ∧
  Acts (.arbitratingFrame c p true bs sfd) c (fun ch => ch.cbUp = true ∧ sfd ≤ ch.ct ∧ ch.cbNode (leAt bs 1 1) = none)
    (fun ch x => x.get Reg.CBUS_RXBAD = (ch.get Reg.CBUS_RXBAD + 1) % 2 ^ 32 ∧ Only [.fresh, .sent, .regs 0x1A000 0x1C000] ch x) ∧
  Acts (.exclusiveFrame c p true bs sfd) c
    (fun ch => ch.cbUp = true ∧ sfd ≤ ch.ct ∧ 16 ≤ bs.length ∧ (ch.frameRecords bs).isSome = true ∧ leAt bs 1 1 = ch.node ∧
      (ch.cb.seq + 2 ^ 16 - 1 - leAt bs 4 2) % 2 ^ 16 < min 256 ch.cb.sentN)
    (fun ch x => x.cb = { ch.cb with ret0 := ch.cb.ret0 + (if p = 0 then 1 else 0), ret1 := ch.cb.ret1 + (if p = 0 then 0 else 1) } ∧ x.hopped 0 = [] ∧
      x.hopped 1 = [] ∧ Only [.cb, .sent] ch x) ∧
  Acts (.exclusiveFrame c p true bs sfd) c
    (fun ch => ch.cbUp = true ∧ sfd ≤ ch.ct ∧ 16 ≤ bs.length ∧ (ch.frameRecords bs).isSome = true ∧ leAt bs 1 1 ≠ ch.node ∧ leAt bs 2 1 = 1 ∧
      ch.cbState = 5 ∧ leAt bs 6 2 ≠ sfd / 2 ^ 16 / 256000 % 2 ^ 16)
    (fun ch x => x.get Reg.CBUS_STALE = (ch.get Reg.CBUS_STALE + 1) % 2 ^ 32 ∧ Only [.fresh, .sent, .regs 0x1A000 0x1C000] ch x) ∧
  Acts (.exclusiveFrame c p true bs sfd) c
    (fun ch => ch.cbUp = true ∧ sfd ≤ ch.ct ∧ 16 ≤ bs.length ∧ ch.frameRecords bs = some [] ∧ leAt bs 1 1 = sl.node ∧ sl.node ≠ ch.node ∧
      leAt bs 2 1 = 1 ∧ ch.cbState = 5 ∧ leAt bs 6 2 = sfd / 2 ^ 16 / 256000 % 2 ^ 16 ∧ leAt bs 8 2 = sl.sidx % 256 + 256 * sl.row ∧
      sl.row = sfd / 2 ^ 16 / 16000 % 16 ∧ ch.cb.slots = [sl] ∧ sl.sidx < 256 ∧ Tab.get ch.cb.src none sl.node = some r ∧
      ((sfd : Int) - ch.expected (sfd / 2 ^ 16 / 16000) sl p (leAt bs 12 4)).natAbs ≤ 128 * 2 ^ 16 ∧ ch.cycle ≤ r.last + 16 ∧
      leAt bs 4 2 = (r.h + 1) % 2 ^ 16 ∧ ch.blockDown 1 = false ∧ 0 < leAt bs 3 1)
    (fun ch x => x.get Reg.CBUS_RXOK = (ch.get Reg.CBUS_RXOK + 1) % 2 ^ 32 ∧ x.cb.got.contains (ch.cycle * 256 + sl.sidx, sl.node) = true ∧
      (Tab.get x.cb.src none sl.node).any (fun q => q.h == leAt bs 4 2 && q.last == ch.cycle && tbit q.seen 0) = true ∧
      (∃ f ∈ x.hopped (if p = 0 then 1 else 0), f = bs.take 3 ++ leBytes 1 (leAt bs 3 1 - 1) ++ (bs.drop 4).take 8 ++ (f.drop 12).take 4 ++ bs.drop 16) ∧
      Only [.fresh, .cb, .red, .sent, .regs 0x1A000 0x1E000] ch x) ∧
  Acts (.exclusiveFrame c p true bs sfd) c
    (fun ch => ch.cbUp = true ∧ sfd ≤ ch.ct ∧ 16 ≤ bs.length ∧ (ch.frameRecords bs).isSome = true ∧ leAt bs 1 1 = sl.node ∧ sl.node ≠ ch.node ∧
      sl.node < 48 ∧ leAt bs 2 1 = 1 ∧ ch.cbState = 5 ∧ leAt bs 6 2 = sfd / 2 ^ 16 / 256000 % 2 ^ 16 ∧ leAt bs 8 2 = sl.sidx % 256 + 256 * sl.row ∧
      sl.row = sfd / 2 ^ 16 / 16000 % 16 ∧ ch.cb.slots = [sl] ∧ sl.sidx < 256 ∧
      128 * 2 ^ 16 < ((sfd : Int) - ch.expected (sfd / 2 ^ 16 / 16000) sl p (leAt bs 12 4)).natAbs)
    (fun ch x => (if (sfd : Int) < ch.expected (sfd / 2 ^ 16 / 16000) sl p (leAt bs 12 4)
        then x.get (Reg.CBUS_NSTAT_EARLY sl.node) = min (ch.get (Reg.CBUS_NSTAT_EARLY sl.node) + 1) 255
        else x.get (Reg.CBUS_NSTAT_LATE sl.node) = min (ch.get (Reg.CBUS_NSTAT_LATE sl.node) + 1) 255) ∧
      x.get Reg.CBUS_RXOK = ch.get Reg.CBUS_RXOK ∧ Only [.fresh, .sent, .regs 0x1A000 0x1C000] ch x) ∧
  Acts (.arbitratingFrame c p true bs sfd) c
    (fun ch => ch.cbUp = true ∧ sfd ≤ ch.ct ∧ 16 ≤ bs.length ∧ (ch.frameRecords bs).isSome = true ∧ leAt bs 1 1 ≠ ch.node ∧ leAt bs 2 1 = 2 ∧
      ch.cbState = 5 ∧ leAt bs 6 2 = sfd / 2 ^ 16 / 256000 % 2 ^ 16 ∧ Tab.get ch.cb.src none (leAt bs 1 1) = some r ∧ ch.cycle ≤ r.last + 16 ∧
      (r.h + 2 ^ 16 - leAt bs 4 2) % 2 ^ 16 < 256 ∧ tbit r.seen ((r.h + 2 ^ 16 - leAt bs 4 2) % 2 ^ 16) = true)
    (fun ch x => x.get Reg.CBUS_CULLET = (ch.get Reg.CBUS_CULLET + 1) % 2 ^ 32 ∧ Only [.fresh, .sent, .regs 0x1A000 0x1C000] ch x) ∧
  Acts (.arbitratingFrame c p true bs sfd) c
    (fun ch => ch.cbUp = true ∧ sfd ≤ ch.ct ∧ 16 ≤ bs.length ∧ ch.frameRecords bs = some [(8, 0xFF, b)] ∧ leAt bs 1 1 ≠ ch.node ∧ leAt bs 1 1 < 48 ∧
      leAt bs 2 1 = 2 ∧ ch.cbState = 5 ∧ leAt bs 6 2 = sfd / 2 ^ 16 / 256000 % 2 ^ 16 ∧ ch.dupCheck (leAt bs 1 1) (leAt bs 4 2) = 0 ∧ 32 ≤ b.length)
    (fun ch x => x.get Reg.CBUS_RXOK = (ch.get Reg.CBUS_RXOK + 1) % 2 ^ 32 ∧ x.get (Reg.CBUS_NODEDIG (leAt bs 1 1)) = leAt b 0 4 ∧
      x.get (Reg.CBUS_NODESEQ (leAt bs 1 1)) = leAt b 4 4 ∧ x.get (Reg.CBUS_NODEINF_EPOCH (leAt bs 1 1)) = leAt b 8 2 ∧
      x.get (Reg.CBUS_NODEINF_NSTATE (leAt bs 1 1)) = leAt b 10 1 % 2 ^ 4 ∧ x.bit (Reg.CBUS_NODEINF_VALID (leAt bs 1 1)) = true ∧
      Only (.red :: .regs 0x1D000 0x1E000 :: ringParts) ch x) ∧
  Acts (.startupFrame c p true bs sfd) c
    (fun ch => ch.cbUp = true ∧ sfd ≤ ch.ct ∧ ch.ct < 2 ^ 79 ∧ 16 ≤ bs.length ∧ ch.frameRecords bs = some [(0x0C, 0xFF, b)] ∧ b.length = 12 ∧ leAt bs 1 1 ≠ ch.node ∧
      leAt bs 2 1 = 3 ∧ (ch.cbState = 2 ∨ ch.cbState = 3) ∧ ch.dupCheck (64 + leAt bs 1 1) (leAt bs 4 2) = 0 ∧ ch.cb.rivalAt = none ∧
      ch.cb.startSent = none ∧ leAt b 0 8 < 2 ^ 60)
    (fun ch x => x.cbState = 4 ∧ x.cb.acquired = true ∧
      x.ct = ch.ct - sfd + leAt b 0 8 * 2 ^ 16 + leAt b 8 2 + (leAt bs 12 4 + ch.get (if p = 0 then Reg.CBUS_PDLY0 else Reg.CBUS_PDLY1)) * 256 ∧
      (∀ n, n < 8 → ch.bit (Reg.TIM_EVSTS_ARMED n) = true → ch.get (Reg.TIM_EVCFG_DOM n) = 0 → x.bit (Reg.TIM_EVSTS_ARMED n) = false ∧
        x.bit (Reg.TIM_EVSTS_CANC n) = true) ∧
      Only [.clock, .fresh, .cb, .sent, .regs 0x1A000 0x1C000, .regs 0x1C400 0x1C800] ch x) ∧
  Acts (.delayRequest c p true bs sfd) c
    (fun ch => ch.cbUp = true ∧ sfd ≤ ch.ct ∧ 16 ≤ bs.length ∧ (ch.frameRecords bs).isSome = true ∧ leAt bs 1 1 ≠ ch.node ∧ leAt bs 2 1 = 4)
    (fun ch x => (∃ f ∈ x.hopped p, leAt f 1 3 = ch.node + 0x500 ∧ leAt f 11 1 = 1 ∧ leAt f 16 2 = 0x0D + 256 * leAt bs 1 1 ∧
        leAt f 20 8 * 2 ^ 16 + leAt f 28 2 = sfd % 2 ^ 80) ∧ Only [.fresh, .sent] ch x) ∧
  Acts (.delayResponse c p true bs sfd) c
    (fun ch => ch.cbUp = true ∧ sfd ≤ ch.ct ∧ 16 ≤ bs.length ∧ ch.frameRecords bs = some [(0x0D, ch.node, b)] ∧ b.length = 24 ∧
      leAt bs 1 1 ≠ ch.node ∧ leAt bs 2 1 = 5 ∧ Tab.get ch.cb.t1 none p = some t ∧
      0 ≤ ((sfd : Int) - t) - (((leAt b 12 8 * 2 ^ 16 + leAt b 20 2 : Nat) : Int) - (leAt b 0 8 * 2 ^ 16 + leAt b 8 2 : Nat)) ∧
      ((sfd : Int) - t) - (((leAt b 12 8 * 2 ^ 16 + leAt b 20 2 : Nat) : Int) - (leAt b 0 8 * 2 ^ 16 + leAt b 8 2 : Nat)) < 2 ^ 24)
    (fun ch x =>
      ((x.get (if p = 0 then Reg.CBUS_PDLY0 else Reg.CBUS_PDLY1) : Int) * 512 -
        (((sfd : Int) - t) - (((leAt b 12 8 * 2 ^ 16 + leAt b 20 2 : Nat) : Int) - (leAt b 0 8 * 2 ^ 16 + leAt b 8 2 : Nat)))).natAbs < 512 ∧
      Tab.get x.cb.t1 none p = none ∧ Only busParts ch x) ∧
  Acts (.acceptanceWindowClose c i) c
    (fun ch => ch.cbState = 5 ∧ ch.cb.slots = [sl] ∧ sl.sidx = i.val ∧ sl.row = ch.bIdx ∧ sl.node ≠ ch.node ∧ sl.node < 48 ∧ ch.cb.got = [] ∧
      ch.nodePresent sl.node = true ∧ tbit (ch.get (Reg.CBUS_NODEINF_SFLG sl.node)) 0 = false ∧ ∀ j, j < 64 → ch.get (Reg.JNT_BIND_NODE j) ≠ sl.node)
    (fun ch x => x.get (Reg.CBUS_NSTAT_EMPTY sl.node) = min (ch.get (Reg.CBUS_NSTAT_EMPTY sl.node) + 1) 255 ∧
      Tab.get x.cb.ecnt 0 ((sl.node * 16 + sl.row) * 256 + i) = Tab.get ch.cb.ecnt 0 ((sl.node * 16 + sl.row) * 256 + i) + 1 ∧
      Only [.cb, .sent, .regs 0x1A000 0x1C000] ch x) ∧
  Acts (.acceptanceWindowClose c i) c
    (fun ch => ch.cb.slots = [sl] ∧ sl.sidx = i.val ∧ ch.cb.got = [(ch.cycle * 256 + i, sl.node)]) (fun ch x => Only [.sent] ch x)

/-- R298, R307, R310, R314, R315, R316: a cold-start node whose listening ends sends its startup frame r times 2 µs later, and without a rival
leads: integrated, its own reference, SEQ from 0; an abandoned start is tried again. An integrated node steps its cell time back by its
offset, at most 8 ns, in each row; an offset past 64 ns, and REINT, mute it. The end of a matrix cycle shows the returns and RINGOPEN. The
reference silent, the node of lowest rank takes its place; none heard for 16 cycles, the node listens again, F2 0x0B05. CLRCNT clears
the counts. -/
def Obligations.RingStart : Prop := ∀ (c : Chan) (t : Nat) (o : Int) (n : CbNode), t < 2 ^ 60 →
  Acts (.listenEnd c) c (fun ch => ch.cb.listen = some t ∧ ch.cbState = 2 ∧ 0 < ch.rankOf ch.node)
    (fun ch x => x.cbState = 3 ∧ x.cb = { ch.cb with listen := none, startDue := some (t + 2000 * ch.rankOf ch.node) } ∧
      Only [.clock, .cb, .sent, .regs 0x1A000 0x1C000] ch x) ∧
  Acts (.listenEnd c) c (fun ch => ch.cb.listen = some t ∧ ch.cbState = 2 ∧ ch.rankOf ch.node = 0)
    (fun ch x => x.cbState = 2 ∧ x.cb = { ch.cb with listen := none } ∧ Only [.clock, .cb, .sent] ch x) ∧
  Acts (.startupSend c) c (fun ch => ch.cb.startDue = some t ∧ ch.cbState = 3 ∧ ch.node < 64 ∧ ch.rankOf ch.node < 256)
    (fun ch x => x.cb.startDue = none ∧ x.cb.startSent = some x.mono ∧
      (∃ f ∈ x.framed, leAt f 0 3 = 1 + 256 * ch.node + 0x30000 ∧ leAt f 11 1 = 1 ∧ leAt f 16 4 = 0x0C + 0xFF00 + 0xC0000 ∧
        leAt f 20 8 * 2 ^ 16 + leAt f 28 2 = x.ct % 2 ^ 80 ∧ leAt f 30 1 = ch.rankOf ch.node) ∧
      Only [.clock, .cb, .sent, .regs 0x1A000 0x1C000] ch x) ∧
  Acts (.startupRivalWait c) c (fun ch => ch.cb.startSent = some t ∧ ch.cbState = 3)
    (fun ch x => x.cbState = 5 ∧ x.bit Reg.CBUS_STS_LEADER = true ∧ x.bit Reg.CBUS_STS_REF = true ∧ x.get Reg.CBUS_STS_REFN = ch.node % 64 ∧
      x.get Reg.CBUS_INTCNT = (ch.get Reg.CBUS_INTCNT + 1) % 2 ^ 32 ∧ x.cb.seq = 0 ∧ x.cb.leadFrom = x.matrix + 1 ∧ x.transmits = false ∧
      Only ringParts ch x) ∧
  Acts (.coldStartRetry c) c (fun ch => ch.cb.retry = some t ∧ ch.cbState = 3)
    (fun ch x => x.cb = { ch.cb with retry := none, startDue := some x.mono } ∧ Only [.clock, .cb, .sent] ch x) ∧
  Acts (.offsetStep c) c
    (fun ch => ch.cbState = 5 ∧ ch.bit Reg.CBUS_STS_REF = false ∧ ch.paced ∧ ch.bIdx ≠ 15 ∧ ch.now % 16000 ≤ 15520 ∧ ch.cb.offs = [o] ∧ o.natAbs ≤ 64 * 2 ^ 16)
    (fun ch x => x.cbState = 5 ∧ x.cb.offs = [] ∧ x.cb.steps = ch.cb.steps - (if o < -(8 * 2 ^ 16) then -(8 * 2 ^ 16) else if 8 * 2 ^ 16 < o then 8 * 2 ^ 16 else o) ∧
      x.ct = ofInt 80 ((ch.advanceInCycle 15520).ct - (if o < -(8 * 2 ^ 16) then -(8 * 2 ^ 16) else if 8 * 2 ^ 16 < o then 8 * 2 ^ 16 else o)) ∧
      (x.geti Reg.CBUS_OFS * 256 - o).natAbs < 256 ∧ x.get Reg.CBUS_INC_INC = ch.get Reg.CBUS_INC_INC ∧
      Only (.tev :: .regs 0x1C400 0x1C800 :: busParts) ch x) ∧
  Acts (.offsetStep c) c
    (fun ch => ch.cbState = 5 ∧ ch.bit Reg.CBUS_STS_REF = false ∧ ch.paced ∧ ch.cb.offs = [o] ∧ 64 * 2 ^ 16 < o.natAbs ∧ ch.cb.refChg = none)
    (fun ch x => x.cbState = 6 ∧ x.bit Reg.CBUS_STS_MUTEEV = true ∧ x.transmits = false ∧ x.cb.acquired = false ∧
      (ch.anyTorque = true → x.shows 0x0B04 none 0) ∧ Only ringParts ch x) ∧
  Acts (.offsetStep c) c (fun ch => ch.bit Reg.CBUS_STS_REF = true) (fun ch x => Only [.sent] ch x) ∧
  Acts (.reint c) c (fun ch => 4 ≤ ch.cbState)
    (fun ch x => x.cbState = 6 ∧ x.bit Reg.CBUS_STS_MUTEEV = true ∧ x.transmits = false ∧ x.cb.acquired = false ∧
      (ch.anyTorque = true → x.shows 0x0B04 none 0) ∧ Only ringParts ch x) ∧
  Acts (.reint c) c (fun ch => ch.cbState < 4) (fun ch x => Only [.sent, .regs 0x1F000 0x20000] ch x) ∧
  Acts (.clrcnt c) c (fun _ => True)
    (fun ch x => (∀ i, i < 48 → x.get (Reg.CBUS_NSTAT i) = 0) ∧ x.cb = { ch.cb with ecnt := [] } ∧
      Only [.cb, .sent, .regs 0x1A800 0x1A8C0, .regs 0x1F000 0x20000] ch x) ∧
  Acts (.ringOpenCheck c) c (fun ch => ch.cbState = 5 ∧ ch.transmits = true ∧ ch.paced)
    (fun ch x => ch.reached x ((ch.matrix + 1) * 256000) ∧ x.get Reg.CBUS_RET_RET0 = ch.cb.ret0 % 2 ^ 16 ∧ x.get Reg.CBUS_RET_RET1 = ch.cb.ret1 % 2 ^ 16 ∧
      x.cb.ret0 = 0 ∧ x.cb.ret1 = 0 ∧ x.bit Reg.CBUS_STS_RINGOPEN = decide (ch.cb.ret0 = 0 ∨ ch.cb.ret1 = 0) ∧
      (∀ e ∈ ch.cb.nodes, e.id ≠ ch.node → x.nodePresent e.id = false → x.bit (Reg.CBUS_NODEINF_VALID e.id) = false) ∧ Only busParts ch x) ∧
  Acts (.referenceSilent c) c
    (fun ch => ch.cb.refAt = some t ∧ 4 ≤ ch.cbState ∧ ch.bit Reg.CBUS_STS_REF = false ∧ ch.paced ∧
      lowestRank (ch.advanceTo ((t + 3) * 16000)).referees = some n ∧ n.id < 64)
    (fun ch x => ch.reached x ((t + 3) * 16000) ∧ x.get Reg.CBUS_STS_REFN = n.id ∧ x.bit Reg.CBUS_STS_REF = decide (n.id = ch.node) ∧
      n.rank ≠ 0 ∧ n.id ≠ ch.get Reg.CBUS_STS_REFN ∧ x.cb.refChg = some x.cycle ∧
      Only [.clock, .cb, .sent, .regs 0x1A000 0x1C000] ch x) ∧
  Acts (.noReference c) c
    (fun ch => ch.cb.coldAt = some t ∧ 4 ≤ ch.cbState ∧ ch.bit Reg.CBUS_STS_REF = false ∧ ch.paced)
    (fun ch x => ch.reached x ((t + 17) * 16000) ∧ x.cbState = 2 ∧ x.cb.listen = some (x.mono + 512000) ∧ x.transmits = false ∧
      x.shows 0x0B05 none 0 ∧ Only ringParts ch x)

/-! ### Time (R319 to R334) -/

/-- R321 to R324, R326: the protocol instance of a plant domain keeps the stamps of the last Sync and of its Follow_Up, takes the better of
two grandmasters, noting the change; a Delay_Req is stamped; at the Delay_Resp the offset and the mean path delay are reported, within a
nanosecond's division, and with SERVO = 0 neither register is written. No Sync: LISTENING, unlocked, F1 0x0C01. An increment within 500
ppm of 4 ns is taken, another discarded with INCREJ; a step adds its ns at the next tick. SEL selects and nothing else; SNAP latches the
four domains at one tick. -/
def Obligations.PlantTime : Prop := ∀ (c : Chan) (n : Fin 2) (m : SyncMsg) (fu : FollowUpMsg) (an : AnnounceMsg) (r : DelayRespMsg) (v : Word) (t1 t3 : Nat),
  Acts (.sync c n m) c (fun ch => ch.ptpOn n = true)
    (fun ch x => x.ptpU n =
        { ch.ptpU n with
          haveSync := true, syncRx := m.rx, syncSeq := m.seq.toNat, syncCorr := m.corr,
          syncOrg := if m.twoStep then none else some m.origin } ∧ (∀ k, k < 2 → k ≠ n.val → x.ptpU k = ch.ptpU k) ∧ Only [.ptp, .sent] ch x) ∧
  Acts (.followUp c n fu) c
    (fun ch => ch.ptpOn n = true ∧ (ch.ptpU n).haveSync = true ∧ (ch.ptpU n).syncSeq = fu.seq.toNat ∧ (ch.ptpU n).syncOrg = none)
    (fun ch x => x.ptpU n = { ch.ptpU n with syncOrg := some fu.origin, syncCorr := (ch.ptpU n).syncCorr + fu.corr } ∧
      (∀ k, k < 2 → k ≠ n.val → x.ptpU k = ch.ptpU k) ∧ Only [.ptp, .sent] ch x) ∧
  Acts (.followUp c n fu) c
    (fun ch => ch.ptpOn n = false ∨ (ch.ptpU n).haveSync = false ∨ (ch.ptpU n).syncSeq ≠ fu.seq.toNat ∨ (ch.ptpU n).syncOrg.isSome = true)
    (fun ch x => Only [.sent] ch x) ∧
  Acts (.announce c n an) c (fun ch => ch.ptpOn n = true ∧ (ch.ptpU n).gmSet = false)
    (fun ch x => x.get64 (Reg.TIM_PGM n) = an.gm.toNat ∧ x.get (Reg.TIM_PSTS_STATE n) = 2 ∧ (x.ptpU n).rank = an.rank ∧ (x.ptpU n).gmSet = true ∧
      Only [.ptp, .sent, .regs 0x1C000 0x1C400] ch x) ∧
  Acts (.announce c n an) c
    (fun ch => ch.ptpOn n = true ∧ (ch.ptpU n).gmSet = true ∧ ch.get64 (Reg.TIM_PGM n) ≠ an.gm.toNat ∧ an.rank < (ch.ptpU n).rank)
    (fun ch x => x.get64 (Reg.TIM_PGM n) = an.gm.toNat ∧ x.bit (Reg.TIM_PSTS_GMCHG n) = true ∧ (x.ptpU n).rank = an.rank ∧
      noted 0x0C02 (n + 1) ch x ∧ Only (.ptp :: .regs 0x1C000 0x1C400 :: noteParts) ch x) ∧
  Acts (.announce c n an) c
    (fun ch => ch.ptpOn n = true ∧ (ch.ptpU n).gmSet = true ∧ ch.get64 (Reg.TIM_PGM n) ≠ an.gm.toNat ∧ (ch.ptpU n).rank ≤ an.rank)
    (fun ch x => Only [.sent] ch x) ∧
  Acts (.delayReq c n) c (fun ch => ch.ptpOn n = true)
    (fun ch x => (x.ptpU n).reqSeq = ((ch.ptpU n).reqSeq + 1) % 65536 ∧ (x.ptpU n).reqTx = some (ch.dom (n + 1)) ∧
      x.sent = [Sent.delayReq n (x.ptpU n).reqSeq] ∧ Only [.ptp, .sent] ch x) ∧
  Acts (.delayResp c n r) c
    (fun ch => ch.ptpOn n = true ∧ (ch.ptpU n).haveSync = true ∧ (ch.ptpU n).reqTx = some t3 ∧ (ch.ptpU n).syncOrg = some t1 ∧
      r.seq.toNat = (ch.ptpU n).reqSeq ∧ ch.bit (Reg.TIM_PCFG_SERVO n) = false ∧ (ch.ptpU n).syncRx < 2 ^ 20 ∧ t1 < 2 ^ 20 ∧ t3 < 2 ^ 20 ∧ r.t4 < 2 ^ 20 ∧
      r.corr.natAbs < 2 ^ 20 ∧ (ch.ptpU n).syncCorr.natAbs < 2 ^ 20)
    (fun ch x =>
      let t2 := 256 * ((ch.ptpU n).syncRx : Int) - ch.geti (Reg.TIM_ASYM_ING 0)
      let t3 := 256 * (t3 : Int) + ch.geti (Reg.TIM_ASYM_EGR 0)
      (512 * x.geti (Reg.TIM_PMPD n) - ((t2 - 256 * (t1 + (ch.ptpU n).syncCorr)) + (256 * (r.t4 - r.corr) - t3))).natAbs < 512 ∧
      (512 * x.geti (Reg.TIM_POFS n) - ((t2 - 256 * (t1 + (ch.ptpU n).syncCorr)) - (256 * (r.t4 - r.corr) - t3))).natAbs < 512 ∧
      x.get (Reg.TIM_PSTS_STATE n) = 3 ∧ x.get (Reg.TIM_PINC n) = ch.get (Reg.TIM_PINC n) ∧
      Only (.ptp :: .fresh :: .regs 0x1C000 0x1C400 :: tellParts) ch x) ∧
  Acts (.delayResp c n r) c (fun ch => (ch.ptpU n).reqTx = none ∨ r.seq.toNat ≠ (ch.ptpU n).reqSeq) (fun ch x => Only [.sent] ch x) ∧
  Acts (.announceReceiptTimeout c n) c (fun ch => ch.ptpOn n = true)
    (fun ch x => x.get (Reg.TIM_PSTS_STATE n) = 1 ∧ x.bit (Reg.TIM_PSTS_LOCK n) = false ∧ x.get (Reg.TIM_PINC n) = ch.get (Reg.TIM_PINC n) ∧
      (x.ptpU n).haveSync = false ∧ x.shows 0x0C01 none (n + 1) ∧ Only (.ptp :: .regs 0x1C000 0x1C400 :: noteParts) ch x) ∧
  Acts (.pnincWrite c n v) c (fun _ => 0x03FF7CEE ≤ v.toNat ∧ v.toNat ≤ 0x04008312)
    (fun ch x => x.get (Reg.TIM_PINC n) = v.toNat ∧ (∀ k, k < 2 → k ≠ n.val → x.get (Reg.TIM_PINC k) = ch.get (Reg.TIM_PINC k)) ∧
      Only [.sent, .regs 0x1C000 0x1C400, .regs 0x1F000 0x20000] ch x) ∧
  Acts (.pnincWrite c n v) c (fun _ => v.toNat < 0x03FF7CEE ∨ 0x04008312 < v.toNat)
    (fun ch x => x.get (Reg.TIM_PINC n) = ch.get (Reg.TIM_PINC n) ∧ x.bit (Reg.TIM_PSTS_INCREJ n) = true ∧ noted 0x0C04 (n + 1) ch x ∧
      Only (.regs 0x1C000 0x1C400 :: noteParts) ch x) ∧
  Acts (.pnstepWrite c n v) c (fun _ => True)
    (fun ch x => (if n = 0 then x.pt1 else x.pt2) =
        ofInt 88 (((if n = 0 then ch.pt1 else ch.pt2) + ch.get (Reg.TIM_PINC n) : Nat) + v.toInt * 2 ^ 24) ∧
      x.mono = (ch.mono + 4) % 2 ^ 64 ∧ x.get (Reg.TIM_PINC n) = ch.get (Reg.TIM_PINC n) ∧
      (∀ k, k < 8 → ch.get (Reg.TIM_EVCFG_DOM k) ≠ n + 1 → x.tevU k = ch.tevU k) ∧ Only (.clock :: .tev :: .regs 0x1C400 0x1C800 :: tellParts) ch x) ∧
  Acts (.pselWrite c v) c (fun _ => True)
    (fun ch x => x.get Reg.TIM_PSEL_SEL = v.toNat % 2 ∧ Only [.sent, .regs 0x1C000 0x1C400, .regs 0x1F000 0x20000] ch x) ∧
  Acts (.snap c) c (fun ch => ch.ct < 2 ^ 80 ∧ ch.pt1 < 2 ^ 88 ∧ ch.pt2 < 2 ^ 88 ∧ ch.mono < 2 ^ 64)
    (fun ch x => x.get64 (Reg.TIM_SNAP 0) = ch.ct / 2 ^ 16 ∧ x.get64 (Reg.TIM_SNAP 1) = ch.pt1 / 2 ^ 24 ∧ x.get64 (Reg.TIM_SNAP 2) = ch.pt2 / 2 ^ 24 ∧
      x.get64 (Reg.TIM_SNAP 3) = ch.mono ∧ Only [.sent, .regs 0x1C000 0x1C400, .regs 0x1F000 0x20000] ch x)

/-- R328 to R330: a write of TIM_EVTGT_HI arms a one-shot or periodic unit when its target lies ahead within 2,147,483,647 ns; one already
passed fires at the next tick, LATE; one too far is refused, RANGE, F0 0x0C03; in the other modes it arms nothing. Periods from 1,000 ns and
delays to 2,147,483,647 ns are taken, others discarded. An armed unit fires as its domain passes the target; the pulse of its pin ends. -/
def Obligations.TimeEvents : Prop := ∀ (c : Chan) (n : Fin 8) (v : Word) (t : Nat), t < 2 ^ 60 →
  Acts (.evtgtHiWrite c n v) c
    (fun ch => (ch.get (Reg.TIM_EVCFG_MODE n) = 1 ∨ ch.get (Reg.TIM_EVCFG_MODE n) = 2) ∧
      ch.dom (ch.get (Reg.TIM_EVCFG_DOM n)) < v.toNat * 2 ^ 32 + ch.get (Reg.TIM_EVTGT_LO n) ∧
      v.toNat * 2 ^ 32 + ch.get (Reg.TIM_EVTGT_LO n) ≤ ch.dom (ch.get (Reg.TIM_EVCFG_DOM n)) + 2147483647)
    (fun ch x => x.bit (Reg.TIM_EVSTS_ARMED n) = true ∧ (x.tevU n).tgt = ch.get (Reg.TIM_EVTGT_LO n) ∧ x.get64 (Reg.TIM_EVTGT n) = v.toNat * 2 ^ 32 + ch.get (Reg.TIM_EVTGT_LO n) ∧
      x.get (Reg.TIM_EVCNT_FIRE n) = ch.get (Reg.TIM_EVCNT_FIRE n) ∧ (∀ k, k < 8 → k ≠ n.val → x.tevU k = ch.tevU k) ∧
      Only (.tev :: .regs 0x1C400 0x1C800 :: tellParts) ch x) ∧
  Acts (.evtgtHiWrite c n v) c
    (fun ch => (ch.get (Reg.TIM_EVCFG_MODE n) = 1 ∨ ch.get (Reg.TIM_EVCFG_MODE n) = 2) ∧ ch.get (Reg.TIM_EVCFG_DOM n) = 3 ∧ ch.mono < 2 ^ 63 ∧
      v.toNat * 2 ^ 32 + ch.get (Reg.TIM_EVTGT_LO n) ≤ ch.mono ∧ ch.mono ≤ v.toNat * 2 ^ 32 + ch.get (Reg.TIM_EVTGT_LO n) + 2147483647)
    (fun ch x => x.bit (Reg.TIM_EVSTS_LATE n) = true ∧ x.mono = ch.mono + 4 ∧ tevFired n x.mono ch x ∧
      Only (.clock :: .tev :: .regs 0x1C400 0x1C800 :: tellParts) ch x) ∧
  Acts (.evtgtHiWrite c n v) c
    (fun ch => (ch.get (Reg.TIM_EVCFG_MODE n) = 1 ∨ ch.get (Reg.TIM_EVCFG_MODE n) = 2) ∧
      (v.toNat * 2 ^ 32 + ch.get (Reg.TIM_EVTGT_LO n) + 2147483647 < ch.dom (ch.get (Reg.TIM_EVCFG_DOM n)) ∨
        ch.dom (ch.get (Reg.TIM_EVCFG_DOM n)) + 2147483647 < v.toNat * 2 ^ 32 + ch.get (Reg.TIM_EVTGT_LO n)))
    (fun ch x => x.bit (Reg.TIM_EVSTS_ARMED n) = false ∧ x.bit (Reg.TIM_EVSTS_RANGE n) = true ∧ noted 0x0C03 n ch x ∧
      Only (.regs 0x1C400 0x1C800 :: noteParts) ch x) ∧
  Acts (.evtgtHiWrite c n v) c (fun ch => ch.get (Reg.TIM_EVCFG_MODE n) = 0 ∨ ch.get (Reg.TIM_EVCFG_MODE n) = 3)
    (fun ch x => x.get (Reg.TIM_EVTGT_HI n) = v.toNat ∧ x.get (Reg.TIM_EVSTS n) = ch.get (Reg.TIM_EVSTS n) ∧
      Only [.sent, .regs 0x1C400 0x1C800, .regs 0x1F000 0x20000] ch x) ∧
  Acts (.evperWrite c n v) c (fun _ => True)
    (fun ch x => x.get (Reg.TIM_EVPER n) = (if 1000 ≤ v.toNat ∧ v.toNat ≤ 2147483647 then v.toNat else ch.get (Reg.TIM_EVPER n)) ∧
      Only [.sent, .each 0x1C400 0x1C800 64 0xC, .regs 0x1F000 0x20000] ch x) ∧
  Acts (.evdlyWrite c n v) c (fun _ => v.toNat ≤ 2147483647)
    (fun ch x => x.get (Reg.TIM_EVDLY n) = v.toNat ∧ Only [.sent, .regs 0x1C400 0x1C800, .regs 0x1F000 0x20000] ch x) ∧
  Acts (.evdlyWrite c n v) c (fun _ => 2147483647 < v.toNat)
    (fun ch x => x.get (Reg.TIM_EVDLY n) = ch.get (Reg.TIM_EVDLY n) ∧ x.bit (Reg.TIM_EVSTS_RANGE n) = true ∧ noted 0x0C03 n ch x ∧
      Only (.regs 0x1C400 0x1C800 :: noteParts) ch x) ∧
  Acts (.timeEventFire c n) c
    (fun ch => ch.bit (Reg.TIM_EVSTS_ARMED n) = true ∧ ch.get (Reg.TIM_EVCFG_DOM n) = 3 ∧ ch.mono < 2 ^ 60 ∧
      (ch.tevU n).tgt = (ch.mono + t % 2147483648) % 2 ^ 32)
    (fun ch x => ch.mono + t % 2147483648 ≤ x.mono ∧ x.mono < ch.mono + t % 2147483648 + 4 ∧ tevFired n x.mono ch x ∧
      (ch.get (Reg.TIM_EVCFG_MODE n) = 2 → (x.tevU n).tgt = (ch.mono + t % 2147483648 + ch.get (Reg.TIM_EVPER n)) % 2 ^ 32) ∧
      Only (.clock :: .tev :: .regs 0x1C400 0x1C800 :: tellParts) ch x) ∧
  Acts (.timeEventFire c n) c (fun ch => ch.bit (Reg.TIM_EVSTS_ARMED n) = false) (fun ch x => Only [.sent] ch x) ∧
  Acts (.tevPulseEnd c n) c (fun ch => (ch.tevU n).pinTill = some t ∧ ch.mono < 2 ^ 60)
    (fun ch x => t ≤ x.mono ∧ (x.mono < t + 4 ∨ x.mono = ch.mono) ∧ x.tevU n = { ch.tevU n with pinTill := none } ∧
      (∀ k, k < 8 → k ≠ n.val → x.tevU k = ch.tevU k) ∧ Only [.clock, .tev, .sent] ch x)

/-! ### Redundant pairs (R335 to R352) -/

/-- R341 to R345, R348, R349, R351: an acting unit's snapshot carries its image's digest, its device, the matrix cycle, its state and a check
value, and the cycle at which it yields where one is asked for; yield and drill are taken in READY at standstill with a partner standing by,
else DRES is 4; the yield resets the unit at L1 by itself. A standby whose partner is silent for two basic cycles takes over in the state
of its staged checkpoint, counted, unprotected arms off; with none it ends in SAFE_IDLE, F2 0x0D04. A returning primary with checkpoints of
two consecutive matrix cycles acts from row 1 of the next. A drill overdue is F0 0x0D08. -/
def Obligations.RedundantPairs : Prop := ∀ (c : Chan) (k : Nat) (key : BitVec 16) (bs b2 : List Byte), k < 2 ^ 40 →
  Acts (.checkpointSnapshot c) c (fun ch => ch.bit Reg.RED_STS_ACT = true ∧ ch.paced)
    (fun ch x => 1600 ≤ x.now % 256000 ∧ x.now % 256000 ≤ 1604 ∧ ch.now ≤ x.now ∧ x.red.snap.length = 15360 ∧ leAt x.red.snap 0 4 = 1 + 15360 * 2 ^ 16 ∧
      leAt x.red.snap 8 4 = ch.get Reg.CFG_CDIG ∧ leAt x.red.snap 12 4 = ch.get Reg.CFG_ISEQ ∧ leAt x.red.snap 16 8 = ch.devid.toNat ∧
      leAt x.red.snap 24 4 = x.mcc ∧ leAt x.red.snap 0x1C 4 = (if ch.red.yieldReq then 1 else 0) ∧
      leAt x.red.snap 0x24 1 = ch.get Reg.CHN_STATE_CODE + 16 * ch.get Reg.CHN_STATE_TARGET ∧
      leAt x.red.snap 15356 4 = crc32c (x.red.snap.take 15356) ∧ x.red.yieldReq = false ∧
      (ch.red.yieldReq = true → x.red.yieldAt = some ((x.matrix + 1) * 16)) ∧ (ch.red.yieldReq = false → x.red.yieldAt = ch.red.yieldAt) ∧
      Only [.clock, .fresh, .red, .cps, .sent] ch x) ∧
  Acts (.checkpointSnapshot c) c (fun ch => ch.bit Reg.RED_STS_ACT = false) (fun ch x => Only [.clock, .cps, .sent] ch x) ∧
  Acts (.partnerSilent c) c
    (fun ch => ch.get Reg.CHN_STATE_CODE = 9 ∧ ch.bit Reg.RED_CFG_EN = true ∧ ch.red.staged = [] ∧ ch.red.syncAt = none)
    (fun ch x => x.get Reg.CHN_STATE_CODE = 3 ∧ x.get Reg.CHN_STATE_CAUSE = 8 ∧ x.get Reg.CHN_STATE_PREV = 9 ∧ x.shows 0x0D04 none 0xFFFF ∧
      x.get Reg.RED_TKOV = ch.get Reg.RED_TKOV ∧ Only (.clock :: .slv :: .regs 0x13000 0x13100 :: .regs 0x1D000 0x1E000 :: faultParts) ch x) ∧
  Acts (.partnerSilent c) c
    (fun ch => ch.get Reg.CHN_STATE_CODE = 9 ∧ ch.bit Reg.RED_CFG_EN = true ∧ ch.red.staged = [bs] ∧ usable bs = true ∧ ch.red.syncAt = some k ∧
      k + 2 ≤ ch.cycle ∧ leAt bs 0x24 1 % 16 ∈ [3, 4, 5, 6] ∧ ch.paced)
    (fun ch x => x.now % 16000 ≤ 15044 ∧ 15040 ≤ x.now % 16000 ∧ x.get Reg.CHN_STATE_CAUSE = 8 ∧ x.get Reg.CHN_STATE_PREV = 9 ∧
      (ch.get Reg.RED_UNPROT_ARMS = 0 → x.get Reg.CHN_STATE_CODE = leAt bs 0x24 1 % 16) ∧ x.bit Reg.RED_STS_ACT = true ∧
      x.get Reg.RED_TKOV = (ch.get Reg.RED_TKOV + 1) % 2 ^ 32 ∧ x.get Reg.RED_LASTTK = x.now % 2 ^ 32 ∧
      ∀ a, a < 8 → tbit (ch.get Reg.RED_UNPROT_ARMS) a = true → (x.arm a).torqueOff = true ∧ x.shows 0x0D03 (some a) a) ∧
  Acts (.partnerSilent c) c
    (fun ch => ch.get Reg.CHN_STATE_CODE ≠ 9 ∨ ch.bit Reg.RED_CFG_EN = false ∨ (ch.red.syncAt = some k ∧ ch.cycle ≤ k ∧ ch.paced))
    (fun ch x => Only [.clock, .sent] ch x) ∧
  Acts (.yield c key) c (fun _ => key ≠ 0x57A7) (fun ch x => Only [.sent, .regs 0x1F000 0x20000] ch x) ∧
  Acts (.yield c 0x57A7) c
    (fun ch => ch.bit Reg.RED_STS_ACT = true ∧ ch.get Reg.CHN_STATE_CODE = 4 ∧ ch.allRest = true ∧ (ch.red.pstate = 9 ∨ ch.red.pstate = 10))
    (fun ch x => x.red = { ch.red with yieldReq := true } ∧ x.bit Reg.RED_STS_DRILL = false ∧
      Only [.red, .sent, .regs 0x1D000 0x1E000, .regs 0x1F000 0x20000] ch x) ∧
  Acts (.yield c 0x57A7) c
    (fun ch => ch.bit Reg.RED_STS_ACT = false ∨ ch.get Reg.CHN_STATE_CODE ≠ 4 ∨ ch.allRest = false ∨ (ch.red.pstate ≠ 9 ∧ ch.red.pstate ≠ 10))
    (fun ch x => x.get Reg.RED_STS_DRES = 4 ∧ Only [.sent, .regs 0x1D000 0x1E000, .regs 0x1F000 0x20000] ch x) ∧
  Acts (.drill c key) c (fun _ => key ≠ 0x57A7) (fun ch x => Only [.sent, .regs 0x1F000 0x20000] ch x) ∧
  Acts (.drill c 0x57A7) c
    (fun ch => ch.bit Reg.RED_STS_ACT = true ∧ ch.get Reg.CHN_STATE_CODE = 4 ∧ ch.allRest = true ∧ (ch.red.pstate = 9 ∨ ch.red.pstate = 10))
    (fun ch x => x.red = { ch.red with yieldReq := true } ∧ x.bit Reg.RED_STS_DRILL = true ∧
      Only [.red, .sent, .regs 0x1D000 0x1E000, .regs 0x1F000 0x20000] ch x) ∧
  Acts (.drill c 0x57A7) c
    (fun ch => ch.bit Reg.RED_STS_ACT = false ∨ ch.get Reg.CHN_STATE_CODE ≠ 4 ∨ ch.allRest = false ∨ (ch.red.pstate ≠ 9 ∧ ch.red.pstate ≠ 10))
    (fun ch x => x.get Reg.RED_STS_DRES = 4 ∧ Only [.sent, .regs 0x1D000 0x1E000, .regs 0x1F000 0x20000] ch x) ∧
  Acts (.yieldInstant c) c (fun ch => ch.red.yieldAt = some k)
    (fun ch x => x.rst.held = true ∧ x.rst.level = 1 ∧ x.get Reg.CHN_STATE_CODE = 1 ∧ x.red = {} ∧ x.flt = {} ∧ x.nvm = ch.nvm ∧ x.cps = ch.cps ∧
      x.get Reg.RST_CAUSE = ch.get Reg.RST_CAUSE ∧ ∀ q, q < 8 → x.get (Reg.RST_CNT q) = ch.get (Reg.RST_CNT q)) ∧
  Acts (.yieldInstant c) c (fun ch => ch.red.yieldAt = none) (fun ch x => Only [.sent] ch x) ∧
  Acts (.returnClaim c) c
    (fun ch => ch.get Reg.CHN_STATE_CODE = 0xA ∧ ch.red.staged = [bs, b2] ∧ usable bs = true ∧ leAt bs 0x18 4 = (leAt b2 0x18 4 + 1) % 2 ^ 32 ∧ ch.paced ∧
      ch.bit Reg.RED_CFG_EN = true)
    (fun ch x => ch.reached x ((ch.matrix + 1) * 256000 + 16000) ∧ x.get Reg.CHN_STATE_CODE = leAt bs 0x24 1 % 16 ∧ x.get Reg.CHN_STATE_CAUSE = 8 ∧
      x.get Reg.CHN_STATE_PREV = 0xA ∧ x.bit Reg.RED_STS_ACT = true ∧ x.red.mute0 = false) ∧
  Acts (.returnClaim c) c (fun ch => ch.get Reg.CHN_STATE_CODE ≠ 0xA ∨ ch.red.staged.length < 2) (fun ch x => Only [.sent] ch x) ∧
  Acts (.drillOverdue c) c (fun ch => ch.nvm.dage ≤ ch.get Reg.RED_DMAX_HRS)
    (fun ch x => x.get Reg.RED_DAGE_HRS = min (ch.get Reg.RED_DMAX_HRS + 1) 0xFFFF ∧ x.nvm.dage = min (ch.get Reg.RED_DMAX_HRS + 1) 0xFFFF ∧
      noted 0x0D08 0xFFFF ch x ∧ Only (.nvm :: .regs 0x1D000 0x1E000 :: noteParts) ch x) ∧
  Acts (.drillOverdue c) c (fun ch => ch.get Reg.RED_DMAX_HRS < ch.nvm.dage) (fun ch x => Only [.sent] ch x)

/-! ### The host port (R355 to R375) -/

/-- R355, R356, R375: a Function Level Reset, D3hot, the loss of the link and a hot reset change the endpoint's function, its MSI-X table and
HOST_LINK alone: state and outputs of both channels stay. A write of Memory Space Enable and Bus Master Enable takes them. Commands of
channel B have no effect on an EV7208 (R6). What the configuration space keeps is the model's reading of PCI Express (log entry 13). -/
def Obligations.HostFunctions : Prop := ∀ (c : Chan) (mse bme : Bool) (speed : BitVec 4) (width : BitVec 5),
  Gives (.functionLevelReset c) (fun s => s.present c = true)
    (fun s t => besides c s t ∧ (t.chan c).fn = { (s.chan c).fn with mse := false, bme := false, d3 := false } ∧
      (∀ v, v < 32 → (t.chan c).word (Reg.HOST_MSIXC v) = BitVec.ofNat 32 (Reg.HOST_MSIXC v).rst) ∧
      Only [.fn, .sent, .regs 0x1F800 0x20000] (s.chan c) (t.chan c)) ∧
  Gives (.d3hotEntry c) (fun s => s.present c = true)
    (fun s t => besides c s t ∧ (t.chan c).fn = { (s.chan c).fn with d3 := true } ∧ Only [.fn, .sent] (s.chan c) (t.chan c)) ∧
  Gives (.d0Entry c) (fun s => s.present c = true)
    (fun s t => besides c s t ∧ (t.chan c).fn = { (s.chan c).fn with d3 := false } ∧ Only [.fn, .sent] (s.chan c) (t.chan c)) ∧
  Gives (.linkDown) (fun s => s.present c = true)
    (fun s t => t.dev = s.dev ∧ (t.chan c).get Reg.HOST_LINK_SPEED = 0 ∧ (t.chan c).get Reg.HOST_LINK_WIDTH = 0 ∧ (t.chan c).bit Reg.HOST_LINK_DLUP = false ∧
      (t.chan c).fn = { (s.chan c).fn with mse := false, bme := false, d3 := false } ∧
      Only [.fn, .sent, .regs 0x1F004 0x1F005, .regs 0x1F800 0x20000] (s.chan c) (t.chan c)) ∧
  Gives (.linkUp speed width) (fun s => s.present c = true)
    (fun s t => t.dev = s.dev ∧ (t.chan c).get Reg.HOST_LINK_SPEED = speed.toNat ∧ (t.chan c).get Reg.HOST_LINK_WIDTH = width.toNat ∧
      (t.chan c).bit Reg.HOST_LINK_DLUP = true ∧ Only [.sent, .regs 0x1F004 0x1F005] (s.chan c) (t.chan c)) ∧
  Gives (.hotReset) (fun s => s.present c = true)
    (fun s t => t.dev = s.dev ∧ (t.chan c).fn = { (s.chan c).fn with mse := false, bme := false, d3 := false } ∧
      Only [.fn, .sent, .regs 0x1F800 0x20000] (s.chan c) (t.chan c)) ∧
  Gives (.memorySpaceEnableWrite c mse bme) (fun s => s.present c = true)
    (fun s t => besides c s t ∧ (t.chan c).fn = { (s.chan c).fn with mse := mse, bme := bme } ∧
      Only [.fn, .sent, .regs 0x1F000 0x20000] (s.chan c) (t.chan c)) ∧
  Gives (.functionLevelReset .B) (fun s => s.variant = .EV7208) (fun s t => t = s) ∧
  Gives (.hotReset) (fun s => s.variant = .EV7208) (fun s t => t.chB = s.chB)

/-- R6 to R8, R10, R356 to R363, R365: a register write takes the bits its access types allow, clears those that are W1C, counts by path;
over PCI Express one with partial byte enables is discarded with BEW. A request to a function that is not open is Unsupported; what is
absent, and a held channel outside HOST, reads 0 and discards. A low word read latches its high word, which the next read of the high word
returns and releases. The segment pool takes bytes; the read-only windows set ROW. Words over SPI are the same registers; a bad address is SPIERR. -/
def Obligations.HostAccesses : Prop := ∀ (c : Chan) (p : Path) (o : BitVec 20) (v : Word) (be : BitVec 4) (w : BitVec 26) (bs : List Byte)
    (a : BitVec 24) (r : Row) (k : TrcWord) (rest : List TrcWord) (part : Bool),
  Gives (.registerWrite c p o v be)
    (fun s => s.answers c o.toNat = true ∧ (p = .spi ∨ (s.chan c).fn.open_ = true ∧ be = 15) ∧
      plainReg o.toNat v.toNat ∧ rowAt o.toNat = some r ∧ r.rw = 0xFFFFFFFF)
    (fun s t => (t.chan c).word ⟨o.toNat, r.rst, 0, 32⟩ = v ∧ besides c s t ∧
      (t.chan c).get (if p = .pcie then Reg.HOST_WCNTP else Reg.HOST_WCNTS) =
        ((s.chan c).get (if p = .pcie then Reg.HOST_WCNTP else Reg.HOST_WCNTS) + 1) % 2 ^ 32 ∧
      Only [.fn, .sent, .regs o.toNat (o.toNat + 1), .regs 0x1F000 0x20000] (s.chan c) (t.chan c)) ∧
  Gives (.registerWrite c p o v be)
    (fun s => s.answers c o.toNat = true ∧ (s.chan c).unlocked = false ∧ (p = .spi ∨ (s.chan c).fn.open_ = true ∧ be = 15) ∧
      plainReg o.toNat v.toNat ∧ rowAt o.toNat = some r ∧ r.rw = 0 ∧ r.w1c = 0 ∧
      r.rwl ≠ 0)
    (fun s t => (t.chan c).bit Reg.HOST_ERR_LOCKW = true ∧ besides c s t ∧ Only [.fn, .sent, .regs 0x1F000 0x20000] (s.chan c) (t.chan c)) ∧
  Gives (.registerWrite c .pcie o v be) (fun s => s.present c = true ∧ (s.chan c).fn.open_ = true ∧ be ≠ 15)
    (fun s t => (t.chan c).bit Reg.HOST_ERR_BEW = true ∧ besides c s t ∧ Only [.fn, .sent, .regs 0x1F000 0x20000] (s.chan c) (t.chan c)) ∧
  Gives (.registerWrite c .pcie o v be) (fun s => s.present c = true ∧ (s.chan c).fn.open_ = false)
    (fun s t => (t.chan c).fn = { (s.chan c).fn with ur := true, rdata := [] } ∧ besides c s t ∧ Only [.fn, .sent] (s.chan c) (t.chan c)) ∧
  Gives (.registerWrite c .spi o v be) (fun s => s.present c = true ∧ (s.chan c).rst.held = true ∧ (o.toNat < 0x1F000 ∨ 0x20000 ≤ o.toNat))
    (fun s t => besides c s t ∧ Only [.fn, .sent] (s.chan c) (t.chan c)) ∧
  Gives (.bar2Write c p w bs)
    (fun s => s.answers c 0 = true ∧ (p = .spi ∨ (s.chan c).fn.open_ = true) ∧ w.toNat + bs.length ≤ 0x100000)
    (fun s t => (∀ i, i < bs.length → (t.chan c).bar2Byte (w.toNat + i) = bs.getD i 0) ∧ besides c s t ∧
      Only [.pool, .fn, .sent, .regs 0x1F000 0x20000] (s.chan c) (t.chan c)) ∧
  Gives (.bar2Write c p w bs)
    (fun s => s.answers c 0 = true ∧ (p = .spi ∨ (s.chan c).fn.open_ = true) ∧ bs ≠ [] ∧ 0x3000000 ≤ w.toNat ∧ w.toNat + bs.length ≤ 0x3200000)
    (fun s t => (t.chan c).bit Reg.HOST_ERR_ROW = true ∧ besides c s t ∧ Only [.fn, .sent, .regs 0x1F000 0x20000] (s.chan c) (t.chan c)) ∧
  Gives (.lowWordRead c .pcie o) (fun s => s.answers c o.toNat = true ∧ (s.chan c).fn.open_ = true ∧ isLow o.toNat = true)
    (fun s t => (t.chan c).fn.rdata = [BitVec.ofNat 32 (s.regValue c o.toNat)] ∧
      (t.chan c).fn.pcie = some (o.toNat, BitVec.ofNat 32 (s.regValue c (o.toNat + 4))) ∧ (t.chan c).fn.spi = (s.chan c).fn.spi ∧
      besides c s t ∧ Only [.fn, .sent] (s.chan c) (t.chan c)) ∧
  Gives (.highWordRead c .pcie o)
    (fun s => s.answers c o.toNat = true ∧ (s.chan c).fn.open_ = true ∧ 4 ≤ o.toNat ∧ isLow (o.toNat - 4) = true ∧ isLow o.toNat = false ∧
      o.toNat ≠ 0x4000 ∧ o.toNat ≠ 0x1600C ∧ (s.chan c).fn.pcie = some (o.toNat - 4, v))
    (fun s t => (t.chan c).fn.rdata = [v] ∧ (t.chan c).fn.pcie = none ∧ besides c s t ∧ Only [.fn, .sent] (s.chan c) (t.chan c)) ∧
  Gives (.highWordRead c .pcie o)
    (fun s => s.answers c o.toNat = true ∧ (s.chan c).fn.open_ = true ∧ isLow o.toNat = false ∧ o.toNat ≠ 0x4000 ∧ o.toNat ≠ 0x1600C ∧
      ((s.chan c).fn.pcie = none ∨ ∃ l, (s.chan c).fn.pcie = some l ∧ l.1 + 4 ≠ o.toNat))
    (fun s t => (t.chan c).fn.rdata = [BitVec.ofNat 32 (s.regValue c o.toNat)] ∧ (t.chan c).fn.pcie = (s.chan c).fn.pcie ∧ besides c s t ∧
      Only [.fn, .sent] (s.chan c) (t.chan c)) ∧
  Gives (.lowWordRead c .pcie o) (fun s => s.present c = true ∧ s.answers c o.toNat = false ∧ (s.chan c).fn.open_ = true)
    (fun s t => (t.chan c).fn.rdata = [0] ∧ besides c s t ∧ Only [.fn, .sent] (s.chan c) (t.chan c)) ∧
  Gives (.spiRead a 1) (fun s => spiOk a.toNat = true ∧ tbit a.toNat 22 = false ∧ spiChan a.toNat = c ∧ s.answers c (a.toNat % 2 ^ 22) = true ∧
      isLow (a.toNat % 2 ^ 22) = true ∧ a.toNat % 2 ^ 22 < 0x20000)
    (fun s t => t.dev = { s.dev with spiSel := none, spiErr := false, spiUe := false, spiData := [BitVec.ofNat 32 (s.regValue c (a.toNat % 2 ^ 22))] } ∧
      (t.chan c).fn.spi = some (a.toNat % 2 ^ 22, BitVec.ofNat 32 (s.regValue c (a.toNat % 2 ^ 22 + 4))) ∧ Only [.fn, .sent] (s.chan c) (t.chan c)) ∧
  Gives (.spiQread a 2) (fun s => spiOk a.toNat = true ∧ tbit a.toNat 22 = true ∧ spiChan a.toNat = c ∧ s.answers c 0 = true ∧ tbit (a.toNat + 4) 22 = true ∧
      spiChan (a.toNat + 4) = c)
    (fun s t => t.dev.spiErr = false ∧ t.dev.spiData = [s.bar2Read c (s.spiWin a.toNat), s.bar2Read c (s.spiWin (a.toNat + 4))] ∧
      Only [.sent] (s.chan c) (t.chan c)) ∧
  Gives (.spiRead a 1) (fun s => spiOk a.toNat = false ∧ spiChan a.toNat = c ∧ s.present c = true)
    (fun s t => t.dev.spiErr = true ∧ t.dev.spiData = [] ∧ (t.chan c).bit Reg.HOST_ERR_SPIERR = true ∧
      Only [.sent, .regs 0x1F000 0x20000] (s.chan c) (t.chan c)) ∧
  Gives (.spiWrite a [v])
    (fun s => spiOk a.toNat = true ∧ tbit a.toNat 22 = false ∧ spiChan a.toNat = c ∧ s.answers c (a.toNat % 2 ^ 22) = true ∧
      plainReg (a.toNat % 2 ^ 22) v.toNat ∧ rowAt (a.toNat % 2 ^ 22) = some r ∧ r.rw = 0xFFFFFFFF)
    (fun s t => (t.chan c).word ⟨a.toNat % 2 ^ 22, r.rst, 0, 32⟩ = v ∧ t.dev.spiSel = some c ∧ t.dev.spiErr = false ∧
      Only [.sent, .regs (a.toNat % 2 ^ 22) (a.toNat % 2 ^ 22 + 1), .regs 0x1F000 0x20000] (s.chan c) (t.chan c)) ∧
  Gives (.spiQwrite a [v])
    (fun s => spiOk a.toNat = true ∧ tbit a.toNat 22 = true ∧ spiChan a.toNat = c ∧ s.answers c 0 = true ∧ s.spiWin a.toNat + 4 ≤ 0x100000)
    (fun s t => (∀ i, i < 4 → (t.chan c).bar2Byte (s.spiWin a.toNat + i) = (leBytes 4 v.toNat).getD i 0) ∧ t.dev.spiSel = some c ∧
      Only [.pool, .sent, .regs 0x1F000 0x20000] (s.chan c) (t.chan c)) ∧
  Gives (.spiStatus) (fun _ => True)
    (fun s t => t.dev = { s.dev with spiData := [BitVec.ofNat 32 (b2n s.dev.spiErr + 2 * b2n s.dev.spiUe + 4 * b2n s.chA.rst.held +
        8 * b2n (!s.present .B || s.chB.rst.held))] } ∧ Only [.sent] s.chA t.chA ∧ Only [.sent] s.chB t.chB) ∧
  Gives (.spiCsRise part) (fun s => s.dev.spiSel = some c ∧ s.present c = true)
    (fun s t => t.dev = { s.dev with spiSel := none, spiErr := s.dev.spiErr || part } ∧ (part = true → (t.chan c).bit Reg.HOST_ERR_SPIERR = true) ∧
      Only [.sent, .regs 0x1F000 0x20000] (s.chan c) (t.chan c)) ∧
  Gives (.traceDataRead c .pcie)
    (fun s => s.answers c 0x4000 = true ∧ (s.chan c).fn.open_ = true ∧ (s.chan c).trc.store = k :: rest ∧ k.bytes.length ≤ 8)
    (fun s t => (t.chan c).fn.rdata = [BitVec.ofNat 32 (leAt k.bytes 0 4)] ∧ (t.chan c).trc.store = rest ∧
      (t.chan c).trc.latchHi = BitVec.ofNat 32 (leAt k.bytes 4 4) ∧ (t.chan c).get Reg.TRC_TAG_VALID = k.bytes.length ∧
      (t.chan c).get Reg.TRC_READ = ((s.chan c).get Reg.TRC_READ + k.bytes.length) % 2 ^ 32 ∧ besides c s t ∧
      Only [.fn, .trc, .sent, .regs 0x4000 0x5000] (s.chan c) (t.chan c)) ∧
  Gives (.traceDataRead c .pcie) (fun s => s.answers c 0x4000 = true ∧ (s.chan c).fn.open_ = true ∧ (s.chan c).trc.store = [])
    (fun s t => (t.chan c).fn.rdata = [0] ∧ (t.chan c).get Reg.TRC_TAG_VALID = 0 ∧ (t.chan c).trc = (s.chan c).trc ∧ besides c s t ∧
      Only [.fn, .sent, .regs 0x4000 0x5000] (s.chan c) (t.chan c))

/-- R88, R367, R370 to R372: a flush commits the staging word of 1 to 7 bytes, or waits for the record in progress to end; the held record
that has waited longest is written whole once it fits, counted as offered and accepted. A dump writes the block's 4,096 bytes as seventeen
records; that it is cut so is the model's choice (log entry 72). The end of a matrix cycle shows the depths, waits and loads gathered, and
gathers anew. Clearing bits of HOST_EVPEND re-arms their events. -/
def Obligations.TraceAndEvents : Prop := ∀ (c : Chan) (r : TrcRec) (rest : List TrcRec) (blk : BitVec 8) (v : BitVec 64) (ir : Bool),
  Acts (.flush c false) c (fun ch => ch.trc.staging ≠ [])
    (fun ch x => x.trc = { ch.trc with store := ch.trc.store ++ [⟨ch.trc.staging⟩], staging := [] } ∧
      x.get Reg.TRC_WORDS_WORDS = (ch.trc.store.length + 1) % 2 ^ 14 ∧ x.get Reg.TRC_PTR_WP = (ch.get Reg.TRC_PTR_WP + 1) % 2 ^ 14 ∧
      x.get Reg.TRC_STS_STAGED = 0 ∧ Only [.trc, .sent, .regs 0x4000 0x5000, .regs 0x1F000 0x20000] ch x) ∧
  Acts (.flush c ir) c (fun ch => ir = false ∧ ch.trc.staging = []) (fun ch x => Only [.sent, .regs 0x1F000 0x20000] ch x) ∧
  Acts (.flush c true) c (fun _ => True)
    (fun ch x => x.bit Reg.TRC_STS_FLPEND = true ∧ Only [.sent, .regs 0x4000 0x5000, .regs 0x1F000 0x20000] ch x) ∧
  Acts (.flushComplete c) c (fun ch => ch.bit Reg.TRC_STS_FLPEND = true ∧ ch.trc.staging ≠ [])
    (fun ch x => x.bit Reg.TRC_STS_FLPEND = false ∧ x.trc = { ch.trc with store := ch.trc.store ++ [⟨ch.trc.staging⟩], staging := [] } ∧
      Only [.trc, .sent, .regs 0x4000 0x5000] ch x) ∧
  Acts (.flushComplete c) c (fun ch => ch.bit Reg.TRC_STS_FLPEND = false) (fun ch x => Only [.sent] ch x) ∧
  Acts (.heldRecordWrite c) c (fun ch => ch.trc.waiting = r :: rest ∧ r.bytes.length ≤ ch.trcFree)
    (fun ch x => x.trc.waiting = rest ∧
      x.trc.store.flatMap (·.bytes) ++ x.trc.staging = ch.trc.store.flatMap (·.bytes) ++ ch.trc.staging ++ r.bytes ∧
      x.get Reg.TRC_OFFER = (ch.get Reg.TRC_OFFER + r.bytes.length) % 2 ^ 32 ∧ x.get Reg.TRC_ACC = (ch.get Reg.TRC_ACC + r.bytes.length) % 2 ^ 32 ∧
      Only [.trc, .sent, .regs 0x4000 0x5000] ch x) ∧
  Acts (.heldRecordWrite c) c (fun ch => ch.trc.waiting = [] ∨ ch.trc.waiting = r :: rest ∧ ch.trcFree < r.bytes.length) (fun ch x => Only [.sent] ch x) ∧
  Gives (.dump c blk) (fun s => s.runs c ∧ tbit ((s.chan c).get Reg.TRC_SRCEN) 5 = true ∧ (s.chan c).trc.waiting = [] ∧ 4232 ≤ (s.chan c).trcFree ∧
      (s.chan c).trc.staging.length < 8)
    (fun s t => besides c s t ∧ (t.chan c).get Reg.TRC_ACC = ((s.chan c).get Reg.TRC_ACC + 4232) % 2 ^ 32 ∧
      Tab.get (t.chan c).trc.seq 0 5 % 2 ^ 16 = (Tab.get (s.chan c).trc.seq 0 5 + 17) % 2 ^ 16 ∧
      Only [.trc, .sent, .fresh, .regs 0x4000 0x5000, .regs 0x1F000 0x20000] (s.chan c) (t.chan c)) ∧
  Gives (.dump c blk) (fun s => s.runs c ∧ tbit ((s.chan c).get Reg.TRC_SRCEN) 5 = false)
    (fun s t => besides c s t ∧ Only [.sent, .fresh, .regs 0x1F000 0x20000] (s.chan c) (t.chan c)) ∧
  Acts (.matrixCycleStatistics c) c (fun ch => ch.paced)
    (fun ch x => x.now % 256000 ≤ 4 ∧ ch.now ≤ x.now ∧
      (∀ q, q < 5 → x.get (Reg.SCH_QDEPTH_MAX q) = (Tab.get ch.sch.stat {} q).dmax % 2 ^ 8 ∧
        x.get (Reg.SCH_WAITMAX q) = (Tab.get ch.sch.stat {} q).wmax % 2 ^ 32 ∧ Tab.get x.sch.stat {} q = { dmax := (ch.queue q).length }) ∧
      (∀ n, n < 9 → x.get (Reg.SCH_LOAD n) = Tab.get ch.sch.busy 0 n % 2 ^ 32) ∧ x.sch.busy = [] ∧
      Only [.clock, .trc, .sch, .sent, .regs 0x4000 0x6000] ch x) ∧
  Gives (.evpendClear c v) (fun s => s.present c = true)
    (fun s t => besides c s t ∧ (∀ i, i < 64 → tbit ((t.chan c).get64 Reg.HOST_EVPEND) i =
        (tbit ((s.chan c).get64 Reg.HOST_EVPEND) i && !v.getLsbD i)) ∧ Only [.sent, .regs 0x1F000 0x20000] (s.chan c) (t.chan c))

/-! ### Configuration slots and firmware (R376 to R397, R408, R443 to R452) -/

/-- R391 to R393, R396, R397: WRITE in COMMISSION or MAINTENANCE, with a valid staged image ahead of the chosen one, counts the write, erases the
other slot and is busy; its read-back makes that slot the image with its write count, or fails with RES 8, F1 0x0207. INVALIDATE erases the first 64 KB of the
chosen slot while the other is valid. A re-binding takes the confirmation code twice within 10 s and a qualified reset, which it uses up.
Each refusal says why in RES. A command with another key is ignored (log entry 73). -/
def Obligations.ConfigurationSlots : Prop := ∀ (c : Chan) (key : BitVec 16) (bs : List Byte) (n : Nat) (v : Word) (t : Nat), t < 2 ^ 63 →
  Acts (.cfgWrite c key) c (fun _ => key ≠ 0x57A7) (fun ch x => Only [.sent, .regs 0x1F000 0x20000] ch x) ∧
  Acts (.cfgInvalidate c key) c (fun _ => key ≠ 0x57A7) (fun ch x => Only [.sent, .regs 0x1F000 0x20000] ch x) ∧
  Acts (.cfgWrite c 0x57A7) c
    (fun ch => ch.slotReady = true ∧ ch.nvm.sfdp ≠ 0 ∧ ch.stagedImage = some bs ∧
      (ch.chosenSeq.all fun q => decide (0 < wrapS 32 ((imgSeq bs : Int) - q))) = true)
    (fun ch x => x.bit Reg.CFG_STS_BUSY = true ∧ x.bit Reg.CHN_STATE_BUSY = true ∧ x.slot ch.targetSlot = [] ∧
      x.slot (ch.get Reg.CFG_STS_ACT) = ch.slot (ch.get Reg.CFG_STS_ACT) ∧
      Tab.get x.nvm.wear 0 ch.targetSlot = Tab.get ch.nvm.wear 0 ch.targetSlot + 1 ∧
      x.cfg.job = some ⟨true, ch.targetSlot, patch bs 32 (leBytes 4 (Tab.get ch.nvm.wear 0 ch.targetSlot + 1))⟩ ∧
      Only (.nvm :: .cfg :: .regs 4 5 :: .regs 0x2000 0x3000 :: noteParts) ch x) ∧
  Acts (.cfgWrite c 0x57A7) c (fun ch => ch.slotReady = false ∨ ch.nvm.sfdp = 0)
    (fun ch x => x.get Reg.CFG_STS_RES = 0xB ∧ Only [.sent, .regs 0x2000 0x3000, .regs 0x1F000 0x20000] ch x) ∧
  Acts (.cfgWrite c 0x57A7) c (fun ch => ch.slotReady = true ∧ ch.nvm.sfdp ≠ 0 ∧ ch.stagedImage = none)
    (fun ch x => x.get Reg.CFG_STS_RES = 6 ∧ Only [.sent, .regs 0x2000 0x3000, .regs 0x1F000 0x20000] ch x) ∧
  Acts (.cfgWrite c 0x57A7) c
    (fun ch => ch.slotReady = true ∧ ch.nvm.sfdp ≠ 0 ∧ ch.stagedImage = some bs ∧
      (ch.chosenSeq.any fun q => decide (wrapS 32 ((imgSeq bs : Int) - q) ≤ 0)) = true)
    (fun ch x => x.get Reg.CFG_STS_RES = 7 ∧ Only [.sent, .regs 0x2000 0x3000, .regs 0x1F000 0x20000] ch x) ∧
  Acts (.cfgWriteDone c true) c (fun ch => ch.cfg.job = some ⟨true, n, bs⟩)
    (fun ch x => x.slot n = bs ∧ (∀ i, i < 2 → i ≠ n → x.slot i = ch.slot i) ∧ x.cfg.job = none ∧ x.bit Reg.CFG_STS_BUSY = false ∧
      x.bit Reg.CHN_STATE_BUSY = false ∧ x.get Reg.CFG_STS_RES = 1 ∧ Only [.nvm, .cfg, .sent, .regs 4 5, .regs 0x2000 0x3000] ch x) ∧
  Acts (.cfgWriteDone c false) c (fun ch => ch.cfg.job = some ⟨true, n, bs⟩)
    (fun ch x => x.nvm = ch.nvm ∧ x.cfg.job = none ∧ x.bit Reg.CFG_STS_BUSY = false ∧ x.get Reg.CFG_STS_RES = 8 ∧
      x.get Reg.NVM_ERR_PROG = min (ch.get Reg.NVM_ERR_PROG + 1) 255 ∧ x.shows 0x0207 none n ∧
      Only (.cfg :: .regs 4 5 :: .regs 0x2000 0x3000 :: noteParts) ch x) ∧
  Acts (.cfgInvalidate c 0x57A7) c (fun ch => ch.slotReady = true ∧ slotValid (ch.slot ch.targetSlot) = true)
    (fun ch x => x.bit Reg.CFG_STS_BUSY = true ∧ (x.slot (ch.get Reg.CFG_STS_ACT)).length = (ch.slot (ch.get Reg.CFG_STS_ACT)).length ∧
      (x.slot (ch.get Reg.CFG_STS_ACT)).drop 65536 = (ch.slot (ch.get Reg.CFG_STS_ACT)).drop 65536 ∧
      ((x.slot (ch.get Reg.CFG_STS_ACT)).take 65536).all (· == 0xFF) = true ∧ x.slot ch.targetSlot = ch.slot ch.targetSlot ∧
      Only [.nvm, .cfg, .sent, .regs 0x2000 0x3000, .regs 0x1F000 0x20000] ch x) ∧
  Acts (.cfgInvalidate c 0x57A7) c (fun ch => ch.slotReady = true ∧ slotValid (ch.slot ch.targetSlot) = false)
    (fun ch x => x.get Reg.CFG_STS_RES = 9 ∧ Only [.sent, .regs 0x2000 0x3000, .regs 0x1F000 0x20000] ch x) ∧
  Acts (.cfgInvalidateDone c) c (fun ch => ch.cfg.job = some ⟨false, n, bs⟩)
    (fun ch x => x.get Reg.CFG_STS_RES = 1 ∧ x.bit Reg.CFG_STS_BUSY = false ∧ x.cfg.job = none ∧ Only [.cfg, .sent, .regs 0x2000 0x3000] ch x) ∧
  Acts (.bindWrite c v) c
    (fun ch => ch.get Reg.CHN_STATE_CODE = 2 ∧ ch.get Reg.CFG_STS_RES = 5 ∧ ch.slotReady = true ∧ ch.nvm.sfdp ≠ 0 ∧ v.toNat = ch.get Reg.CHN_ID_BCODE ∧
      ch.cfg.barm = none)
    (fun ch x => x.cfg = { ch.cfg with barm := some (ch.mono + 10000000000) } ∧ x.bit Reg.CFG_STS_BARM = true ∧
      Only [.cfg, .sent, .regs 0x2000 0x3000, .regs 0x1F000 0x20000] ch x) ∧
  Acts (.bindWrite c v) c
    (fun ch => ch.get Reg.CHN_STATE_CODE = 2 ∧ ch.get Reg.CFG_STS_RES = 5 ∧ ch.slotReady = true ∧ ch.nvm.sfdp ≠ 0 ∧ v.toNat = ch.get Reg.CHN_ID_BCODE ∧
      ch.cfg.barm = some t ∧ ch.bit Reg.SAF_STS_RSTQ = true ∧ 128 ≤ imgLen (ch.slot (ch.get Reg.CFG_STS_ACT)) ∧
      imgLen (ch.slot (ch.get Reg.CFG_STS_ACT)) ≤ (ch.slot (ch.get Reg.CFG_STS_ACT)).length)
    (fun ch x => x.bit Reg.SAF_STS_RSTQ = false ∧ x.bit Reg.CFG_STS_BARM = false ∧ x.bit Reg.CFG_STS_BUSY = true ∧ x.slot ch.targetSlot = [] ∧
      (x.cfg.job.any fun j => j.write && j.slot == ch.targetSlot && leAt j.bytes 16 8 == ch.devid.toNat &&
        leAt j.bytes 8 4 == (imgSeq (ch.slot (ch.get Reg.CFG_STS_ACT)) + 1) % 2 ^ 32) = true ∧
      Only (.nvm :: .cfg :: .saf :: .regs 4 5 :: .regs 0x2000 0x3000 :: .regs 0x16000 0x18000 :: noteParts) ch x) ∧
  Acts (.bindWrite c v) c
    (fun ch => ch.get Reg.CHN_STATE_CODE ≠ 2 ∨ ch.get Reg.CFG_STS_RES ≠ 5 ∨ v.toNat ≠ ch.get Reg.CHN_ID_BCODE ∨
      ch.cfg.barm = some t ∧ ch.bit Reg.SAF_STS_RSTQ = false)
    (fun ch x => x.get Reg.CFG_STS_RES = 0xA ∧ x.bit Reg.CFG_STS_BARM = false ∧ x.cfg = { ch.cfg with barm := none } ∧ x.nvm = ch.nvm ∧
      Only [.cfg, .sent, .regs 0x2000 0x3000, .regs 0x1F000 0x20000] ch x) ∧
  Acts (.bindArmExpiry c) c (fun ch => ch.cfg.barm = some t)
    (fun ch x => t ≤ x.mono ∧ x.cfg = { ch.cfg with barm := none } ∧ x.bit Reg.CFG_STS_BARM = false ∧
      Only [.clock, .cfg, .sent, .regs 0x2000 0x3000] ch x)

/-- R408, R444 to R451: START in MAINTENANCE or LOADER erases the installed header and the progress record; a block that follows the last, with
its check value, is programmed, counted and recorded, one that fails its checks is refused, F0 0x0F01; FINISH of a whole image that passes
digest and signature burns the floor where it must, installs the header and restarts the channel at L2; an image that fails them ends the
update, F1 0x0F02. ABORT ends it; RESUME goes on from the progress record. The fuse table is burned once, in MAINTENANCE at 85 °C or less;
its read-back puts it in force. -/
def Obligations.FirmwareAndFuses : Prop := ∀ (c : Chan) (key : BitVec 16) (bs : List Byte) (n : Nat) (p : Progress) (sig burn prog ok : Bool), key ≠ 0x57A7 →
  (∀ i ∈ [Instr.updateStart c key, .updateResume c key, .block c key, .finish c key, .updateAbort c key, .fuseProgram c key],
    Acts i c (fun _ => True) (fun ch x => Only [.sent, .regs 0x1F000 0x20000] ch x)) ∧
  Acts (.updateStart c 0x57A7) c (fun ch => ch.updGate = 0)
    (fun ch x => x.nvm = { ch.nvm with fwHead := [], prog := none } ∧ x.bit Reg.UPD_STS_ACTIVE = true ∧ x.bit Reg.UPD_STS_BUSY = true ∧
      x.bit Reg.UPD_STS_RESUMABLE = false ∧ x.get Reg.UPD_NEXT_NEXT = 0 ∧ x.cfg.updLen = ch.get Reg.UPD_LEN_LEN ∧
      Only [.nvm, .cfg, .sent, .regs 0x3000 0x4000, .regs 0x1F000 0x20000] ch x) ∧
  Acts (.updateStart c 0x57A7) c (fun ch => ch.get Reg.CHN_STATE_CODE ≠ 8 ∧ ch.get Reg.CHN_STATE_CODE ≠ 0xB)
    (fun ch x => x.get Reg.UPD_STS_RES = 2 ∧ x.bit Reg.UPD_STS_BREF = true ∧ x.nvm = ch.nvm ∧ Only [.sent, .regs 0x3000 0x4000, .regs 0x1F000 0x20000] ch x) ∧
  Acts (.updateStartDone c) c (fun ch => ch.cfg.upd = some .start)
    (fun ch x => x.bit Reg.UPD_STS_BUSY = false ∧ x.get Reg.UPD_STS_RES = 1 ∧ x.cfg = { ch.cfg with upd := none } ∧ Only [.cfg, .sent, .regs 0x3000 0x4000] ch x) ∧
  Acts (.updateResume c 0x57A7) c (fun ch => ch.updGate = 0 ∧ ch.nvm.prog = some p)
    (fun ch x => x.cfg = { ch.cfg with updLen := p.len, head := p.head } ∧ x.get Reg.UPD_NEXT_NEXT = p.next % 2 ^ 24 ∧
      x.bit Reg.UPD_STS_ACTIVE = true ∧ x.get Reg.UPD_STS_RES = 1 ∧ Only [.cfg, .sent, .regs 0x3000 0x4000, .regs 0x1F000 0x20000] ch x) ∧
  Acts (.updateResume c 0x57A7) c (fun ch => ch.updGate = 0 ∧ ch.nvm.prog = none)
    (fun ch x => x.get Reg.UPD_STS_RES = 0xB ∧ Only [.sent, .regs 0x3000 0x4000, .regs 0x1F000 0x20000] ch x) ∧
  Acts (.block c 0x57A7) c
    (fun ch => ch.bit Reg.UPD_STS_ACTIVE = true ∧ ch.bit Reg.UPD_STS_BUSY = false ∧ ch.blockReason (ch.staged (ch.get Reg.UPD_BLEN_LEN)) = 0)
    (fun ch x => x.bit Reg.UPD_STS_BUSY = true ∧ x.cfg.upd = some (.block (ch.get Reg.UPD_BOFS_OFS) (ch.staged (ch.get Reg.UPD_BLEN_LEN))) ∧
      Only [.cfg, .sent, .regs 0x3000 0x4000, .regs 0x1F000 0x20000] ch x) ∧
  Acts (.block c 0x57A7) c
    (fun ch => ch.bit Reg.UPD_STS_ACTIVE = true ∧ ch.bit Reg.UPD_STS_BUSY = false ∧ ch.blockReason (ch.staged (ch.get Reg.UPD_BLEN_LEN)) ≠ 0)
    (fun ch x => x.get Reg.UPD_STS_RES = ch.blockReason (ch.staged (ch.get Reg.UPD_BLEN_LEN)) % 16 ∧ x.bit Reg.UPD_STS_BREF = true ∧
      noted 0x0F01 0xFFFF ch x ∧ Only (.regs 0x3000 0x4000 :: noteParts) ch x) ∧
  Acts (.blockProgramDone c true) c (fun ch => ch.cfg.upd = some (.block n bs))
    (fun ch x => x.get Reg.UPD_STS_RES = 1 ∧ x.get Reg.UPD_NEXT_NEXT = (n + bs.length) % 2 ^ 24 ∧ x.get Reg.UPD_BLKCNT = (ch.get Reg.UPD_BLKCNT + 1) % 2 ^ 32 ∧
      x.nvm.prog = some { len := ch.cfg.updLen, next := n + bs.length, head := if n = 0 then bs else ch.cfg.head } ∧
      x.nvm.fwBody = (if n = 0 then ch.nvm.fwBody else ch.nvm.fwBody.take (n - 4096) ++ bs) ∧ x.bit Reg.UPD_STS_BUSY = false ∧
      Only (.nvm :: .cfg :: .regs 0x3000 0x4000 :: tellParts) ch x) ∧
  Acts (.blockProgramDone c false) c (fun ch => ch.cfg.upd = some (.block n bs) ∧ n ≠ 0)
    (fun ch x => x.get Reg.UPD_STS_RES = 0xA ∧ x.nvm = ch.nvm ∧ x.shows 0x0F04 none 0xFFFF ∧ x.bit Reg.UPD_STS_BUSY = false ∧
      Only (.cfg :: .regs 0x2000 0x4000 :: noteParts) ch x) ∧
  Acts (.finish c 0x57A7) c
    (fun ch => ch.bit Reg.UPD_STS_ACTIVE = true ∧ ch.bit Reg.UPD_STS_BUSY = false ∧ ch.get Reg.UPD_NEXT_NEXT = ch.cfg.updLen)
    (fun ch x => x.bit Reg.UPD_STS_BUSY = true ∧ x.cfg = { ch.cfg with upd := some .finish } ∧ Only [.cfg, .sent, .regs 0x3000 0x4000, .regs 0x1F000 0x20000] ch x) ∧
  Acts (.finish c 0x57A7) c (fun ch => ch.bit Reg.UPD_STS_ACTIVE = false ∨ ch.bit Reg.UPD_STS_BUSY = true)
    (fun ch x => x.get Reg.UPD_STS_RES = 2 ∧ Only [.sent, .regs 0x3000 0x4000, .regs 0x1F000 0x20000] ch x) ∧
  Acts (.updateFinishDone c sig burn prog) c
    (fun ch => ch.cfg.upd = some .finish ∧ (fwSha ((ch.cfg.head ++ ch.nvm.fwBody).take ch.cfg.updLen) ≠ (ch.cfg.head.drop 32).take 32 ∨ sig = false))
    (fun ch x => x.nvm = { ch.nvm with prog := none } ∧ x.bit Reg.UPD_STS_ACTIVE = false ∧ x.shows 0x0F02 none 0xFFFF ∧
      x.get Reg.UPD_STS_RES = (if fwSha ((ch.cfg.head ++ ch.nvm.fwBody).take ch.cfg.updLen) = (ch.cfg.head.drop 32).take 32 then 9 else 8) ∧
      Only (.nvm :: .cfg :: .regs 0x3000 0x4000 :: noteParts) ch x) ∧
  Acts (.updateFinishDone c true true true) c
    (fun ch => ch.cfg.upd = some .finish ∧ fwSha ((ch.cfg.head ++ ch.nvm.fwBody).take ch.cfg.updLen) = (ch.cfg.head.drop 32).take 32 ∧ ch.burnHot = false)
    (fun ch x => x.nvm =
        { ch.nvm with
          fwHead := ch.cfg.head, curver := leAt ch.cfg.head 8 4, prog := none,
          floor := if tbit (leAt ch.cfg.head 17 1) 0 = true ∧ ch.nvm.floor < leAt ch.cfg.head 16 1 then leAt ch.cfg.head 16 1 else ch.nvm.floor } ∧
      x.rst.held = true ∧ x.rst.level = 2 ∧ x.rst.why = 2 ∧ x.get Reg.CHN_STATE_CODE = 1 ∧ x.get Reg.UPD_CURVER = leAt ch.cfg.head 8 4) ∧
  Acts (.updateAbort c 0x57A7) c (fun ch => ch.bit Reg.UPD_STS_ACTIVE = true ∧ ch.bit Reg.UPD_STS_BUSY = false)
    (fun ch x => x.nvm = { ch.nvm with prog := none } ∧ x.bit Reg.UPD_STS_ACTIVE = false ∧ x.get Reg.UPD_NEXT_NEXT = 0 ∧ x.get Reg.UPD_STS_RES = 1 ∧
      Only [.nvm, .cfg, .sent, .regs 0x3000 0x4000, .regs 0x1F000 0x20000] ch x) ∧
  Acts (.fuseProgram c 0x57A7) c
    (fun ch => ch.bit Reg.RST_FSTS_BUSY = false ∧ ch.get Reg.CHN_STATE_CODE = 8 ∧ ch.rst.fuseProg = false ∧ ch.burnHot = false)
    (fun ch x => x.bit Reg.RST_FSTS_BUSY = true ∧ x.rst = { ch.rst with fuseTab := ch.word Reg.RST_FSTAGE } ∧
      Only [.rst, .sent, .regs 0x1000 0x1100, .regs 0x1F000 0x20000] ch x) ∧
  Acts (.fuseProgram c 0x57A7) c
    (fun ch => ch.bit Reg.RST_FSTS_BUSY = false ∧ (ch.get Reg.CHN_STATE_CODE ≠ 8 ∨ ch.rst.fuseProg = true ∨ ch.burnHot = true))
    (fun ch x => x.bit Reg.RST_FSTS_REJ = true ∧ Only [.sent, .regs 0x1000 0x1100, .regs 0x1F000 0x20000] ch x) ∧
  Acts (.fuseProgramDone c ok) c (fun ch => ch.bit Reg.RST_FSTS_BUSY = true)
    (fun ch x => x.bit Reg.RST_FSTS_BUSY = false ∧ x.bit Reg.RST_FSTS_PROG = true ∧ x.bit Reg.RST_FSTS_BAD = (!ok) ∧
      x.rst = { ch.rst with fuseProg := true, fuseBad := !ok } ∧ x.get Reg.RST_FTAB = fuseTable x.rst ∧ (ok = false → x.shows 0x0102 none 0xFFFF) ∧
      Only (.rst :: .regs 0x1000 0x1100 :: noteParts) ch x)

/-! ### Resets and starts (R402 to R427, R460, R473) -/

/-- R402, R404, R406, R407, R409, R437, R460, R473: a source taken at L1 or L2 holds its channel in reset at that level, named, counted, with
nothing left but what that level keeps; the other channel goes on. At no level it is only counted. A clock source waits for the clocks. The
reset pin holds the channel while it is low and starts a trim load. Brownout at L3, power-on and a lost rail hold the whole device. A write
with another key is ignored. Without a burned table the levels are the defaults; a burned level is at least its minimum. -/
def Obligations.ResetSources : Prop := ∀ (c : Chan) (l : Nat) (key : BitVec 16) (rail : Rail) (tap : TapOp) (r : Rst), (l = 1 ∨ l = 2) →
  Gives (.supervisorWatchdog c) (fun s => s.runs c ∧ (s.chan c).takes 4 l) (fun s t => tookReset 4 l (s.chan c) (t.chan c) ∧ besides c s t) ∧
  Gives (.supervisorWatchdog c) (fun s => (s.chan c).rst.held = true) (fun s t => besides c s t ∧ Only [.sent] (s.chan c) (t.chan c)) ∧
  Gives (.islandWatchdog c) (fun s => s.runs c ∧ (s.chan c).takes 5 l) (fun s t => tookReset 5 l (s.chan c) (t.chan c) ∧ besides c s t) ∧
  Gives (.uncorrectableSramError c) (fun s => s.runs c ∧ (s.chan c).takes 8 l) (fun s t => tookReset 8 l (s.chan c) (t.chan c) ∧ besides c s t) ∧
  Gives (.resetRequest c 0x57A7) (fun s => s.runs c ∧ (s.chan c).takes 9 l) (fun s t => tookReset 9 l (s.chan c) (t.chan c) ∧ besides c s t) ∧
  Gives (.resetRequest c key) (fun s => s.runs c ∧ key ≠ 0x57A7)
    (fun s t => besides c s t ∧ Only [.sent, .regs 0x1F000 0x20000] (s.chan c) (t.chan c)) ∧
  Gives (.hostResetCommand c 0x57A7) (fun s => s.present c = true ∧ (s.chan c).takes 3 l)
    (fun s t => tookReset 3 l (s.chan c) (t.chan c) ∧ besides c s t) ∧
  Gives (.hostResetCommand c 0x57A7) (fun s => s.present c = true ∧ (s.chan c).sourceLevel 3 = 0)
    (fun s t => (t.chan c).get (causeCount 3) = ((s.chan c).get (causeCount 3) + 1) % 2 ^ 16 ∧ besides c s t ∧
      Only [.sent, .regs 0x1020 0x1040, .regs 0x1F000 0x20000] (s.chan c) (t.chan c)) ∧
  Gives (.hostResetCommand c key) (fun s => s.present c = true ∧ key ≠ 0x57A7)
    (fun s t => besides c s t ∧ Only [.sent, .regs 0x1F000 0x20000] (s.chan c) (t.chan c)) ∧
  Gives (.pllLossOfLock c) (fun s => s.present c = true ∧ (s.chan c).takes 6 l)
    (fun s t => tookReset 6 l (s.chan c) (t.chan c) ∧ (t.chan c).rst.clkWait = true ∧
      (t.chan c).get Reg.CLK_LOSS_LOCK = ((s.chan c).get Reg.CLK_LOSS_LOCK + 1) % 2 ^ 16 ∧ besides c s t) ∧
  Gives (.referenceLoss c) (fun s => s.present c = true ∧ (s.chan c).takes 7 l)
    (fun s t => tookReset 7 l (s.chan c) (t.chan c) ∧ (t.chan c).rst.clkWait = true ∧
      (t.chan c).get Reg.CLK_LOSS_REF = ((s.chan c).get Reg.CLK_LOSS_REF + 1) % 2 ^ 16 ∧ besides c s t) ∧
  Gives (.clockRecovery c) (fun s => s.present c = true)
    (fun s t => (t.chan c).rst = { (s.chan c).rst with clkWait := false } ∧ besides c s t ∧ Only [.rst, .sent] (s.chan c) (t.chan c)) ∧
  Gives (.overTemperature c) (fun s => s.runs c ∧ (s.chan c).takes 10 l)
    (fun s t => tookReset 10 l (s.chan c) (t.chan c) ∧ (t.chan c).bit Reg.LEHR_OTRIP_TRIP = true ∧ besides c s t) ∧
  Gives (.brownout c) (fun s => s.present c = true ∧ (s.chan c).takes 11 3 ∧ (s.present (other c) = true → (s.chan (other c)).rst.trim = .loaded))
    (fun s t => tookReset 11 3 (s.chan c) (t.chan c) ∧ (t.chan c).rst.trim = .loading ∧
      (s.present (other c) = true → (t.chan (other c)).rst.held = true ∧ (t.chan (other c)).rst.level = 3 ∧ (t.chan (other c)).rst.trim = .loading ∧
        (t.chan (other c)).get Reg.RST_CAUSE_SRC = 15 ∧ (t.chan (other c)).nvm = (s.chan (other c)).nvm) ∧
      (s.present (other c) = false → t.chan (other c) = s.chan (other c))) ∧
  Gives (.resetPin c) (fun s => s.present c = true ∧ (s.chan c).takes 1 2)
    (fun s t => tookReset 1 2 (s.chan c) (t.chan c) ∧ (t.chan c).rst.pinLow = true ∧ (t.chan c).rst.trim = .loading ∧
      t.dev = s.dev.setPin c true ∧ t.chan (other c) = s.chan (other c)) ∧
  Gives (.resetPinRelease c) (fun s => s.present c = true)
    (fun s t => (t.chan c).rst = { (s.chan c).rst with pinLow := false } ∧ Only [.rst, .sent] (s.chan c) (t.chan c) ∧
      t.dev = { s.dev.setPin c false with tap := if drivesPins s.dev.tap then .bypass else s.dev.tap } ∧ t.chan (other c) = s.chan (other c)) ∧
  Gives (.powerOn) (fun s => s.present c = true)
    (fun s t => (t.chan c).rst.held = true ∧ (t.chan c).rst.level = 3 ∧ (t.chan c).rst.trim = .loading ∧ (t.chan c).rst.por = false ∧
      (t.chan c).get Reg.RST_CAUSE_SRC = 0 ∧ (t.chan c).get (causeCount 0) = 1 ∧ (t.chan c).get Reg.CHN_STATE_CODE = 1 ∧ (t.chan c).mono = 0 ∧
      (t.chan c).nvm = (s.chan c).nvm ∧ t.dev = { rstALow := s.dev.rstALow, rstBLow := s.dev.rstBLow }) ∧
  Gives (.railLoss rail) (fun s => s.present c = true)
    (fun s t => (t.chan c).rst.held = true ∧ (t.chan c).rst.por = true ∧ (t.chan c).rst.level = 3 ∧ (t.chan c).canStart = false ∧ (t.chan c).mono = 0 ∧
      (t.chan c).nvm = (s.chan c).nvm ∧ (t.chan c).ring = (s.chan c).ring) ∧
  Gives (.tapInstruction tap) (fun _ => True)
    (fun s t => t.chA = s.chA ∧ t.chB = s.chB ∧
      t.dev = { s.dev with tap := if drivesPins tap && !(s.dev.rstALow && s.dev.rstBLow) then .bypass else tap }) ∧
  Gives (.perst) (fun s => s.present c = true ∧ (s.chan c).sourceLevel 2 = 0 ∧ (s.chan (other c)).sourceLevel 2 ≠ 3)
    (fun s t => (t.chan c).fn = { (s.chan c).fn with mse := false, bme := false, d3 := false } ∧
      (t.chan c).get (causeCount 2) = ((s.chan c).get (causeCount 2) + 1) % 2 ^ 16 ∧ t.dev = s.dev ∧
      Only [.fn, .sent, .regs 0x1020 0x1040, .regs 0x1F800 0x20000] (s.chan c) (t.chan c)) ∧
  (r.fuseProg = false → (List.range 16).map (fun q => fuseTable r / 4 ^ q % 4) = [3, 2, 0, 2, 1, 2, 2, 2, 2, 1, 2, 3, 0, 0, 0, 0]) ∧
  (r.fuseProg = true → r.fuseBad = false → fuseTable r % 4 = 3 ∧
    ∀ q, q < 16 → 0 < q → fuseTable r / 4 ^ q % 4 = max (r.fuseTab.toNat / 4 ^ q % 4) (if q ∈ [1, 4, 9] then 1 else if q ∈ [5, 6, 7, 8, 10, 11] then 2 else 0))

/-- R390, R403, R410 to R415, R420, R422, R423: a trim load whose two reads agree, with its check value, loads; the third failure in a row holds
the channel. A start does not begin before everything that holds the channel is gone. A failed memory test leaves it in BOOT, F2 0x0108;
firmware that fails its checks ends in LOADER, no valid slot in COMMISSION, RES 2; else the chosen image is put in force, and the start ends
once positions are acquired or their time has run out. An L1 with a usable checkpoint restores it, with the retained image, every arm STOPPED
and the solver ring empty; without one it falls back to the cold steps, FALLBK. A block is
reset alone: asked, held when idle or at its time-out, released once its clock is stable. -/
def Obligations.StartsAndBlocks : Prop := ∀ (c : Chan) (a b : Bool) (dom : Fin 7) (blk : BitVec 8) (n : Nat) (tab : Bool), n < 16 →
  Gives (.trimLoadDone c true true tab) (fun s => s.present c = true ∧ (s.chan c).rst.trim = .loading ∧ (s.chan c).rst.por = false)
    (fun s t => (t.chan c).rst.trim = .loaded ∧ (t.chan c).rst.trimFails = 0 ∧ (t.chan c).rst.held = (s.chan c).rst.held ∧
      (t.chan c).rst.fuseBad = ((s.chan c).rst.fuseProg && !tab) ∧ besides c s t ∧
      Only [.rst, .sent, .regs 0x1000 0x1200, .regs 0x3000 0x4000, .regs 0x1D000 0x1E000] (s.chan c) (t.chan c)) ∧
  Gives (.trimLoadDone c a b tab) (fun s => s.present c = true ∧ (s.chan c).rst.trim = .loading ∧ (s.chan c).rst.por = false ∧ (a && b) = false)
    (fun s t => (t.chan c).rst = (if (s.chan c).rst.trimFails < 2 then { (s.chan c).rst with trimFails := (s.chan c).rst.trimFails + 1 }
        else { (s.chan c).rst with trimFails := 3, trim := .held }) ∧ besides c s t ∧ Only [.rst, .sent] (s.chan c) (t.chan c)) ∧
  Acts (.domainStable c dom) c (fun ch => ch.rst.blk = none)
    (fun ch x => tbit (x.get Reg.CLK_STS_STABLE) dom = true ∧ Only [.sent, .regs 0x1100 0x1200] ch x) ∧
  Gives (.coldStart c a b) (fun s => s.present c = true ∧ (s.chan c).canStart = false)
    (fun s t => besides c s t ∧ Only [.sent] (s.chan c) (t.chan c)) ∧
  Gives (.coldStart c false b) (fun s => s.present c = true ∧ (s.chan c).canStart = true ∧ (s.chan c).rst.level = 2 ∧ (s.chan c).get Reg.CHN_STATE_CODE = 1)
    (fun s t => (t.chan c).rst.held = false ∧ (t.chan c).shows 0x0108 none 0xFFFF ∧ (t.chan c).rst.starting = false ∧ (t.chan c).loaded = (s.chan c).loaded ∧
      (t.chan c).nvm = (s.chan c).nvm ∧ besides c s t) ∧
  Gives (.coldStart c true true) (fun s => s.present c = true ∧ (s.chan c).canStart = true ∧ (s.chan c).rst.level = 3 ∧ (s.chan c).fwValid = false ∧
      (s.chan c).lockMark = false ∧ (s.chan c).get Reg.LEHR_OTRIP_TRIP = 0)
    (fun s t => (t.chan c).rst.held = false ∧ (t.chan c).get Reg.CHN_STATE_CODE = 0xB ∧ (t.chan c).get Reg.CHN_STATE_CAUSE = 0xB ∧
      (t.chan c).nvm = (s.chan c).nvm ∧ (t.chan c).loaded = (s.chan c).loaded ∧ besides c s t) ∧
  Gives (.coldStart c true true) (fun s => s.present c = true ∧ (s.chan c).canStart = true ∧ (s.chan c).rst.level = 3 ∧ (s.chan c).fwValid = true ∧
      (s.chan c).chooseSlot = none ∧ (s.chan c).lockMark = false ∧ (s.chan c).get Reg.LEHR_OTRIP_TRIP = 0)
    (fun s t => (t.chan c).get Reg.CHN_STATE_CODE = 2 ∧ (t.chan c).get Reg.CHN_STATE_CAUSE = 4 ∧ (t.chan c).get Reg.CFG_STS_RES = 2 ∧
      (t.chan c).shows 0x0202 none 0xFFFF ∧ (t.chan c).cfg.fwVer = leAt (s.chan c).nvm.fw 8 4 ∧ besides c s t) ∧
  Gives (.coldStart c true true) (fun s => s.present c = true ∧ (s.chan c).canStart = true ∧ (s.chan c).rst.level = 3 ∧ (s.chan c).fwValid = true ∧
      (s.chan c).chooseSlot = some n ∧ leAt ((s.chan c).slot n) 30 1 = (s.chan c).get Reg.CHN_ID_CHAN ∧
      leAt ((s.chan c).slot n) 40 4 ≤ leAt (s.chan c).nvm.fw 8 4)
    (fun s t => (t.chan c).rst.held = false ∧ (t.chan c).loaded = true ∧ (t.chan c).cfg.image = ((s.chan c).slot n).take (imgLen ((s.chan c).slot n)) ∧
      (t.chan c).get Reg.CFG_ISEQ = imgSeq ((s.chan c).slot n) ∧ (t.chan c).get Reg.CFG_CDIG = leAt ((s.chan c).slot n) 24 4 ∧
      (t.chan c).get Reg.CFG_STS_ACT = n % 2 ∧ (t.chan c).get Reg.CFG_STS_RES ∈ [1, 4, 5] ∧ (t.chan c).rst.acquiring = true ∧
      (t.chan c).rst.starting = true ∧ besides c s t) ∧
  Gives (.warmStart c a true) (fun s => s.present c = true ∧ (s.chan c).canStart = true ∧ (s.chan c).rst.level = 1 ∧ (s.chan c).rst.why = 0 ∧
      (s.chan c).cps = [])
    (fun s t => (t.chan c).rst.held = false ∧ (t.chan c).bit Reg.RST_STS_FALLBK = true ∧ (t.chan c).get Reg.CHN_STARTREASON_KIND = 4 ∧
      (t.chan c).get Reg.CHN_STARTREASON_FALL = 1 ∧ (t.chan c).shows 0x0104 none 0xFFFF ∧ besides c s t) ∧
  Gives (.warmStart c true true) (fun s => s.present c = true ∧ (s.chan c).canStart = true ∧ (s.chan c).rst.level = 1 ∧ (s.chan c).rst.why = 0 ∧
      (s.chan c).fallback true = 0)
    (fun s t => (t.chan c).rst.held = false ∧ (t.chan c).get Reg.CHN_STARTREASON_KIND = 3 ∧ (t.chan c).get Reg.CHN_STARTREASON_FALL = 0 ∧
      (t.chan c).bit Reg.RST_STS_FALLBK = (s.chan c).bit Reg.RST_STS_FALLBK ∧ (t.chan c).cfg.image = (s.chan c).cfg.image ∧ (t.chan c).cps = (s.chan c).cps ∧
      (t.chan c).nvm.slots = (s.chan c).nvm.slots ∧
      (∀ k, k < 8 → (t.chan c).nj k ≠ 0 → (t.chan c).get (Reg.PRF_ASTS_ASTATE k) = 5 ∧ (t.chan c).get (Reg.PRF_OVR_EFF k) = 0) ∧
      (t.chan c).get Reg.SLV_HPROD = 0 ∧ (t.chan c).get Reg.SLV_HCONS = 0 ∧ (t.chan c).get Reg.SLV_HDONE = 0 ∧ besides c s t) ∧
  Gives (.warmStart c a b) (fun s => s.present c = true ∧ ((s.chan c).canStart = false ∨ (s.chan c).rst.level ≠ 1))
    (fun s t => besides c s t ∧ Only [.sent] (s.chan c) (t.chan c)) ∧
  Acts (.positionAcquisitionTimeout c) c (fun ch => ch.rst.starting = true ∧ ch.rst.acquiring = true)
    (fun ch x => x.rst = { ch.rst with acquiring := false } ∧ Only [.rst, .sent] ch x) ∧
  Acts (.startComplete c) c
    (fun ch => ch.rst.starting = true ∧ ch.get Reg.CHN_STATE_CODE = 1 ∧ (ch.rst.acquiring = false ∨ ch.acquired = true) ∧ ch.rst.endIn = n ∧ n ≠ 2 ∧
      ch.lockMark = false ∧ ch.get Reg.LEHR_OTRIP_TRIP = 0)
    (fun ch x => x.get Reg.CHN_STATE_CODE = n ∧ x.get Reg.CHN_STATE_CAUSE = 2 ∧ x.get Reg.CHN_STATE_PREV = 1 ∧ x.rst.starting = false ∧
      Only (.rst :: .cfg :: .loaded :: .slv :: .regs 0x1000 0x1100 :: .regs 0x13000 0x13100 :: .regs 0x1D000 0x1E000 :: .regs 0x1E800 0x1E900 :: faultParts)
        ch x) ∧
  Acts (.startComplete c) c (fun ch => ch.rst.starting = false ∨ ch.get Reg.CHN_STATE_CODE ≠ 1 ∨ (ch.rst.acquiring = true ∧ ch.acquired = false))
    (fun ch x => Only [.sent] ch x) ∧
  Acts (.blockResetAssert c blk) c
    (fun ch => ch.rst.blk = none ∧ l0Block blk.toNat = true ∧ (blk.toNat = 4 → ch.bit Reg.CFG_STS_BUSY = false ∧ ch.bit Reg.UPD_STS_ACTIVE = false))
    (fun ch x => x.rst = { ch.rst with blk := some blk.toNat, blkInRst := false, blkRelease := false, blkStable := false, blkSince := ch.mono } ∧
      Only [.rst, .sent, .regs 0x24 0x25, .regs 0x1F000 0x20000] ch x) ∧
  Acts (.blockResetAssert c blk) c (fun ch => ch.rst.blk.all (fun b => b != blk.toNat) = true ∧ (ch.rst.blk.isSome = true ∨ l0Block blk.toNat = false))
    (fun ch x => x.bit Reg.CHN_BRST_REJ = true ∧ x.rst = ch.rst ∧ Only [.sent, .regs 0x24 0x25, .regs 0x1F000 0x20000] ch x) ∧
  Acts (.blockIdle c) c (fun ch => ch.rst.blk = some 2 ∧ ch.rst.blkInRst = false)
    (fun ch x => x.bit Reg.CHN_BRST_INRST = true ∧ x.rst = { ch.rst with blkInRst := true } ∧ Only [.rst, .sent, .regs 0x24 0x25] ch x) ∧
  Acts (.blockIdle c) c (fun ch => ch.rst.blk = some (8 + n % 8) ∧ (ch.engine (n % 8)).task.isSome = true) (fun ch x => Only [.sent] ch x) ∧
  Acts (.blockIdleTimeout c) c (fun ch => ch.rst.blk = some 2 ∧ ch.rst.blkInRst = false ∧ ch.paced)
    (fun ch x => x.bit Reg.CHN_BRST_INRST = true ∧ x.bit Reg.CHN_BRST_TMO = true ∧ x.rst = { ch.rst with blkInRst := true } ∧
      noted 0x0103 2 ch x ∧ Only (.clock :: .rst :: .regs 0x24 0x25 :: noteParts) ch x) ∧
  Acts (.blockResetRelease c blk) c (fun ch => ch.rst.blk = some blk.toNat ∧ (ch.rst.blkInRst = false ∨ ch.rst.blkStable = false))
    (fun ch x => x.rst = { ch.rst with blkRelease := true } ∧ x.bit Reg.CHN_BRST_PEND = true ∧
      Only [.rst, .sent, .regs 0x24 0x25, .regs 0x1F000 0x20000] ch x) ∧
  Acts (.blockResetRelease c blk) c (fun ch => ch.rst.blk = some blk.toNat ∧ ch.rst.blkInRst = true ∧ ch.rst.blkStable = true ∧ blk.toNat = 3)
    (fun ch x => x.rst = { ch.rst with blk := none, blkInRst := false, blkRelease := false, blkStable := false } ∧ x.bit Reg.CHN_BRST_INRST = false ∧
      Only [.rst, .sent, .regs 0x24 0x25, .regs 0x1F000 0x20000] ch x) ∧
  Acts (.blockResetRelease c blk) c (fun ch => ch.rst.blk ≠ some blk.toNat) (fun ch x => x.rst = ch.rst ∧ Only [.sent, .regs 0x24 0x25, .regs 0x1F000 0x20000] ch x)

/-! ### Faults and the lehr governor (R428 to R439) -/

/-- R428, R429, R431, R433, R434: at the end of a matrix cycle an F1 without a cause in it ends. An arm that has not stopped in F2TMO × 10 ms
loses its torque, F2TO. FLT_ACK clears every F2 it names, or none and gives the first reason in order: key, F3, an arm not at rest or with
torque on, a cause still present. FLT_QPOP removes the oldest record. A waiting F2 or F3 record becomes entry 0 of the flash ring; a merged
one is written again. R436 to R439: a conversion reports the mean of the last four; out of range, or silent for 1 ms, a sensor is not valid; 135
degrees is reset source 10. Surge ends at its 8 s with an equal rest, and on a droop. -/
def Obligations.FaultsAndSensors : Prop := ∀ (c : Chan) (k : Fin 8) (v : Word) (m : Bool) (r : FaultRec) (rest : List FaultRec) (e : RingEnt)
    (t : Nat) (n : Fin 4) (q : BitVec 12) (u w z : Int), t < 2 ^ 60 →
  Acts (.f1End c) c (fun ch => ch.paced)
    (fun ch x => x.flt = { ch.flt with
          active := ch.flt.active.filter fun a => a.cls != 1 || a.held || decide ((ch.now + 255999) / 256000 < a.lastMc + 2) } ∧
      x.bit Reg.FLT_ACT_F1 = x.flt.active.any (fun a => a.cls == 1) ∧ ch.reached x ((ch.now + 255999) / 256000 * 256000) ∧
      Only [.clock, .flt, .sent, .regs 0x1E004 0x1E005] ch x) ∧
  Acts (.f2Timeout c k) c (fun ch => (ch.arm k).f2Since = some t ∧ ch.get (Reg.PRF_ASTS_ASTATE k) ≠ 5 ∧ ch.get (Reg.PRF_ACFG_NJ k) ≠ 0)
    (fun ch x => x.get (Reg.PRF_ASTS_ASTATE k) = 5 ∧ (x.arm k).torqueOff = true ∧ x.bit Reg.FLT_ACT_F2TO = true ∧
      (∀ j, j < 64 → ch.bound j = true → ch.armOf j = k.val → x.bit (Reg.JNT_STS_TOFF j) = true) ∧
      t + 10000000 * ch.get Reg.FLT_CFG_F2TMO ≤ x.mono ∧ Only (.clock :: .arms :: .saf :: .lockMark :: .regs 0xC000 0x10000 :: .regs 0x1E004 0x1E005 ::
        stateParts) ch x) ∧
  Acts (.f2Timeout c k) c (fun ch => (ch.arm k).f2Since = none ∨ ch.get (Reg.PRF_ASTS_ASTATE k) = 5) (fun ch x => Only [.sent] ch x) ∧
  Acts (.fltAck c v) c (fun ch => v.toNat / 2 ^ 16 = 0x57A7 ∧ ch.flt.active.all (fun a => a.cls != 3) = true ∧
      (∀ i ∈ ch.boundArms, tbit v.toNat 8 = true ∨ tbit v.toNat i = true →
        ch.get (Reg.PRF_ASTS_ASTATE i) = 5 ∧ ∀ j ∈ ch.armJoints i, ch.bit (Reg.JNT_STS_TOFF j) = true) ∧
      ∀ a ∈ ch.flt.active, a.cls = 2 → (a.scope = none ∧ tbit v.toNat 8 = true ∨ ∃ i ∈ List.range 8, a.scope = some i ∧ tbit v.toNat i = true) →
        a.held = false ∧ a.lastMc + 2 ≤ ch.matrix)
    (fun ch x => x.get Reg.FLT_ACKSTS_RC = 0 ∧ (∀ a ∈ ch.flt.active, a.cls = 1 ∨ a.scope ≠ none ∧ (∀ i ∈ List.range 8, a.scope = some i → tbit v.toNat i = false) → a ∈ x.flt.active) ∧
      (tbit v.toNat 8 = true → ∀ a ∈ x.flt.active, ¬(a.cls = 2 ∧ a.scope = none)) ∧
      (∀ i, i < 8 → tbit v.toNat i = true → ∀ a ∈ x.flt.active, ¬(a.cls = 2 ∧ a.scope = some i)) ∧
      (∀ i ∈ ch.boundArms, tbit v.toNat 8 = true ∨ tbit v.toNat i = true → x.classInForce (some i) < 2 →
        (x.arm i).torqueOff = false ∧ ∀ j ∈ ch.armJoints i, x.bit (Reg.JNT_STS_GOFF j) = false) ∧
      Only (.flt :: .arms :: .saf :: .regs 0x1E000 0x1E010 :: stateParts) ch x) ∧
  Acts (.fltAck c v) c (fun _ => v.toNat / 2 ^ 16 ≠ 0x57A7)
    (fun ch x => x.get Reg.FLT_ACKSTS_RC = 4 ∧ x.bit Reg.FLT_ACKSTS_REJ = true ∧ Only [.sent, .regs 0x1E00C 0x1E00D, .regs 0x1F000 0x20000] ch x) ∧
  Acts (.fltAck c v) c (fun ch => v.toNat / 2 ^ 16 = 0x57A7 ∧ ∃ a ∈ ch.flt.active, a.cls = 3)
    (fun ch x => x.get Reg.FLT_ACKSTS_RC = 3 ∧ x.bit Reg.FLT_ACKSTS_REJ = true ∧ Only [.sent, .regs 0x1E00C 0x1E00D, .regs 0x1F000 0x20000] ch x) ∧
  Acts (.fltAck c v) c (fun ch => v.toNat / 2 ^ 16 = 0x57A7 ∧ ch.flt.active.all (fun a => a.cls != 3) = true ∧ k.val ∈ ch.boundArms ∧
      (tbit v.toNat 8 = true ∨ tbit v.toNat k.val = true) ∧ ch.get (Reg.PRF_ASTS_ASTATE k) ≠ 5)
    (fun ch x => x.get Reg.FLT_ACKSTS_RC = 1 ∧ x.bit Reg.FLT_ACKSTS_REJ = true ∧ Only [.sent, .regs 0x1E00C 0x1E00D, .regs 0x1F000 0x20000] ch x) ∧
  Acts (.fltAck c v) c (fun ch => v.toNat / 2 ^ 16 = 0x57A7 ∧ ch.flt.active.all (fun a => a.cls != 3) = true ∧
      (∀ i ∈ ch.boundArms, ch.get (Reg.PRF_ASTS_ASTATE i) = 5 ∧ ∀ j ∈ ch.armJoints i, ch.bit (Reg.JNT_STS_TOFF j) = true) ∧
      ∃ a ∈ ch.flt.active, a.cls = 2 ∧ (a.scope = some k.val ∧ tbit v.toNat k.val = true ∨ a.scope = none ∧ tbit v.toNat 8 = true) ∧ a.held = true)
    (fun ch x => x.get Reg.FLT_ACKSTS_RC = 2 ∧ x.bit Reg.FLT_ACKSTS_REJ = true ∧ Only [.sent, .regs 0x1E00C 0x1E00D, .regs 0x1F000 0x20000] ch x) ∧
  Acts (.fltQpop c m) c (fun _ => True)
    (fun ch x => x.flt = { ch.flt with queue := ch.flt.queue.drop 1 } ∧ x.get Reg.FLT_QCNT_CNT = (ch.flt.queue.length - 1) % 64 ∧
      (∀ i, i < 8 → (x.word (Reg.FLT_QREC i)).toNat = (match ch.flt.queue.drop 1 with | [] => 0 | y :: _ => leAt y.toBytes (4 * i) 4)) ∧
      (m = true → ch.flt.queue ≠ [] → x.bit Reg.FLT_QSTS_MLOST = true ∧ x.get Reg.FLT_TOTAL = (ch.get Reg.FLT_TOTAL + 1) % 2 ^ 32) ∧
      Only [.flt, .sent, .regs 0x1E010 0x1E084, .regs 0x1F000 0x20000] ch x) ∧
  Acts (.flashRingWrite c) c (fun ch => ch.flt.toRing = r :: rest ∧ ch.flashBusy = false)
    (fun ch x => x.ring = { body := r, wtime := ch.mono, pend := none } :: ch.ring.take 15 ∧ x.flt = { ch.flt with toRing := rest } ∧
      Only [.flt, .ring, .sent] ch x) ∧
  Acts (.flashRingWrite c) c (fun ch => ch.flt.toRing = [] ∨ ch.flashBusy = true) (fun ch x => Only [.sent] ch x) ∧
  Acts (.flashRingRewrite c) c (fun ch => ch.ring = [{ e with pend := some r }] ∧ ch.flashBusy = false)
    (fun ch x => x.ring = [{ body := r, wtime := x.mono, pend := none }] ∧ e.wtime + 1000000000 ≤ x.mono ∧ Only [.clock, .ring, .sent] ch x) ∧
  Gives (.sensorConversion c n q) (fun s => s.runs c ∧ Tab.get (s.chan c).lehr.conv [] n.val = [u, w, z] ∧
      -8000 ≤ q.toInt + u + w + z ∧ q.toInt + u + w + z ≤ 4316)
    (fun s t => q.toInt + u + w + z < 4 * (t.chan c).geti (Reg.LEHR_TJ_T n) + 4 ∧ 4 * (t.chan c).geti (Reg.LEHR_TJ_T n) < q.toInt + u + w + z + 4 ∧
      (t.chan c).bit (Reg.LEHR_TJ_VALID n) = decide (-440 ≤ (t.chan c).geti (Reg.LEHR_TJ_T n)) ∧
      Tab.get (t.chan c).lehr.conv [] n.val = [q.toInt, u, w, z] ∧ ((t.chan c).bit (Reg.LEHR_TJ_VALID n) = false → (t.chan c).shows 0x0E04 none n.val) ∧
      (∀ i, i < 4 → i ≠ n.val → (t.chan c).word (Reg.LEHR_TJ i) = (s.chan c).word (Reg.LEHR_TJ i)) ∧ besides c s t ∧
      Only (.lehr :: .fresh :: .regs 0x1E800 0x1E840 :: .regs 0x13000 0x13080 :: faultParts) (s.chan c) (t.chan c)) ∧
  Gives (.sensorConversion c n q) (fun s => s.runs c ∧ (s.chan c).takes 10 2 ∧ Tab.get (s.chan c).lehr.conv [] n.val = [u, w, z] ∧
      4320 ≤ q.toInt + u + w + z ∧ q.toInt + u + w + z ≤ 8000)
    (fun s t => (t.chan c).rst.held = true ∧ (t.chan c).rst.level = 2 ∧ (t.chan c).get Reg.RST_CAUSE_SRC = 10 ∧ (t.chan c).bit Reg.LEHR_OTRIP_TRIP = true ∧
      besides c s t) ∧
  Acts (.sensorTimeout c n) c (fun _ => True)
    (fun ch x => x.bit (Reg.LEHR_TJ_VALID n) = false ∧ x.shows 0x0E04 none n.val ∧ Tab.get x.lehr.conv [] n.val = [] ∧
      Tab.get ch.lehr.at_ 0 n.val + 1000000 ≤ x.mono ∧
      Only (.clock :: .lehr :: .regs 0x1E800 0x1E840 :: .regs 0x13000 0x13080 :: faultParts) ch x) ∧
  Acts (.surgePeriodLimit c) c (fun ch => ch.lehr.since = some t ∧ ch.slv.run = none)
    (fun ch x => x.lehr.since = none ∧ x.lehr.rest = some (x.mono + 8000000000) ∧ x.bit Reg.LEHR_STS_SURGEON = false ∧
      x.bit Reg.LEHR_STS_REST = true ∧ x.bit Reg.SLV_STS_SURGEON = false ∧ x.bit Reg.CLK_STS_SURGE = false ∧ t + 8000000000 ≤ x.mono ∧
      Only (.clock :: surgeParts) ch x) ∧
  Acts (.surgePeriodLimit c) c (fun ch => ch.lehr.since = some t ∧ ch.slv.run ≠ none)
    (fun ch x => x.lehr = { ch.lehr with limit := true } ∧ x.bit Reg.LEHR_STS_SURGEON = ch.bit Reg.LEHR_STS_SURGEON ∧ Only (.clock :: surgeParts) ch x) ∧
  Acts (.surgeRestEnd c) c (fun ch => ch.lehr.rest = some t)
    (fun ch x => t ≤ x.mono ∧ (ch.lehr.since = none → x.lehr.rest = none ∧ x.bit Reg.LEHR_STS_REST = false) ∧ Only (.clock :: surgeParts) ch x) ∧
  Acts (.vddDroop c) c (fun _ => True)
    (fun ch x => x.bit Reg.LEHR_STS_DROOP = true ∧ x.get Reg.LEHR_DROOP = (ch.get Reg.LEHR_DROOP + 1) % 2 ^ 32 ∧ x.shows 0x0E05 none 0xFFFF ∧
      x.bit Reg.LEHR_STS_SURGEOK = false ∧ (ch.slv.run = none → x.lehr.since = none ∧ x.bit Reg.CLK_STS_SURGE = false) ∧
      Only (.lehr :: .regs 0x1E804 0x1E840 :: .regs 0x1100 0x1101 :: .regs 0x13000 0x13080 :: faultParts) ch x) ∧
  Acts (.droopEnd c) c (fun _ => True)
    (fun ch x => x.bit Reg.LEHR_STS_DROOP = false ∧ (∀ a ∈ x.flt.active, a.code = 0x0E05 → a.scope = none → a.index = 0xFFFF → a.held = false) ∧
      Only (.flt :: surgeParts) ch x)

/-! ### Reset -/

/-- R4, R26, R28, R404, R413, R427: right after reset both channels of the package are held in BOOT at L3 with the trim being loaded; no
command waits, no joint is bound, no fault is active, nothing is on a port; the access ports are closed. What the flash holds then is the
model's choice (log entry 7). -/
def Obligations.ResetState : Prop :=
  State.reset.variant = .EV7216 ∧ State.reset.pending = [] ∧
  ∀ c : Chan, State.reset.present c = true ∧ (State.reset.chan c).rst.held = true ∧ (State.reset.chan c).rst.trim = .loading ∧
    (State.reset.chan c).rst.level = 3 ∧ (State.reset.chan c).get Reg.CHN_STATE_CODE = 1 ∧ (State.reset.chan c).sent = [] ∧
    (State.reset.chan c).buffersHold ∧ (State.reset.chan c).flt = {} ∧ (State.reset.chan c).fn.mse = false ∧ (State.reset.chan c).loaded = false ∧
    (State.reset.chan c).get Reg.RST_FTAB = 0x00E6A98B ∧ (State.reset.chan c).lockMark = false ∧
    (∀ j, j < 64 → (State.reset.chan c).get (Reg.JNT_BIND j) = 0) ∧ (∀ k, k < 8 → (State.reset.chan c).get (Reg.PRF_ACFG_NJ k) = 0)
end

