-- ==== Sys2Proof/Laws/Tab.lean ====
section
/-!
SUPPORT. Laws of tables: a read after a write, a write elsewhere, the canonical form.
-/
namespace Sys2Proof.Machine

variable {α : Type}

@[simp] theorem Tab.get_nil (d : α) (i : Nat) : Tab.get ([] : Tab α) d i = d := rfl

theorem Tab.get_erase_same (t : Tab α) (d : α) (i : Nat) : (t.erase i).get d i = d := by
  induction t with
  | nil => rfl
  | cons e r ih => simp only [Tab.erase]; split <;> simp_all [Tab.get]

theorem Tab.get_erase_ne (t : Tab α) (d : α) {i j : Nat} (h : j ≠ i) : (t.erase i).get d j = t.get d j := by
  induction t with
  | nil => rfl
  | cons e r ih =>
    simp only [Tab.erase]
    split
    · next hk => simp only [Tab.get, ih, hk, Ne.symm h, if_false]
    · simp only [Tab.get, ih]

theorem Tab.get_insert_same (t : Tab α) (d : α) (i : Nat) (v : α) (h : ∀ e ∈ t, e.1 ≠ i) : (t.insert i v).get d i = v := by
  induction t with
  | nil => simp [Tab.insert, Tab.get]
  | cons e r ih =>
    simp only [Tab.insert]
    split
    · simp [Tab.get]
    · have he := h e (by simp)
      simp only [Tab.get, he, if_false]
      exact ih fun x hx => h x (by simp [hx])

theorem Tab.get_insert_ne (t : Tab α) (d : α) {i j : Nat} (v : α) (h : j ≠ i) : (t.insert i v).get d j = t.get d j := by
  induction t with
  | nil => simp [Tab.insert, Tab.get, Ne.symm h]
  | cons e r ih =>
    simp only [Tab.insert]
    split
    · simp [Tab.get, Ne.symm h]
    · simp only [Tab.get, ih]

theorem Tab.erase_free (t : Tab α) (i : Nat) : ∀ e ∈ t.erase i, e.1 ≠ i := by
  induction t with
  | nil => simp [Tab.erase]
  | cons e r ih =>
    simp only [Tab.erase]
    split
    · exact ih
    · next hk => intro x hx; exact (List.mem_cons.mp hx).elim (fun h => h ▸ hk) (ih x)

theorem Tab.risingFrom_mono {b c : Nat} (t : Tab α) (h : t.risingFrom b = true) (hc : c ≤ b) : t.risingFrom c = true := by
  cases t with
  | nil => rfl
  | cons e r => simp only [Tab.risingFrom, Bool.and_eq_true, decide_eq_true_eq] at h ⊢; exact ⟨by omega, h.2⟩

theorem Tab.risingFrom_erase (t : Tab α) (b i : Nat) (h : t.risingFrom b = true) : (t.erase i).risingFrom b = true := by
  induction t generalizing b with
  | nil => rfl
  | cons e r ih =>
    simp only [Tab.risingFrom, Bool.and_eq_true, decide_eq_true_eq] at h
    simp only [Tab.erase]
    split
    · exact Tab.risingFrom_mono _ (ih _ h.2) (by omega)
    · simp only [Tab.risingFrom, Bool.and_eq_true, decide_eq_true_eq]; exact ⟨h.1, ih _ h.2⟩

theorem Tab.risingFrom_insert (t : Tab α) (b i : Nat) (v : α) (hb : b ≤ i) (h : t.risingFrom b = true) (hi : ∀ e ∈ t, e.1 ≠ i) :
    (t.insert i v).risingFrom b = true := by
  induction t generalizing b with
  | nil => simp [Tab.insert, Tab.risingFrom, hb]
  | cons e r ih =>
    simp only [Tab.risingFrom, Bool.and_eq_true, decide_eq_true_eq] at h
    have he := hi e (by simp)
    simp only [Tab.insert]
    split
    · next hlt => simp only [Tab.risingFrom, Bool.and_eq_true, decide_eq_true_eq]; exact ⟨hb, by omega, h.2⟩
    · simp only [Tab.risingFrom, Bool.and_eq_true, decide_eq_true_eq]
      exact ⟨h.1, ih _ (by omega) h.2 fun x hx => hi x (by simp [hx])⟩

theorem Tab.mem_insert (t : Tab α) (i : Nat) (v : α) : ∀ e ∈ t.insert i v, e = (i, v) ∨ e ∈ t := by
  induction t with
  | nil => simp [Tab.insert]
  | cons e r ih =>
    simp only [Tab.insert]
    split
    · simp
    · intro x hx
      rcases List.mem_cons.mp hx with rfl | hx
      · simp
      · rcases ih x hx with h | h <;> simp [h]

theorem Tab.mem_erase (t : Tab α) (i : Nat) : ∀ e ∈ t.erase i, e ∈ t := by
  induction t with
  | nil => simp [Tab.erase]
  | cons e r ih =>
    simp only [Tab.erase]
    split
    · intro x hx; exact List.mem_cons_of_mem _ (ih x hx)
    · intro x hx
      rcases List.mem_cons.mp hx with rfl | hx
      · simp
      · exact List.mem_cons_of_mem _ (ih x hx)

/-- A read of a table of which part is dropped. -/
theorem Tab.get_filter (t : Tab α) (d : α) (i : Nat) (p : Nat → Bool) :
    Tab.get (t.filter fun e => p e.1) d i = if p i then t.get d i else d := by
  induction t with
  | nil => simp
  | cons e r ih =>
    simp only [List.filter]
    by_cases hk : e.1 = i
    · subst hk; cases hp : p e.1 <;> simp_all [Tab.get]
    · cases hp : p e.1 <;> simp_all [Tab.get]

variable [DecidableEq α]

/-- A read of the index written gives the value written. -/
@[simp] theorem Tab.get_set_same (t : Tab α) (d : α) (i : Nat) (v : α) : (t.set d i v).get d i = v := by
  unfold Tab.set
  split
  · next h => rw [h, Tab.get_erase_same]
  · exact Tab.get_insert_same _ _ _ _ (Tab.erase_free t i)

/-- A write leaves every other index alone, whatever default it is read with. -/
theorem Tab.get_set_ne (t : Tab α) (d d' : α) {i j : Nat} (v : α) (h : j ≠ i) : (t.set d i v).get d' j = t.get d' j := by
  unfold Tab.set
  split
  · exact Tab.get_erase_ne t d' h
  · rw [Tab.get_insert_ne _ _ _ h, Tab.get_erase_ne t d' h]

/-- Writing keeps the canonical form. -/
theorem Tab.wf_set (t : Tab α) (d : α) (i : Nat) (v : α) (h : t.wf d = true) : (t.set d i v).wf d = true := by
  simp only [Tab.wf, Bool.and_eq_true, List.all_eq_true, decide_eq_true_eq] at h ⊢
  unfold Tab.set
  split
  · exact ⟨Tab.risingFrom_erase t 0 i h.1, fun x hx => h.2 x (Tab.mem_erase t i x hx)⟩
  · next hv =>
    refine ⟨Tab.risingFrom_insert _ _ _ _ (Nat.zero_le _) (Tab.risingFrom_erase t 0 i h.1) (Tab.erase_free t i), fun x hx => ?_⟩
    rcases Tab.mem_insert _ _ _ x hx with rfl | hx
    · exact hv
    · exact h.2 x (Tab.mem_erase t i x hx)

end Sys2Proof.Machine
end

