-- ==== Sys2Proof/Laws/Regs.lean ====
section
/-!
SUPPORT. Laws of register fields: a field read after a write of it, of another field of its register, of another register.
-/
namespace Sys2Proof.Machine

open Sys2Proof

/-! ### Bits -/

theorem insertBits_field (old lo w v : Nat) : insertBits old lo w v / 2 ^ lo % 2 ^ w = v % 2 ^ w := by
  have hp : 0 < 2 ^ lo := Nat.two_pow_pos lo
  have hl : old % 2 ^ lo < 2 ^ lo := Nat.mod_lt _ hp
  have e : insertBits old lo w v = old % 2 ^ lo + 2 ^ lo * (v % 2 ^ w + 2 ^ w * (old / 2 ^ (lo + w))) := by
    simp only [insertBits, Nat.pow_add, Nat.mul_add, Nat.add_assoc]
    rw [Nat.mul_comm (v % 2 ^ w), Nat.mul_comm (old / _), Nat.mul_assoc]
  rw [e, Nat.add_mul_div_left _ _ hp, Nat.div_eq_of_lt hl, Nat.zero_add, Nat.add_mul_mod_self_left, Nat.mod_mod]

theorem insertBits_below (old lo w v a n : Nat) (h : a + n ≤ lo) : insertBits old lo w v / 2 ^ a % 2 ^ n = old / 2 ^ a % 2 ^ n := by
  obtain ⟨k, rfl⟩ := Nat.exists_eq_add_of_le h
  have e : insertBits old (a + n + k) w v =
      old % 2 ^ (a + n) + 2 ^ (a + n) * (old / 2 ^ (a + n) % 2 ^ k + 2 ^ k * (v % 2 ^ w + 2 ^ w * (old / 2 ^ (a + n + k + w)))) := by
    simp only [insertBits]
    have h1 : old % 2 ^ (a + n + k) = old % 2 ^ (a + n) + 2 ^ (a + n) * (old / 2 ^ (a + n) % 2 ^ k) := by
      rw [Nat.pow_add 2 (a + n) k, Nat.mod_mul]
    rw [h1]
    simp only [Nat.mul_add, Nat.pow_add, Nat.add_assoc]
    simp only [Nat.mul_comm, Nat.mul_left_comm, Nat.mul_assoc]
  have h2 : ∀ x y : Nat, (x % 2 ^ (a + n) + 2 ^ (a + n) * y) / 2 ^ a % 2 ^ n = x / 2 ^ a % 2 ^ n := by
    intro x y
    rw [Nat.pow_add, Nat.mul_assoc, Nat.add_mul_div_left _ _ (Nat.two_pow_pos a), Nat.add_mul_mod_self_left]
    rw [Nat.mod_mul_right_div_self, Nat.mod_mod]
  rw [e, h2]

theorem insertBits_above (old lo w v a n : Nat) (h : lo + w ≤ a) : insertBits old lo w v / 2 ^ a % 2 ^ n = old / 2 ^ a % 2 ^ n := by
  obtain ⟨k, rfl⟩ := Nat.exists_eq_add_of_le h
  have hb : old % 2 ^ lo + v % 2 ^ w * 2 ^ lo < 2 ^ (lo + w) := by
    have h1 : old % 2 ^ lo < 2 ^ lo := Nat.mod_lt _ (Nat.two_pow_pos lo)
    have h2 : v % 2 ^ w < 2 ^ w := Nat.mod_lt _ (Nat.two_pow_pos w)
    have h3 : (v % 2 ^ w + 1) * 2 ^ lo ≤ 2 ^ w * 2 ^ lo := Nat.mul_le_mul_right _ h2
    rw [Nat.add_mul, Nat.one_mul] at h3
    rw [Nat.pow_add, Nat.mul_comm (2 ^ lo)]; omega
  have e : insertBits old lo w v / 2 ^ (lo + w) = old / 2 ^ (lo + w) := by
    simp only [insertBits]
    rw [Nat.mul_comm (old / _), Nat.add_mul_div_left _ _ (Nat.two_pow_pos _), Nat.div_eq_of_lt hb, Nat.zero_add]
  rw [Nat.pow_add, ← Nat.div_div_eq_div_mul, e, Nat.div_div_eq_div_mul, ← Nat.pow_add]

theorem insertBits_lt (old lo w v : Nat) (ho : old < 2 ^ 32) (h : lo + w ≤ 32) : insertBits old lo w v < 2 ^ 32 := by
  obtain ⟨k, hk⟩ := Nat.exists_eq_add_of_le h
  have h1 : old % 2 ^ lo < 2 ^ lo := Nat.mod_lt _ (Nat.two_pow_pos lo)
  have h2 : v % 2 ^ w < 2 ^ w := Nat.mod_lt _ (Nat.two_pow_pos w)
  have h3 : (v % 2 ^ w + 1) * 2 ^ lo ≤ 2 ^ w * 2 ^ lo := Nat.mul_le_mul_right _ h2
  have h4 : old / 2 ^ (lo + w) < 2 ^ k := by
    apply Nat.div_lt_of_lt_mul; rw [← Nat.pow_add, ← hk]; exact ho
  have h5 : (old / 2 ^ (lo + w) + 1) * 2 ^ (lo + w) ≤ 2 ^ k * 2 ^ (lo + w) := Nat.mul_le_mul_right _ h4
  have e1 : 2 ^ w * 2 ^ lo = 2 ^ (lo + w) := by rw [Nat.pow_add, Nat.mul_comm]
  have e2 : 2 ^ k * 2 ^ (lo + w) = 2 ^ 32 := by rw [← Nat.pow_add, hk, Nat.add_comm]
  rw [Nat.add_mul, Nat.one_mul, e1] at h3
  rw [Nat.add_mul, Nat.one_mul, e2] at h5
  simp only [insertBits]; omega

/-! ### Fields -/

/-- A field that lies in its register. -/
def RF.ok (f : RF) : Prop := f.lo + f.w ≤ 32

theorem ChanState.word_put_same (ch : ChanState) (f g : RF) (v : Nat) (ho : g.ofs = f.ofs) (hr : g.rst = f.rst) :
    (ch.put f v).word g = BitVec.ofNat 32 (insertBits (ch.word f).toNat f.lo f.w v) := by
  simp [ChanState.put, ChanState.putWord, ChanState.word, ho, hr]

theorem ChanState.word_put_ne (ch : ChanState) (f g : RF) (v : Nat) (ho : g.ofs ≠ f.ofs) : (ch.put f v).word g = ch.word g := by
  simp only [ChanState.put, ChanState.putWord, ChanState.word]
  exact Tab.get_set_ne _ _ _ _ ho

theorem toNat_insertBits (x : Word) (lo w v : Nat) (h : lo + w ≤ 32) :
    (BitVec.ofNat 32 (insertBits x.toNat lo w v)).toNat = insertBits x.toNat lo w v := by
  rw [BitVec.toNat_ofNat]; exact Nat.mod_eq_of_lt (insertBits_lt _ _ _ _ x.isLt h)

/-- A field read after a write of it. -/
theorem ChanState.get_put_same (ch : ChanState) (f : RF) (v : Nat) (h : f.lo + f.w ≤ 32) : (ch.put f v).get f = v % 2 ^ f.w := by
  simp only [ChanState.get, ChanState.word_put_same ch f f v rfl rfl, toNat_insertBits _ _ _ _ h, insertBits_field]

/-- A field of another register. -/
theorem ChanState.get_put_ne (ch : ChanState) (f g : RF) (v : Nat) (h : g.ofs ≠ f.ofs) : (ch.put f v).get g = ch.get g := by
  simp only [ChanState.get, ChanState.word_put_ne ch f g v h]

/-- A field of the same register whose bits are others. -/
theorem ChanState.get_put_apart (ch : ChanState) (f g : RF) (v : Nat) (ho : g.ofs = f.ofs) (hr : g.rst = f.rst) (hf : f.lo + f.w ≤ 32)
    (h : g.lo + g.w ≤ f.lo ∨ f.lo + f.w ≤ g.lo) : (ch.put f v).get g = ch.get g := by
  have hw : ch.word g = ch.word f := by simp [ChanState.word, ho, hr]
  simp only [ChanState.get, ChanState.word_put_same ch f g v ho hr, toNat_insertBits _ _ _ _ hf, hw]
  rcases h with h | h
  · exact insertBits_below _ _ _ _ _ _ h
  · exact insertBits_above _ _ _ _ _ _ h

/-- Every reading of a field is below its width's bound. -/
theorem ChanState.get_lt (ch : ChanState) (f : RF) : ch.get f < 2 ^ f.w := Nat.mod_lt _ (Nat.two_pow_pos _)

/-- Registers as a table: what reads of fields depend on. -/
theorem ChanState.get_congr {a b : ChanState} (h : a.regs = b.regs) (f : RF) : a.get f = b.get f := by
  simp only [ChanState.get, ChanState.word, h]

/-- A write keeps the canonical form of the register table, entry by entry at its own reset value. -/
theorem ChanState.rising_putWord (ch : ChanState) (f : RF) (v : Word) (h : Tab.risingFrom 0 ch.regs = true) :
    Tab.risingFrom 0 (ch.putWord f v).regs = true := by
  simp only [ChanState.putWord, Tab.set]
  split
  · exact Tab.risingFrom_erase _ _ _ h
  · exact Tab.risingFrom_insert _ _ _ _ (Nat.zero_le _) (Tab.risingFrom_erase _ _ _ h) (Tab.erase_free _ _)

end Sys2Proof.Machine
end

