-- ==== Sys2Proof/Laws/State.lean ====
section
/-!
SUPPORT. Laws of the state: each field after each update, the channels of the package, what a live command does.
-/
namespace Sys2Proof.Machine

open Sys2Proof

/-! ### Updates in one spelling: a field write is `put` -/

@[simp] theorem ChanState.add_put (ch : ChanState) (f : RF) (n : Nat) : ch.add f n = ch.put f (ch.get f + n) := rfl
@[simp] theorem ChanState.putb_put (ch : ChanState) (f : RF) (b : Bool) : ch.putb f b = ch.put f (b2n b) := rfl
@[simp] theorem ChanState.puti_put (ch : ChanState) (f : RF) (v : Int) : ch.puti f v = ch.put f (ofInt f.w v) := rfl
@[simp] theorem ChanState.setBit_put (ch : ChanState) (f : RF) (i : Nat) (b : Bool) :
    ch.setBit f i b = ch.put f (insertBits (ch.get f) i 1 (b2n b)) := rfl
@[simp] theorem ChanState.put64_put (ch : ChanState) (p : RP) (v : Nat) :
    ch.put64 p v = (ch.put p.low v).put p.high (v / 2 ^ 32) := rfl
@[simp] theorem ChanState.puti64_put (ch : ChanState) (p : RP) (v : Int) : ch.puti64 p v = ch.put64 p (ofInt 64 v) := rfl
@[simp] theorem b2n_true : b2n true = 1 := rfl
@[simp] theorem b2n_false : b2n false = 0 := rfl

/-! ### Fields after a field write -/

/-- The channel with another register table; what `put` unfolds to. -/
def ChanState.withRegs (ch : ChanState) (t : Tab Word) : ChanState := { ch with regs := t }
theorem ChanState.put_withRegs (ch : ChanState) (f : RF) (v : Nat) :
    ch.put f v = ch.withRegs (Tab.set ch.regs (BitVec.ofNat 32 f.rst) f.ofs (BitVec.ofNat 32 (insertBits (ch.word f).toNat f.lo f.w v))) := rfl

theorem ChanState.withRegs_id (ch : ChanState) (t : Tab Word) : ChanState.id (ChanState.withRegs ch t) = ch.id := rfl
@[simp] theorem ChanState.put_id (ch : ChanState) (r : RF) (v : Nat) : (ch.put r v).id = ch.id := by rw [ChanState.put_withRegs, ChanState.withRegs_id]
theorem ChanState.withRegs_devid (ch : ChanState) (t : Tab Word) : ChanState.devid (ChanState.withRegs ch t) = ch.devid := rfl
@[simp] theorem ChanState.put_devid (ch : ChanState) (r : RF) (v : Nat) : (ch.put r v).devid = ch.devid := by rw [ChanState.put_withRegs, ChanState.withRegs_devid]
theorem ChanState.withRegs_ct (ch : ChanState) (t : Tab Word) : ChanState.ct (ChanState.withRegs ch t) = ch.ct := rfl
@[simp] theorem ChanState.put_ct (ch : ChanState) (r : RF) (v : Nat) : (ch.put r v).ct = ch.ct := by rw [ChanState.put_withRegs, ChanState.withRegs_ct]
theorem ChanState.withRegs_pt1 (ch : ChanState) (t : Tab Word) : ChanState.pt1 (ChanState.withRegs ch t) = ch.pt1 := rfl
@[simp] theorem ChanState.put_pt1 (ch : ChanState) (r : RF) (v : Nat) : (ch.put r v).pt1 = ch.pt1 := by rw [ChanState.put_withRegs, ChanState.withRegs_pt1]
theorem ChanState.withRegs_pt2 (ch : ChanState) (t : Tab Word) : ChanState.pt2 (ChanState.withRegs ch t) = ch.pt2 := rfl
@[simp] theorem ChanState.put_pt2 (ch : ChanState) (r : RF) (v : Nat) : (ch.put r v).pt2 = ch.pt2 := by rw [ChanState.put_withRegs, ChanState.withRegs_pt2]
theorem ChanState.withRegs_mono (ch : ChanState) (t : Tab Word) : ChanState.mono (ChanState.withRegs ch t) = ch.mono := rfl
@[simp] theorem ChanState.put_mono (ch : ChanState) (r : RF) (v : Nat) : (ch.put r v).mono = ch.mono := by rw [ChanState.put_withRegs, ChanState.withRegs_mono]
theorem ChanState.withRegs_tev (ch : ChanState) (t : Tab Word) : ChanState.tev (ChanState.withRegs ch t) = ch.tev := rfl
@[simp] theorem ChanState.put_tev (ch : ChanState) (r : RF) (v : Nat) : (ch.put r v).tev = ch.tev := by rw [ChanState.put_withRegs, ChanState.withRegs_tev]
theorem ChanState.withRegs_ptp (ch : ChanState) (t : Tab Word) : ChanState.ptp (ChanState.withRegs ch t) = ch.ptp := rfl
@[simp] theorem ChanState.put_ptp (ch : ChanState) (r : RF) (v : Nat) : (ch.put r v).ptp = ch.ptp := by rw [ChanState.put_withRegs, ChanState.withRegs_ptp]
theorem ChanState.withRegs_flt (ch : ChanState) (t : Tab Word) : ChanState.flt (ChanState.withRegs ch t) = ch.flt := rfl
@[simp] theorem ChanState.put_flt (ch : ChanState) (r : RF) (v : Nat) : (ch.put r v).flt = ch.flt := by rw [ChanState.put_withRegs, ChanState.withRegs_flt]
theorem ChanState.withRegs_trc (ch : ChanState) (t : Tab Word) : ChanState.trc (ChanState.withRegs ch t) = ch.trc := rfl
@[simp] theorem ChanState.put_trc (ch : ChanState) (r : RF) (v : Nat) : (ch.put r v).trc = ch.trc := by rw [ChanState.put_withRegs, ChanState.withRegs_trc]
theorem ChanState.withRegs_sent (ch : ChanState) (t : Tab Word) : ChanState.sent (ChanState.withRegs ch t) = ch.sent := rfl
@[simp] theorem ChanState.put_sent (ch : ChanState) (r : RF) (v : Nat) : (ch.put r v).sent = ch.sent := by rw [ChanState.put_withRegs, ChanState.withRegs_sent]
theorem ChanState.withRegs_fresh (ch : ChanState) (t : Tab Word) : ChanState.fresh (ChanState.withRegs ch t) = ch.fresh := rfl
@[simp] theorem ChanState.put_fresh (ch : ChanState) (r : RF) (v : Nat) : (ch.put r v).fresh = ch.fresh := by rw [ChanState.put_withRegs, ChanState.withRegs_fresh]
theorem ChanState.withRegs_goingReady (ch : ChanState) (t : Tab Word) : ChanState.goingReady (ChanState.withRegs ch t) = ch.goingReady := rfl
@[simp] theorem ChanState.put_goingReady (ch : ChanState) (r : RF) (v : Nat) : (ch.put r v).goingReady = ch.goingReady := by rw [ChanState.put_withRegs, ChanState.withRegs_goingReady]
theorem ChanState.withRegs_arms (ch : ChanState) (t : Tab Word) : ChanState.arms (ChanState.withRegs ch t) = ch.arms := rfl
@[simp] theorem ChanState.put_arms (ch : ChanState) (r : RF) (v : Nat) : (ch.put r v).arms = ch.arms := by rw [ChanState.put_withRegs, ChanState.withRegs_arms]
theorem ChanState.withRegs_joints (ch : ChanState) (t : Tab Word) : ChanState.joints (ChanState.withRegs ch t) = ch.joints := rfl
@[simp] theorem ChanState.put_joints (ch : ChanState) (r : RF) (v : Nat) : (ch.put r v).joints = ch.joints := by rw [ChanState.put_withRegs, ChanState.withRegs_joints]
theorem ChanState.withRegs_cmps (ch : ChanState) (t : Tab Word) : ChanState.cmps (ChanState.withRegs ch t) = ch.cmps := rfl
@[simp] theorem ChanState.put_cmps (ch : ChanState) (r : RF) (v : Nat) : (ch.put r v).cmps = ch.cmps := by rw [ChanState.put_withRegs, ChanState.withRegs_cmps]
theorem ChanState.withRegs_vm (ch : ChanState) (t : Tab Word) : ChanState.vm (ChanState.withRegs ch t) = ch.vm := rfl
@[simp] theorem ChanState.put_vm (ch : ChanState) (r : RF) (v : Nat) : (ch.put r v).vm = ch.vm := by rw [ChanState.put_withRegs, ChanState.withRegs_vm]
theorem ChanState.withRegs_pool (ch : ChanState) (t : Tab Word) : ChanState.pool (ChanState.withRegs ch t) = ch.pool := rfl
@[simp] theorem ChanState.put_pool (ch : ChanState) (r : RF) (v : Nat) : (ch.put r v).pool = ch.pool := by rw [ChanState.put_withRegs, ChanState.withRegs_pool]
theorem ChanState.withRegs_sch (ch : ChanState) (t : Tab Word) : ChanState.sch (ChanState.withRegs ch t) = ch.sch := rfl
@[simp] theorem ChanState.put_sch (ch : ChanState) (r : RF) (v : Nat) : (ch.put r v).sch = ch.sch := by rw [ChanState.put_withRegs, ChanState.withRegs_sch]
theorem ChanState.withRegs_engines (ch : ChanState) (t : Tab Word) : ChanState.engines (ChanState.withRegs ch t) = ch.engines := rfl
@[simp] theorem ChanState.put_engines (ch : ChanState) (r : RF) (v : Nat) : (ch.put r v).engines = ch.engines := by rw [ChanState.put_withRegs, ChanState.withRegs_engines]
theorem ChanState.withRegs_prog (ch : ChanState) (t : Tab Word) : ChanState.prog (ChanState.withRegs ch t) = ch.prog := rfl
@[simp] theorem ChanState.put_prog (ch : ChanState) (r : RF) (v : Nat) : (ch.put r v).prog = ch.prog := by rw [ChanState.put_withRegs, ChanState.withRegs_prog]
theorem ChanState.withRegs_rst (ch : ChanState) (t : Tab Word) : ChanState.rst (ChanState.withRegs ch t) = ch.rst := rfl
@[simp] theorem ChanState.put_rst (ch : ChanState) (r : RF) (v : Nat) : (ch.put r v).rst = ch.rst := by rw [ChanState.put_withRegs, ChanState.withRegs_rst]
theorem ChanState.withRegs_bcDone (ch : ChanState) (t : Tab Word) : ChanState.bcDone (ChanState.withRegs ch t) = ch.bcDone := rfl
@[simp] theorem ChanState.put_bcDone (ch : ChanState) (r : RF) (v : Nat) : (ch.put r v).bcDone = ch.bcDone := by rw [ChanState.put_withRegs, ChanState.withRegs_bcDone]
theorem ChanState.withRegs_pevT (ch : ChanState) (t : Tab Word) : ChanState.pevT (ChanState.withRegs ch t) = ch.pevT := rfl
@[simp] theorem ChanState.put_pevT (ch : ChanState) (r : RF) (v : Nat) : (ch.put r v).pevT = ch.pevT := by rw [ChanState.put_withRegs, ChanState.withRegs_pevT]
theorem ChanState.withRegs_loaded (ch : ChanState) (t : Tab Word) : ChanState.loaded (ChanState.withRegs ch t) = ch.loaded := rfl
@[simp] theorem ChanState.put_loaded (ch : ChanState) (r : RF) (v : Nat) : (ch.put r v).loaded = ch.loaded := by rw [ChanState.put_withRegs, ChanState.withRegs_loaded]
theorem ChanState.withRegs_enc (ch : ChanState) (t : Tab Word) : ChanState.enc (ChanState.withRegs ch t) = ch.enc := rfl
@[simp] theorem ChanState.put_enc (ch : ChanState) (r : RF) (v : Nat) : (ch.put r v).enc = ch.enc := by rw [ChanState.put_withRegs, ChanState.withRegs_enc]
theorem ChanState.withRegs_rem (ch : ChanState) (t : Tab Word) : ChanState.rem (ChanState.withRegs ch t) = ch.rem := rfl
@[simp] theorem ChanState.put_rem (ch : ChanState) (r : RF) (v : Nat) : (ch.put r v).rem = ch.rem := by rw [ChanState.put_withRegs, ChanState.withRegs_rem]
theorem ChanState.withRegs_dpo (ch : ChanState) (t : Tab Word) : ChanState.dpo (ChanState.withRegs ch t) = ch.dpo := rfl
@[simp] theorem ChanState.put_dpo (ch : ChanState) (r : RF) (v : Nat) : (ch.put r v).dpo = ch.dpo := by rw [ChanState.put_withRegs, ChanState.withRegs_dpo]
theorem ChanState.withRegs_jsp (ch : ChanState) (t : Tab Word) : ChanState.jsp (ChanState.withRegs ch t) = ch.jsp := rfl
@[simp] theorem ChanState.put_jsp (ch : ChanState) (r : RF) (v : Nat) : (ch.put r v).jsp = ch.jsp := by rw [ChanState.put_withRegs, ChanState.withRegs_jsp]
theorem ChanState.withRegs_pwm (ch : ChanState) (t : Tab Word) : ChanState.pwm (ChanState.withRegs ch t) = ch.pwm := rfl
@[simp] theorem ChanState.put_pwm (ch : ChanState) (r : RF) (v : Nat) : (ch.put r v).pwm = ch.pwm := by rw [ChanState.put_withRegs, ChanState.withRegs_pwm]
theorem ChanState.withRegs_stp (ch : ChanState) (t : Tab Word) : ChanState.stp (ChanState.withRegs ch t) = ch.stp := rfl
@[simp] theorem ChanState.put_stp (ch : ChanState) (r : RF) (v : Nat) : (ch.put r v).stp = ch.stp := by rw [ChanState.put_withRegs, ChanState.withRegs_stp]
theorem ChanState.withRegs_bricks (ch : ChanState) (t : Tab Word) : ChanState.bricks (ChanState.withRegs ch t) = ch.bricks := rfl
@[simp] theorem ChanState.put_bricks (ch : ChanState) (r : RF) (v : Nat) : (ch.put r v).bricks = ch.bricks := by rw [ChanState.put_withRegs, ChanState.withRegs_bricks]
theorem ChanState.withRegs_ring (ch : ChanState) (t : Tab Word) : ChanState.ring (ChanState.withRegs ch t) = ch.ring := rfl
@[simp] theorem ChanState.put_ring (ch : ChanState) (r : RF) (v : Nat) : (ch.put r v).ring = ch.ring := by rw [ChanState.put_withRegs, ChanState.withRegs_ring]
theorem ChanState.withRegs_lockMark (ch : ChanState) (t : Tab Word) : ChanState.lockMark (ChanState.withRegs ch t) = ch.lockMark := rfl
@[simp] theorem ChanState.put_lockMark (ch : ChanState) (r : RF) (v : Nat) : (ch.put r v).lockMark = ch.lockMark := by rw [ChanState.put_withRegs, ChanState.withRegs_lockMark]
theorem ChanState.withRegs_saf (ch : ChanState) (t : Tab Word) : ChanState.saf (ChanState.withRegs ch t) = ch.saf := rfl
@[simp] theorem ChanState.put_saf (ch : ChanState) (r : RF) (v : Nat) : (ch.put r v).saf = ch.saf := by rw [ChanState.put_withRegs, ChanState.withRegs_saf]
theorem ChanState.withRegs_scx (ch : ChanState) (t : Tab Word) : ChanState.scx (ChanState.withRegs ch t) = ch.scx := rfl
@[simp] theorem ChanState.put_scx (ch : ChanState) (r : RF) (v : Nat) : (ch.put r v).scx = ch.scx := by rw [ChanState.put_withRegs, ChanState.withRegs_scx]
theorem ChanState.withRegs_sep (ch : ChanState) (t : Tab Word) : ChanState.sep (ChanState.withRegs ch t) = ch.sep := rfl
@[simp] theorem ChanState.put_sep (ch : ChanState) (r : RF) (v : Nat) : (ch.put r v).sep = ch.sep := by rw [ChanState.put_withRegs, ChanState.withRegs_sep]
theorem ChanState.withRegs_smem (ch : ChanState) (t : Tab Word) : ChanState.smem (ChanState.withRegs ch t) = ch.smem := rfl
@[simp] theorem ChanState.put_smem (ch : ChanState) (r : RF) (v : Nat) : (ch.put r v).smem = ch.smem := by rw [ChanState.put_withRegs, ChanState.withRegs_smem]
theorem ChanState.withRegs_cb (ch : ChanState) (t : Tab Word) : ChanState.cb (ChanState.withRegs ch t) = ch.cb := rfl
@[simp] theorem ChanState.put_cb (ch : ChanState) (r : RF) (v : Nat) : (ch.put r v).cb = ch.cb := by rw [ChanState.put_withRegs, ChanState.withRegs_cb]
theorem ChanState.withRegs_red (ch : ChanState) (t : Tab Word) : ChanState.red (ChanState.withRegs ch t) = ch.red := rfl
@[simp] theorem ChanState.put_red (ch : ChanState) (r : RF) (v : Nat) : (ch.put r v).red = ch.red := by rw [ChanState.put_withRegs, ChanState.withRegs_red]
theorem ChanState.withRegs_nvm (ch : ChanState) (t : Tab Word) : ChanState.nvm (ChanState.withRegs ch t) = ch.nvm := rfl
@[simp] theorem ChanState.put_nvm (ch : ChanState) (r : RF) (v : Nat) : (ch.put r v).nvm = ch.nvm := by rw [ChanState.put_withRegs, ChanState.withRegs_nvm]
theorem ChanState.withRegs_cfg (ch : ChanState) (t : Tab Word) : ChanState.cfg (ChanState.withRegs ch t) = ch.cfg := rfl
@[simp] theorem ChanState.put_cfg (ch : ChanState) (r : RF) (v : Nat) : (ch.put r v).cfg = ch.cfg := by rw [ChanState.put_withRegs, ChanState.withRegs_cfg]
theorem ChanState.withRegs_cps (ch : ChanState) (t : Tab Word) : ChanState.cps (ChanState.withRegs ch t) = ch.cps := rfl
@[simp] theorem ChanState.put_cps (ch : ChanState) (r : RF) (v : Nat) : (ch.put r v).cps = ch.cps := by rw [ChanState.put_withRegs, ChanState.withRegs_cps]
theorem ChanState.withRegs_readyAt (ch : ChanState) (t : Tab Word) : ChanState.readyAt (ChanState.withRegs ch t) = ch.readyAt := rfl
@[simp] theorem ChanState.put_readyAt (ch : ChanState) (r : RF) (v : Nat) : (ch.put r v).readyAt = ch.readyAt := by rw [ChanState.put_withRegs, ChanState.withRegs_readyAt]
theorem ChanState.withRegs_fn (ch : ChanState) (t : Tab Word) : ChanState.fn (ChanState.withRegs ch t) = ch.fn := rfl
@[simp] theorem ChanState.put_fn (ch : ChanState) (r : RF) (v : Nat) : (ch.put r v).fn = ch.fn := by rw [ChanState.put_withRegs, ChanState.withRegs_fn]
theorem ChanState.withRegs_lehr (ch : ChanState) (t : Tab Word) : ChanState.lehr (ChanState.withRegs ch t) = ch.lehr := rfl
@[simp] theorem ChanState.put_lehr (ch : ChanState) (r : RF) (v : Nat) : (ch.put r v).lehr = ch.lehr := by rw [ChanState.put_withRegs, ChanState.withRegs_lehr]
theorem ChanState.withRegs_slv (ch : ChanState) (t : Tab Word) : ChanState.slv (ChanState.withRegs ch t) = ch.slv := rfl
@[simp] theorem ChanState.put_slv (ch : ChanState) (r : RF) (v : Nat) : (ch.put r v).slv = ch.slv := by rw [ChanState.put_withRegs, ChanState.withRegs_slv]

/-! ### Fields after setArm -/

@[simp] theorem ChanState.setArm_regs (ch : ChanState) (k : Nat) (a : Arm) : (ch.setArm k a).regs = ch.regs := rfl
@[simp] theorem ChanState.setArm_id (ch : ChanState) (k : Nat) (a : Arm) : (ch.setArm k a).id = ch.id := rfl
@[simp] theorem ChanState.setArm_devid (ch : ChanState) (k : Nat) (a : Arm) : (ch.setArm k a).devid = ch.devid := rfl
@[simp] theorem ChanState.setArm_ct (ch : ChanState) (k : Nat) (a : Arm) : (ch.setArm k a).ct = ch.ct := rfl
@[simp] theorem ChanState.setArm_pt1 (ch : ChanState) (k : Nat) (a : Arm) : (ch.setArm k a).pt1 = ch.pt1 := rfl
@[simp] theorem ChanState.setArm_pt2 (ch : ChanState) (k : Nat) (a : Arm) : (ch.setArm k a).pt2 = ch.pt2 := rfl
@[simp] theorem ChanState.setArm_mono (ch : ChanState) (k : Nat) (a : Arm) : (ch.setArm k a).mono = ch.mono := rfl
@[simp] theorem ChanState.setArm_tev (ch : ChanState) (k : Nat) (a : Arm) : (ch.setArm k a).tev = ch.tev := rfl
@[simp] theorem ChanState.setArm_ptp (ch : ChanState) (k : Nat) (a : Arm) : (ch.setArm k a).ptp = ch.ptp := rfl
@[simp] theorem ChanState.setArm_flt (ch : ChanState) (k : Nat) (a : Arm) : (ch.setArm k a).flt = ch.flt := rfl
@[simp] theorem ChanState.setArm_trc (ch : ChanState) (k : Nat) (a : Arm) : (ch.setArm k a).trc = ch.trc := rfl
@[simp] theorem ChanState.setArm_sent (ch : ChanState) (k : Nat) (a : Arm) : (ch.setArm k a).sent = ch.sent := rfl
@[simp] theorem ChanState.setArm_fresh (ch : ChanState) (k : Nat) (a : Arm) : (ch.setArm k a).fresh = ch.fresh := rfl
@[simp] theorem ChanState.setArm_goingReady (ch : ChanState) (k : Nat) (a : Arm) : (ch.setArm k a).goingReady = ch.goingReady := rfl
@[simp] theorem ChanState.setArm_joints (ch : ChanState) (k : Nat) (a : Arm) : (ch.setArm k a).joints = ch.joints := rfl
@[simp] theorem ChanState.setArm_cmps (ch : ChanState) (k : Nat) (a : Arm) : (ch.setArm k a).cmps = ch.cmps := rfl
@[simp] theorem ChanState.setArm_vm (ch : ChanState) (k : Nat) (a : Arm) : (ch.setArm k a).vm = ch.vm := rfl
@[simp] theorem ChanState.setArm_pool (ch : ChanState) (k : Nat) (a : Arm) : (ch.setArm k a).pool = ch.pool := rfl
@[simp] theorem ChanState.setArm_sch (ch : ChanState) (k : Nat) (a : Arm) : (ch.setArm k a).sch = ch.sch := rfl
@[simp] theorem ChanState.setArm_engines (ch : ChanState) (k : Nat) (a : Arm) : (ch.setArm k a).engines = ch.engines := rfl
@[simp] theorem ChanState.setArm_prog (ch : ChanState) (k : Nat) (a : Arm) : (ch.setArm k a).prog = ch.prog := rfl
@[simp] theorem ChanState.setArm_rst (ch : ChanState) (k : Nat) (a : Arm) : (ch.setArm k a).rst = ch.rst := rfl
@[simp] theorem ChanState.setArm_bcDone (ch : ChanState) (k : Nat) (a : Arm) : (ch.setArm k a).bcDone = ch.bcDone := rfl
@[simp] theorem ChanState.setArm_pevT (ch : ChanState) (k : Nat) (a : Arm) : (ch.setArm k a).pevT = ch.pevT := rfl
@[simp] theorem ChanState.setArm_loaded (ch : ChanState) (k : Nat) (a : Arm) : (ch.setArm k a).loaded = ch.loaded := rfl
@[simp] theorem ChanState.setArm_enc (ch : ChanState) (k : Nat) (a : Arm) : (ch.setArm k a).enc = ch.enc := rfl
@[simp] theorem ChanState.setArm_rem (ch : ChanState) (k : Nat) (a : Arm) : (ch.setArm k a).rem = ch.rem := rfl
@[simp] theorem ChanState.setArm_dpo (ch : ChanState) (k : Nat) (a : Arm) : (ch.setArm k a).dpo = ch.dpo := rfl
@[simp] theorem ChanState.setArm_jsp (ch : ChanState) (k : Nat) (a : Arm) : (ch.setArm k a).jsp = ch.jsp := rfl
@[simp] theorem ChanState.setArm_pwm (ch : ChanState) (k : Nat) (a : Arm) : (ch.setArm k a).pwm = ch.pwm := rfl
@[simp] theorem ChanState.setArm_stp (ch : ChanState) (k : Nat) (a : Arm) : (ch.setArm k a).stp = ch.stp := rfl
@[simp] theorem ChanState.setArm_bricks (ch : ChanState) (k : Nat) (a : Arm) : (ch.setArm k a).bricks = ch.bricks := rfl
@[simp] theorem ChanState.setArm_ring (ch : ChanState) (k : Nat) (a : Arm) : (ch.setArm k a).ring = ch.ring := rfl
@[simp] theorem ChanState.setArm_lockMark (ch : ChanState) (k : Nat) (a : Arm) : (ch.setArm k a).lockMark = ch.lockMark := rfl
@[simp] theorem ChanState.setArm_saf (ch : ChanState) (k : Nat) (a : Arm) : (ch.setArm k a).saf = ch.saf := rfl
@[simp] theorem ChanState.setArm_scx (ch : ChanState) (k : Nat) (a : Arm) : (ch.setArm k a).scx = ch.scx := rfl
@[simp] theorem ChanState.setArm_sep (ch : ChanState) (k : Nat) (a : Arm) : (ch.setArm k a).sep = ch.sep := rfl
@[simp] theorem ChanState.setArm_smem (ch : ChanState) (k : Nat) (a : Arm) : (ch.setArm k a).smem = ch.smem := rfl
@[simp] theorem ChanState.setArm_cb (ch : ChanState) (k : Nat) (a : Arm) : (ch.setArm k a).cb = ch.cb := rfl
@[simp] theorem ChanState.setArm_red (ch : ChanState) (k : Nat) (a : Arm) : (ch.setArm k a).red = ch.red := rfl
@[simp] theorem ChanState.setArm_nvm (ch : ChanState) (k : Nat) (a : Arm) : (ch.setArm k a).nvm = ch.nvm := rfl
@[simp] theorem ChanState.setArm_cfg (ch : ChanState) (k : Nat) (a : Arm) : (ch.setArm k a).cfg = ch.cfg := rfl
@[simp] theorem ChanState.setArm_cps (ch : ChanState) (k : Nat) (a : Arm) : (ch.setArm k a).cps = ch.cps := rfl
@[simp] theorem ChanState.setArm_readyAt (ch : ChanState) (k : Nat) (a : Arm) : (ch.setArm k a).readyAt = ch.readyAt := rfl
@[simp] theorem ChanState.setArm_fn (ch : ChanState) (k : Nat) (a : Arm) : (ch.setArm k a).fn = ch.fn := rfl
@[simp] theorem ChanState.setArm_lehr (ch : ChanState) (k : Nat) (a : Arm) : (ch.setArm k a).lehr = ch.lehr := rfl
@[simp] theorem ChanState.setArm_slv (ch : ChanState) (k : Nat) (a : Arm) : (ch.setArm k a).slv = ch.slv := rfl
@[simp] theorem ChanState.setArm_word (ch : ChanState) (k : Nat) (a : Arm) (f : RF) : (ch.setArm k a).word f = ch.word f := rfl
@[simp] theorem ChanState.setArm_get (ch : ChanState) (k : Nat) (a : Arm) (f : RF) : (ch.setArm k a).get f = ch.get f := rfl

/-! ### Fields after setJoint -/

@[simp] theorem ChanState.setJoint_regs (ch : ChanState) (j : Nat) (x : Joint) : (ch.setJoint j x).regs = ch.regs := rfl
@[simp] theorem ChanState.setJoint_id (ch : ChanState) (j : Nat) (x : Joint) : (ch.setJoint j x).id = ch.id := rfl
@[simp] theorem ChanState.setJoint_devid (ch : ChanState) (j : Nat) (x : Joint) : (ch.setJoint j x).devid = ch.devid := rfl
@[simp] theorem ChanState.setJoint_ct (ch : ChanState) (j : Nat) (x : Joint) : (ch.setJoint j x).ct = ch.ct := rfl
@[simp] theorem ChanState.setJoint_pt1 (ch : ChanState) (j : Nat) (x : Joint) : (ch.setJoint j x).pt1 = ch.pt1 := rfl
@[simp] theorem ChanState.setJoint_pt2 (ch : ChanState) (j : Nat) (x : Joint) : (ch.setJoint j x).pt2 = ch.pt2 := rfl
@[simp] theorem ChanState.setJoint_mono (ch : ChanState) (j : Nat) (x : Joint) : (ch.setJoint j x).mono = ch.mono := rfl
@[simp] theorem ChanState.setJoint_tev (ch : ChanState) (j : Nat) (x : Joint) : (ch.setJoint j x).tev = ch.tev := rfl
@[simp] theorem ChanState.setJoint_ptp (ch : ChanState) (j : Nat) (x : Joint) : (ch.setJoint j x).ptp = ch.ptp := rfl
@[simp] theorem ChanState.setJoint_flt (ch : ChanState) (j : Nat) (x : Joint) : (ch.setJoint j x).flt = ch.flt := rfl
@[simp] theorem ChanState.setJoint_trc (ch : ChanState) (j : Nat) (x : Joint) : (ch.setJoint j x).trc = ch.trc := rfl
@[simp] theorem ChanState.setJoint_sent (ch : ChanState) (j : Nat) (x : Joint) : (ch.setJoint j x).sent = ch.sent := rfl
@[simp] theorem ChanState.setJoint_fresh (ch : ChanState) (j : Nat) (x : Joint) : (ch.setJoint j x).fresh = ch.fresh := rfl
@[simp] theorem ChanState.setJoint_goingReady (ch : ChanState) (j : Nat) (x : Joint) : (ch.setJoint j x).goingReady = ch.goingReady := rfl
@[simp] theorem ChanState.setJoint_arms (ch : ChanState) (j : Nat) (x : Joint) : (ch.setJoint j x).arms = ch.arms := rfl
@[simp] theorem ChanState.setJoint_cmps (ch : ChanState) (j : Nat) (x : Joint) : (ch.setJoint j x).cmps = ch.cmps := rfl
@[simp] theorem ChanState.setJoint_vm (ch : ChanState) (j : Nat) (x : Joint) : (ch.setJoint j x).vm = ch.vm := rfl
@[simp] theorem ChanState.setJoint_pool (ch : ChanState) (j : Nat) (x : Joint) : (ch.setJoint j x).pool = ch.pool := rfl
@[simp] theorem ChanState.setJoint_sch (ch : ChanState) (j : Nat) (x : Joint) : (ch.setJoint j x).sch = ch.sch := rfl
@[simp] theorem ChanState.setJoint_engines (ch : ChanState) (j : Nat) (x : Joint) : (ch.setJoint j x).engines = ch.engines := rfl
@[simp] theorem ChanState.setJoint_prog (ch : ChanState) (j : Nat) (x : Joint) : (ch.setJoint j x).prog = ch.prog := rfl
@[simp] theorem ChanState.setJoint_rst (ch : ChanState) (j : Nat) (x : Joint) : (ch.setJoint j x).rst = ch.rst := rfl
@[simp] theorem ChanState.setJoint_bcDone (ch : ChanState) (j : Nat) (x : Joint) : (ch.setJoint j x).bcDone = ch.bcDone := rfl
@[simp] theorem ChanState.setJoint_pevT (ch : ChanState) (j : Nat) (x : Joint) : (ch.setJoint j x).pevT = ch.pevT := rfl
@[simp] theorem ChanState.setJoint_loaded (ch : ChanState) (j : Nat) (x : Joint) : (ch.setJoint j x).loaded = ch.loaded := rfl
@[simp] theorem ChanState.setJoint_enc (ch : ChanState) (j : Nat) (x : Joint) : (ch.setJoint j x).enc = ch.enc := rfl
@[simp] theorem ChanState.setJoint_rem (ch : ChanState) (j : Nat) (x : Joint) : (ch.setJoint j x).rem = ch.rem := rfl
@[simp] theorem ChanState.setJoint_dpo (ch : ChanState) (j : Nat) (x : Joint) : (ch.setJoint j x).dpo = ch.dpo := rfl
@[simp] theorem ChanState.setJoint_jsp (ch : ChanState) (j : Nat) (x : Joint) : (ch.setJoint j x).jsp = ch.jsp := rfl
@[simp] theorem ChanState.setJoint_pwm (ch : ChanState) (j : Nat) (x : Joint) : (ch.setJoint j x).pwm = ch.pwm := rfl
@[simp] theorem ChanState.setJoint_stp (ch : ChanState) (j : Nat) (x : Joint) : (ch.setJoint j x).stp = ch.stp := rfl
@[simp] theorem ChanState.setJoint_bricks (ch : ChanState) (j : Nat) (x : Joint) : (ch.setJoint j x).bricks = ch.bricks := rfl
@[simp] theorem ChanState.setJoint_ring (ch : ChanState) (j : Nat) (x : Joint) : (ch.setJoint j x).ring = ch.ring := rfl
@[simp] theorem ChanState.setJoint_lockMark (ch : ChanState) (j : Nat) (x : Joint) : (ch.setJoint j x).lockMark = ch.lockMark := rfl
@[simp] theorem ChanState.setJoint_saf (ch : ChanState) (j : Nat) (x : Joint) : (ch.setJoint j x).saf = ch.saf := rfl
@[simp] theorem ChanState.setJoint_scx (ch : ChanState) (j : Nat) (x : Joint) : (ch.setJoint j x).scx = ch.scx := rfl
@[simp] theorem ChanState.setJoint_sep (ch : ChanState) (j : Nat) (x : Joint) : (ch.setJoint j x).sep = ch.sep := rfl
@[simp] theorem ChanState.setJoint_smem (ch : ChanState) (j : Nat) (x : Joint) : (ch.setJoint j x).smem = ch.smem := rfl
@[simp] theorem ChanState.setJoint_cb (ch : ChanState) (j : Nat) (x : Joint) : (ch.setJoint j x).cb = ch.cb := rfl
@[simp] theorem ChanState.setJoint_red (ch : ChanState) (j : Nat) (x : Joint) : (ch.setJoint j x).red = ch.red := rfl
@[simp] theorem ChanState.setJoint_nvm (ch : ChanState) (j : Nat) (x : Joint) : (ch.setJoint j x).nvm = ch.nvm := rfl
@[simp] theorem ChanState.setJoint_cfg (ch : ChanState) (j : Nat) (x : Joint) : (ch.setJoint j x).cfg = ch.cfg := rfl
@[simp] theorem ChanState.setJoint_cps (ch : ChanState) (j : Nat) (x : Joint) : (ch.setJoint j x).cps = ch.cps := rfl
@[simp] theorem ChanState.setJoint_readyAt (ch : ChanState) (j : Nat) (x : Joint) : (ch.setJoint j x).readyAt = ch.readyAt := rfl
@[simp] theorem ChanState.setJoint_fn (ch : ChanState) (j : Nat) (x : Joint) : (ch.setJoint j x).fn = ch.fn := rfl
@[simp] theorem ChanState.setJoint_lehr (ch : ChanState) (j : Nat) (x : Joint) : (ch.setJoint j x).lehr = ch.lehr := rfl
@[simp] theorem ChanState.setJoint_slv (ch : ChanState) (j : Nat) (x : Joint) : (ch.setJoint j x).slv = ch.slv := rfl
@[simp] theorem ChanState.setJoint_word (ch : ChanState) (j : Nat) (x : Joint) (f : RF) : (ch.setJoint j x).word f = ch.word f := rfl
@[simp] theorem ChanState.setJoint_get (ch : ChanState) (j : Nat) (x : Joint) (f : RF) : (ch.setJoint j x).get f = ch.get f := rfl

/-! ### Fields after setEngine -/

@[simp] theorem ChanState.setEngine_regs (ch : ChanState) (n : Nat) (e : Engine) : (ch.setEngine n e).regs = ch.regs := rfl
@[simp] theorem ChanState.setEngine_id (ch : ChanState) (n : Nat) (e : Engine) : (ch.setEngine n e).id = ch.id := rfl
@[simp] theorem ChanState.setEngine_devid (ch : ChanState) (n : Nat) (e : Engine) : (ch.setEngine n e).devid = ch.devid := rfl
@[simp] theorem ChanState.setEngine_ct (ch : ChanState) (n : Nat) (e : Engine) : (ch.setEngine n e).ct = ch.ct := rfl
@[simp] theorem ChanState.setEngine_pt1 (ch : ChanState) (n : Nat) (e : Engine) : (ch.setEngine n e).pt1 = ch.pt1 := rfl
@[simp] theorem ChanState.setEngine_pt2 (ch : ChanState) (n : Nat) (e : Engine) : (ch.setEngine n e).pt2 = ch.pt2 := rfl
@[simp] theorem ChanState.setEngine_mono (ch : ChanState) (n : Nat) (e : Engine) : (ch.setEngine n e).mono = ch.mono := rfl
@[simp] theorem ChanState.setEngine_tev (ch : ChanState) (n : Nat) (e : Engine) : (ch.setEngine n e).tev = ch.tev := rfl
@[simp] theorem ChanState.setEngine_ptp (ch : ChanState) (n : Nat) (e : Engine) : (ch.setEngine n e).ptp = ch.ptp := rfl
@[simp] theorem ChanState.setEngine_flt (ch : ChanState) (n : Nat) (e : Engine) : (ch.setEngine n e).flt = ch.flt := rfl
@[simp] theorem ChanState.setEngine_trc (ch : ChanState) (n : Nat) (e : Engine) : (ch.setEngine n e).trc = ch.trc := rfl
@[simp] theorem ChanState.setEngine_sent (ch : ChanState) (n : Nat) (e : Engine) : (ch.setEngine n e).sent = ch.sent := rfl
@[simp] theorem ChanState.setEngine_fresh (ch : ChanState) (n : Nat) (e : Engine) : (ch.setEngine n e).fresh = ch.fresh := rfl
@[simp] theorem ChanState.setEngine_goingReady (ch : ChanState) (n : Nat) (e : Engine) : (ch.setEngine n e).goingReady = ch.goingReady := rfl
@[simp] theorem ChanState.setEngine_arms (ch : ChanState) (n : Nat) (e : Engine) : (ch.setEngine n e).arms = ch.arms := rfl
@[simp] theorem ChanState.setEngine_joints (ch : ChanState) (n : Nat) (e : Engine) : (ch.setEngine n e).joints = ch.joints := rfl
@[simp] theorem ChanState.setEngine_cmps (ch : ChanState) (n : Nat) (e : Engine) : (ch.setEngine n e).cmps = ch.cmps := rfl
@[simp] theorem ChanState.setEngine_vm (ch : ChanState) (n : Nat) (e : Engine) : (ch.setEngine n e).vm = ch.vm := rfl
@[simp] theorem ChanState.setEngine_pool (ch : ChanState) (n : Nat) (e : Engine) : (ch.setEngine n e).pool = ch.pool := rfl
@[simp] theorem ChanState.setEngine_sch (ch : ChanState) (n : Nat) (e : Engine) : (ch.setEngine n e).sch = ch.sch := rfl
@[simp] theorem ChanState.setEngine_prog (ch : ChanState) (n : Nat) (e : Engine) : (ch.setEngine n e).prog = ch.prog := rfl
@[simp] theorem ChanState.setEngine_rst (ch : ChanState) (n : Nat) (e : Engine) : (ch.setEngine n e).rst = ch.rst := rfl
@[simp] theorem ChanState.setEngine_bcDone (ch : ChanState) (n : Nat) (e : Engine) : (ch.setEngine n e).bcDone = ch.bcDone := rfl
@[simp] theorem ChanState.setEngine_pevT (ch : ChanState) (n : Nat) (e : Engine) : (ch.setEngine n e).pevT = ch.pevT := rfl
@[simp] theorem ChanState.setEngine_loaded (ch : ChanState) (n : Nat) (e : Engine) : (ch.setEngine n e).loaded = ch.loaded := rfl
@[simp] theorem ChanState.setEngine_enc (ch : ChanState) (n : Nat) (e : Engine) : (ch.setEngine n e).enc = ch.enc := rfl
@[simp] theorem ChanState.setEngine_rem (ch : ChanState) (n : Nat) (e : Engine) : (ch.setEngine n e).rem = ch.rem := rfl
@[simp] theorem ChanState.setEngine_dpo (ch : ChanState) (n : Nat) (e : Engine) : (ch.setEngine n e).dpo = ch.dpo := rfl
@[simp] theorem ChanState.setEngine_jsp (ch : ChanState) (n : Nat) (e : Engine) : (ch.setEngine n e).jsp = ch.jsp := rfl
@[simp] theorem ChanState.setEngine_pwm (ch : ChanState) (n : Nat) (e : Engine) : (ch.setEngine n e).pwm = ch.pwm := rfl
@[simp] theorem ChanState.setEngine_stp (ch : ChanState) (n : Nat) (e : Engine) : (ch.setEngine n e).stp = ch.stp := rfl
@[simp] theorem ChanState.setEngine_bricks (ch : ChanState) (n : Nat) (e : Engine) : (ch.setEngine n e).bricks = ch.bricks := rfl
@[simp] theorem ChanState.setEngine_ring (ch : ChanState) (n : Nat) (e : Engine) : (ch.setEngine n e).ring = ch.ring := rfl
@[simp] theorem ChanState.setEngine_lockMark (ch : ChanState) (n : Nat) (e : Engine) : (ch.setEngine n e).lockMark = ch.lockMark := rfl
@[simp] theorem ChanState.setEngine_saf (ch : ChanState) (n : Nat) (e : Engine) : (ch.setEngine n e).saf = ch.saf := rfl
@[simp] theorem ChanState.setEngine_scx (ch : ChanState) (n : Nat) (e : Engine) : (ch.setEngine n e).scx = ch.scx := rfl
@[simp] theorem ChanState.setEngine_sep (ch : ChanState) (n : Nat) (e : Engine) : (ch.setEngine n e).sep = ch.sep := rfl
@[simp] theorem ChanState.setEngine_smem (ch : ChanState) (n : Nat) (e : Engine) : (ch.setEngine n e).smem = ch.smem := rfl
@[simp] theorem ChanState.setEngine_cb (ch : ChanState) (n : Nat) (e : Engine) : (ch.setEngine n e).cb = ch.cb := rfl
@[simp] theorem ChanState.setEngine_red (ch : ChanState) (n : Nat) (e : Engine) : (ch.setEngine n e).red = ch.red := rfl
@[simp] theorem ChanState.setEngine_nvm (ch : ChanState) (n : Nat) (e : Engine) : (ch.setEngine n e).nvm = ch.nvm := rfl
@[simp] theorem ChanState.setEngine_cfg (ch : ChanState) (n : Nat) (e : Engine) : (ch.setEngine n e).cfg = ch.cfg := rfl
@[simp] theorem ChanState.setEngine_cps (ch : ChanState) (n : Nat) (e : Engine) : (ch.setEngine n e).cps = ch.cps := rfl
@[simp] theorem ChanState.setEngine_readyAt (ch : ChanState) (n : Nat) (e : Engine) : (ch.setEngine n e).readyAt = ch.readyAt := rfl
@[simp] theorem ChanState.setEngine_fn (ch : ChanState) (n : Nat) (e : Engine) : (ch.setEngine n e).fn = ch.fn := rfl
@[simp] theorem ChanState.setEngine_lehr (ch : ChanState) (n : Nat) (e : Engine) : (ch.setEngine n e).lehr = ch.lehr := rfl
@[simp] theorem ChanState.setEngine_slv (ch : ChanState) (n : Nat) (e : Engine) : (ch.setEngine n e).slv = ch.slv := rfl
@[simp] theorem ChanState.setEngine_word (ch : ChanState) (n : Nat) (e : Engine) (f : RF) : (ch.setEngine n e).word f = ch.word f := rfl
@[simp] theorem ChanState.setEngine_get (ch : ChanState) (n : Nat) (e : Engine) (f : RF) : (ch.setEngine n e).get f = ch.get f := rfl

/-! ### Fields after setPwm -/

@[simp] theorem ChanState.setPwm_regs (ch : ChanState) (u : Nat) (p : Pwm) : (ch.setPwm u p).regs = ch.regs := rfl
@[simp] theorem ChanState.setPwm_id (ch : ChanState) (u : Nat) (p : Pwm) : (ch.setPwm u p).id = ch.id := rfl
@[simp] theorem ChanState.setPwm_devid (ch : ChanState) (u : Nat) (p : Pwm) : (ch.setPwm u p).devid = ch.devid := rfl
@[simp] theorem ChanState.setPwm_ct (ch : ChanState) (u : Nat) (p : Pwm) : (ch.setPwm u p).ct = ch.ct := rfl
@[simp] theorem ChanState.setPwm_pt1 (ch : ChanState) (u : Nat) (p : Pwm) : (ch.setPwm u p).pt1 = ch.pt1 := rfl
@[simp] theorem ChanState.setPwm_pt2 (ch : ChanState) (u : Nat) (p : Pwm) : (ch.setPwm u p).pt2 = ch.pt2 := rfl
@[simp] theorem ChanState.setPwm_mono (ch : ChanState) (u : Nat) (p : Pwm) : (ch.setPwm u p).mono = ch.mono := rfl
@[simp] theorem ChanState.setPwm_tev (ch : ChanState) (u : Nat) (p : Pwm) : (ch.setPwm u p).tev = ch.tev := rfl
@[simp] theorem ChanState.setPwm_ptp (ch : ChanState) (u : Nat) (p : Pwm) : (ch.setPwm u p).ptp = ch.ptp := rfl
@[simp] theorem ChanState.setPwm_flt (ch : ChanState) (u : Nat) (p : Pwm) : (ch.setPwm u p).flt = ch.flt := rfl
@[simp] theorem ChanState.setPwm_trc (ch : ChanState) (u : Nat) (p : Pwm) : (ch.setPwm u p).trc = ch.trc := rfl
@[simp] theorem ChanState.setPwm_sent (ch : ChanState) (u : Nat) (p : Pwm) : (ch.setPwm u p).sent = ch.sent := rfl
@[simp] theorem ChanState.setPwm_fresh (ch : ChanState) (u : Nat) (p : Pwm) : (ch.setPwm u p).fresh = ch.fresh := rfl
@[simp] theorem ChanState.setPwm_goingReady (ch : ChanState) (u : Nat) (p : Pwm) : (ch.setPwm u p).goingReady = ch.goingReady := rfl
@[simp] theorem ChanState.setPwm_arms (ch : ChanState) (u : Nat) (p : Pwm) : (ch.setPwm u p).arms = ch.arms := rfl
@[simp] theorem ChanState.setPwm_joints (ch : ChanState) (u : Nat) (p : Pwm) : (ch.setPwm u p).joints = ch.joints := rfl
@[simp] theorem ChanState.setPwm_cmps (ch : ChanState) (u : Nat) (p : Pwm) : (ch.setPwm u p).cmps = ch.cmps := rfl
@[simp] theorem ChanState.setPwm_vm (ch : ChanState) (u : Nat) (p : Pwm) : (ch.setPwm u p).vm = ch.vm := rfl
@[simp] theorem ChanState.setPwm_pool (ch : ChanState) (u : Nat) (p : Pwm) : (ch.setPwm u p).pool = ch.pool := rfl
@[simp] theorem ChanState.setPwm_sch (ch : ChanState) (u : Nat) (p : Pwm) : (ch.setPwm u p).sch = ch.sch := rfl
@[simp] theorem ChanState.setPwm_engines (ch : ChanState) (u : Nat) (p : Pwm) : (ch.setPwm u p).engines = ch.engines := rfl
@[simp] theorem ChanState.setPwm_prog (ch : ChanState) (u : Nat) (p : Pwm) : (ch.setPwm u p).prog = ch.prog := rfl
@[simp] theorem ChanState.setPwm_rst (ch : ChanState) (u : Nat) (p : Pwm) : (ch.setPwm u p).rst = ch.rst := rfl
@[simp] theorem ChanState.setPwm_bcDone (ch : ChanState) (u : Nat) (p : Pwm) : (ch.setPwm u p).bcDone = ch.bcDone := rfl
@[simp] theorem ChanState.setPwm_pevT (ch : ChanState) (u : Nat) (p : Pwm) : (ch.setPwm u p).pevT = ch.pevT := rfl
@[simp] theorem ChanState.setPwm_loaded (ch : ChanState) (u : Nat) (p : Pwm) : (ch.setPwm u p).loaded = ch.loaded := rfl
@[simp] theorem ChanState.setPwm_enc (ch : ChanState) (u : Nat) (p : Pwm) : (ch.setPwm u p).enc = ch.enc := rfl
@[simp] theorem ChanState.setPwm_rem (ch : ChanState) (u : Nat) (p : Pwm) : (ch.setPwm u p).rem = ch.rem := rfl
@[simp] theorem ChanState.setPwm_dpo (ch : ChanState) (u : Nat) (p : Pwm) : (ch.setPwm u p).dpo = ch.dpo := rfl
@[simp] theorem ChanState.setPwm_jsp (ch : ChanState) (u : Nat) (p : Pwm) : (ch.setPwm u p).jsp = ch.jsp := rfl
@[simp] theorem ChanState.setPwm_stp (ch : ChanState) (u : Nat) (p : Pwm) : (ch.setPwm u p).stp = ch.stp := rfl
@[simp] theorem ChanState.setPwm_bricks (ch : ChanState) (u : Nat) (p : Pwm) : (ch.setPwm u p).bricks = ch.bricks := rfl
@[simp] theorem ChanState.setPwm_ring (ch : ChanState) (u : Nat) (p : Pwm) : (ch.setPwm u p).ring = ch.ring := rfl
@[simp] theorem ChanState.setPwm_lockMark (ch : ChanState) (u : Nat) (p : Pwm) : (ch.setPwm u p).lockMark = ch.lockMark := rfl
@[simp] theorem ChanState.setPwm_saf (ch : ChanState) (u : Nat) (p : Pwm) : (ch.setPwm u p).saf = ch.saf := rfl
@[simp] theorem ChanState.setPwm_scx (ch : ChanState) (u : Nat) (p : Pwm) : (ch.setPwm u p).scx = ch.scx := rfl
@[simp] theorem ChanState.setPwm_sep (ch : ChanState) (u : Nat) (p : Pwm) : (ch.setPwm u p).sep = ch.sep := rfl
@[simp] theorem ChanState.setPwm_smem (ch : ChanState) (u : Nat) (p : Pwm) : (ch.setPwm u p).smem = ch.smem := rfl
@[simp] theorem ChanState.setPwm_cb (ch : ChanState) (u : Nat) (p : Pwm) : (ch.setPwm u p).cb = ch.cb := rfl
@[simp] theorem ChanState.setPwm_red (ch : ChanState) (u : Nat) (p : Pwm) : (ch.setPwm u p).red = ch.red := rfl
@[simp] theorem ChanState.setPwm_nvm (ch : ChanState) (u : Nat) (p : Pwm) : (ch.setPwm u p).nvm = ch.nvm := rfl
@[simp] theorem ChanState.setPwm_cfg (ch : ChanState) (u : Nat) (p : Pwm) : (ch.setPwm u p).cfg = ch.cfg := rfl
@[simp] theorem ChanState.setPwm_cps (ch : ChanState) (u : Nat) (p : Pwm) : (ch.setPwm u p).cps = ch.cps := rfl
@[simp] theorem ChanState.setPwm_readyAt (ch : ChanState) (u : Nat) (p : Pwm) : (ch.setPwm u p).readyAt = ch.readyAt := rfl
@[simp] theorem ChanState.setPwm_fn (ch : ChanState) (u : Nat) (p : Pwm) : (ch.setPwm u p).fn = ch.fn := rfl
@[simp] theorem ChanState.setPwm_lehr (ch : ChanState) (u : Nat) (p : Pwm) : (ch.setPwm u p).lehr = ch.lehr := rfl
@[simp] theorem ChanState.setPwm_slv (ch : ChanState) (u : Nat) (p : Pwm) : (ch.setPwm u p).slv = ch.slv := rfl
@[simp] theorem ChanState.setPwm_word (ch : ChanState) (u : Nat) (p : Pwm) (f : RF) : (ch.setPwm u p).word f = ch.word f := rfl
@[simp] theorem ChanState.setPwm_get (ch : ChanState) (u : Nat) (p : Pwm) (f : RF) : (ch.setPwm u p).get f = ch.get f := rfl

/-! ### Fields after setStp -/

@[simp] theorem ChanState.setStp_regs (ch : ChanState) (n : Nat) (p : Stp) : (ch.setStp n p).regs = ch.regs := rfl
@[simp] theorem ChanState.setStp_id (ch : ChanState) (n : Nat) (p : Stp) : (ch.setStp n p).id = ch.id := rfl
@[simp] theorem ChanState.setStp_devid (ch : ChanState) (n : Nat) (p : Stp) : (ch.setStp n p).devid = ch.devid := rfl
@[simp] theorem ChanState.setStp_ct (ch : ChanState) (n : Nat) (p : Stp) : (ch.setStp n p).ct = ch.ct := rfl
@[simp] theorem ChanState.setStp_pt1 (ch : ChanState) (n : Nat) (p : Stp) : (ch.setStp n p).pt1 = ch.pt1 := rfl
@[simp] theorem ChanState.setStp_pt2 (ch : ChanState) (n : Nat) (p : Stp) : (ch.setStp n p).pt2 = ch.pt2 := rfl
@[simp] theorem ChanState.setStp_mono (ch : ChanState) (n : Nat) (p : Stp) : (ch.setStp n p).mono = ch.mono := rfl
@[simp] theorem ChanState.setStp_tev (ch : ChanState) (n : Nat) (p : Stp) : (ch.setStp n p).tev = ch.tev := rfl
@[simp] theorem ChanState.setStp_ptp (ch : ChanState) (n : Nat) (p : Stp) : (ch.setStp n p).ptp = ch.ptp := rfl
@[simp] theorem ChanState.setStp_flt (ch : ChanState) (n : Nat) (p : Stp) : (ch.setStp n p).flt = ch.flt := rfl
@[simp] theorem ChanState.setStp_trc (ch : ChanState) (n : Nat) (p : Stp) : (ch.setStp n p).trc = ch.trc := rfl
@[simp] theorem ChanState.setStp_sent (ch : ChanState) (n : Nat) (p : Stp) : (ch.setStp n p).sent = ch.sent := rfl
@[simp] theorem ChanState.setStp_fresh (ch : ChanState) (n : Nat) (p : Stp) : (ch.setStp n p).fresh = ch.fresh := rfl
@[simp] theorem ChanState.setStp_goingReady (ch : ChanState) (n : Nat) (p : Stp) : (ch.setStp n p).goingReady = ch.goingReady := rfl
@[simp] theorem ChanState.setStp_arms (ch : ChanState) (n : Nat) (p : Stp) : (ch.setStp n p).arms = ch.arms := rfl
@[simp] theorem ChanState.setStp_joints (ch : ChanState) (n : Nat) (p : Stp) : (ch.setStp n p).joints = ch.joints := rfl
@[simp] theorem ChanState.setStp_cmps (ch : ChanState) (n : Nat) (p : Stp) : (ch.setStp n p).cmps = ch.cmps := rfl
@[simp] theorem ChanState.setStp_vm (ch : ChanState) (n : Nat) (p : Stp) : (ch.setStp n p).vm = ch.vm := rfl
@[simp] theorem ChanState.setStp_pool (ch : ChanState) (n : Nat) (p : Stp) : (ch.setStp n p).pool = ch.pool := rfl
@[simp] theorem ChanState.setStp_sch (ch : ChanState) (n : Nat) (p : Stp) : (ch.setStp n p).sch = ch.sch := rfl
@[simp] theorem ChanState.setStp_engines (ch : ChanState) (n : Nat) (p : Stp) : (ch.setStp n p).engines = ch.engines := rfl
@[simp] theorem ChanState.setStp_prog (ch : ChanState) (n : Nat) (p : Stp) : (ch.setStp n p).prog = ch.prog := rfl
@[simp] theorem ChanState.setStp_rst (ch : ChanState) (n : Nat) (p : Stp) : (ch.setStp n p).rst = ch.rst := rfl
@[simp] theorem ChanState.setStp_bcDone (ch : ChanState) (n : Nat) (p : Stp) : (ch.setStp n p).bcDone = ch.bcDone := rfl
@[simp] theorem ChanState.setStp_pevT (ch : ChanState) (n : Nat) (p : Stp) : (ch.setStp n p).pevT = ch.pevT := rfl
@[simp] theorem ChanState.setStp_loaded (ch : ChanState) (n : Nat) (p : Stp) : (ch.setStp n p).loaded = ch.loaded := rfl
@[simp] theorem ChanState.setStp_enc (ch : ChanState) (n : Nat) (p : Stp) : (ch.setStp n p).enc = ch.enc := rfl
@[simp] theorem ChanState.setStp_rem (ch : ChanState) (n : Nat) (p : Stp) : (ch.setStp n p).rem = ch.rem := rfl
@[simp] theorem ChanState.setStp_dpo (ch : ChanState) (n : Nat) (p : Stp) : (ch.setStp n p).dpo = ch.dpo := rfl
@[simp] theorem ChanState.setStp_jsp (ch : ChanState) (n : Nat) (p : Stp) : (ch.setStp n p).jsp = ch.jsp := rfl
@[simp] theorem ChanState.setStp_pwm (ch : ChanState) (n : Nat) (p : Stp) : (ch.setStp n p).pwm = ch.pwm := rfl
@[simp] theorem ChanState.setStp_bricks (ch : ChanState) (n : Nat) (p : Stp) : (ch.setStp n p).bricks = ch.bricks := rfl
@[simp] theorem ChanState.setStp_ring (ch : ChanState) (n : Nat) (p : Stp) : (ch.setStp n p).ring = ch.ring := rfl
@[simp] theorem ChanState.setStp_lockMark (ch : ChanState) (n : Nat) (p : Stp) : (ch.setStp n p).lockMark = ch.lockMark := rfl
@[simp] theorem ChanState.setStp_saf (ch : ChanState) (n : Nat) (p : Stp) : (ch.setStp n p).saf = ch.saf := rfl
@[simp] theorem ChanState.setStp_scx (ch : ChanState) (n : Nat) (p : Stp) : (ch.setStp n p).scx = ch.scx := rfl
@[simp] theorem ChanState.setStp_sep (ch : ChanState) (n : Nat) (p : Stp) : (ch.setStp n p).sep = ch.sep := rfl
@[simp] theorem ChanState.setStp_smem (ch : ChanState) (n : Nat) (p : Stp) : (ch.setStp n p).smem = ch.smem := rfl
@[simp] theorem ChanState.setStp_cb (ch : ChanState) (n : Nat) (p : Stp) : (ch.setStp n p).cb = ch.cb := rfl
@[simp] theorem ChanState.setStp_red (ch : ChanState) (n : Nat) (p : Stp) : (ch.setStp n p).red = ch.red := rfl
@[simp] theorem ChanState.setStp_nvm (ch : ChanState) (n : Nat) (p : Stp) : (ch.setStp n p).nvm = ch.nvm := rfl
@[simp] theorem ChanState.setStp_cfg (ch : ChanState) (n : Nat) (p : Stp) : (ch.setStp n p).cfg = ch.cfg := rfl
@[simp] theorem ChanState.setStp_cps (ch : ChanState) (n : Nat) (p : Stp) : (ch.setStp n p).cps = ch.cps := rfl
@[simp] theorem ChanState.setStp_readyAt (ch : ChanState) (n : Nat) (p : Stp) : (ch.setStp n p).readyAt = ch.readyAt := rfl
@[simp] theorem ChanState.setStp_fn (ch : ChanState) (n : Nat) (p : Stp) : (ch.setStp n p).fn = ch.fn := rfl
@[simp] theorem ChanState.setStp_lehr (ch : ChanState) (n : Nat) (p : Stp) : (ch.setStp n p).lehr = ch.lehr := rfl
@[simp] theorem ChanState.setStp_slv (ch : ChanState) (n : Nat) (p : Stp) : (ch.setStp n p).slv = ch.slv := rfl
@[simp] theorem ChanState.setStp_word (ch : ChanState) (n : Nat) (p : Stp) (f : RF) : (ch.setStp n p).word f = ch.word f := rfl
@[simp] theorem ChanState.setStp_get (ch : ChanState) (n : Nat) (p : Stp) (f : RF) : (ch.setStp n p).get f = ch.get f := rfl

/-! ### Units read after a write -/

@[simp] theorem ChanState.arm_setArm (ch : ChanState) (k : Nat) (a : Arm) : (ch.setArm k a).arm k = a := Tab.get_set_same _ _ _ _
theorem ChanState.arm_setArm_ne (ch : ChanState) (k i : Nat) (a : Arm) (h : i ≠ k) : (ch.setArm k a).arm i = ch.arm i :=
  Tab.get_set_ne _ _ _ _ h
@[simp] theorem ChanState.arm_put (ch : ChanState) (r : RF) (v i : Nat) : (ch.put r v).arm i = ch.arm i := rfl
@[simp] theorem ChanState.joint_setJoint (ch : ChanState) (j : Nat) (x : Joint) : (ch.setJoint j x).joint j = x := Tab.get_set_same _ _ _ _
theorem ChanState.joint_setJoint_ne (ch : ChanState) (j i : Nat) (x : Joint) (h : i ≠ j) : (ch.setJoint j x).joint i = ch.joint i :=
  Tab.get_set_ne _ _ _ _ h
@[simp] theorem ChanState.joint_put (ch : ChanState) (r : RF) (v i : Nat) : (ch.put r v).joint i = ch.joint i := rfl
@[simp] theorem ChanState.engine_setEngine (ch : ChanState) (n : Nat) (e : Engine) : (ch.setEngine n e).engine n = e := Tab.get_set_same _ _ _ _
theorem ChanState.engine_setEngine_ne (ch : ChanState) (n i : Nat) (e : Engine) (h : i ≠ n) : (ch.setEngine n e).engine i = ch.engine i :=
  Tab.get_set_ne _ _ _ _ h
@[simp] theorem ChanState.engine_put (ch : ChanState) (r : RF) (v i : Nat) : (ch.put r v).engine i = ch.engine i := rfl
@[simp] theorem ChanState.pwmU_setPwm (ch : ChanState) (u : Nat) (p : Pwm) : (ch.setPwm u p).pwmU u = p := Tab.get_set_same _ _ _ _
theorem ChanState.pwmU_setPwm_ne (ch : ChanState) (u i : Nat) (p : Pwm) (h : i ≠ u) : (ch.setPwm u p).pwmU i = ch.pwmU i :=
  Tab.get_set_ne _ _ _ _ h
@[simp] theorem ChanState.pwmU_put (ch : ChanState) (r : RF) (v i : Nat) : (ch.put r v).pwmU i = ch.pwmU i := rfl
@[simp] theorem ChanState.stpU_setStp (ch : ChanState) (n : Nat) (p : Stp) : (ch.setStp n p).stpU n = p := Tab.get_set_same _ _ _ _
theorem ChanState.stpU_setStp_ne (ch : ChanState) (n i : Nat) (p : Stp) (h : i ≠ n) : (ch.setStp n p).stpU i = ch.stpU i :=
  Tab.get_set_ne _ _ _ _ h
@[simp] theorem ChanState.stpU_put (ch : ChanState) (r : RF) (v i : Nat) : (ch.put r v).stpU i = ch.stpU i := rfl

/-! ### Channels of the package -/

@[simp] theorem State.chan_setChan (s : State) (c : Chan) (x : ChanState) : (s.setChan c x).chan c = x := by cases c <;> rfl
theorem State.chan_setChan_ne (s : State) (c d : Chan) (x : ChanState) (h : d ≠ c) : (s.setChan c x).chan d = s.chan d := by
  cases c <;> cases d <;> first | rfl | exact absurd rfl h
@[simp] theorem State.setChan_dev (s : State) (c : Chan) (x : ChanState) : (s.setChan c x).dev = s.dev := by cases c <;> rfl
@[simp] theorem State.setChan_variant (s : State) (c : Chan) (x : ChanState) : (s.setChan c x).variant = s.variant := by cases c <;> rfl
@[simp] theorem State.setChan_pending (s : State) (c : Chan) (x : ChanState) : (s.setChan c x).pending = s.pending := by cases c <;> rfl
@[simp] theorem State.setChan_chan (s : State) (c : Chan) : s.setChan c (s.chan c) = s := by cases c <;> rfl
@[simp] theorem State.setChan_setChan (s : State) (c : Chan) (x y : ChanState) : (s.setChan c x).setChan c y = s.setChan c y := by
  cases c <;> rfl
@[simp] theorem State.setChan_present (s : State) (c d : Chan) (x : ChanState) : (s.setChan c x).present d = s.present d := by
  cases c <;> rfl

/-- A command on a channel that runs. -/
theorem live_runs (s : State) (c : Chan) (f : ChanState → ChanState) (hp : s.present c = true) (hh : (s.chan c).rst.held = false) :
    live s c f = .next (s.setChan c (f { s.chan c with sent := [] })) := by
  simp [live, State.onLive, State.onChan, hp, hh]

/-- A command on a channel the package does not have (R5). -/
theorem live_absent (s : State) (c : Chan) (f : ChanState → ChanState) (hp : s.present c = false) : live s c f = .next s := by
  simp [live, State.onLive, State.onChan, hp]

/-- A command on a channel that is held in reset (R365): only what the last command sent is forgotten. -/
theorem live_held (s : State) (c : Chan) (f : ChanState → ChanState) (hp : s.present c = true) (hh : (s.chan c).rst.held = true) :
    live s c f = .next (s.setChan c { s.chan c with sent := [] }) := by
  simp [live, State.onLive, State.onChan, hp, hh]

/-- What `onChan` makes of its channel. -/
theorem State.onChan_chan (s : State) (c : Chan) (f : ChanState → ChanState) :
    (s.onChan c f).chan c = if s.present c then f { s.chan c with sent := [] } else s.chan c := by
  unfold State.onChan; split <;> simp

/-- What `onChan` leaves alone: the other channel, the device pins, the variant, the queue. -/
theorem State.onChan_other (s : State) (c d : Chan) (f : ChanState → ChanState) (h : d ≠ c) : (s.onChan c f).chan d = s.chan d := by
  unfold State.onChan; split
  · exact State.chan_setChan_ne _ _ _ _ h
  · rfl
@[simp] theorem State.onChan_dev (s : State) (c : Chan) (f : ChanState → ChanState) : (s.onChan c f).dev = s.dev := by
  unfold State.onChan; split <;> simp
@[simp] theorem State.onChan_variant (s : State) (c : Chan) (f : ChanState → ChanState) : (s.onChan c f).variant = s.variant := by
  unfold State.onChan; split <;> simp
@[simp] theorem State.onChan_pending (s : State) (c : Chan) (f : ChanState → ChanState) : (s.onChan c f).pending = s.pending := by
  unfold State.onChan; split <;> simp
@[simp] theorem State.onChan_present (s : State) (c d : Chan) (f : ChanState → ChanState) : (s.onChan c f).present d = s.present d := by
  unfold State.onChan; split <;> simp

/-! ### Time -/

/-- Moving time on is a number of ticks, or nothing. -/
theorem ChanState.advanceTo_ticks (ch : ChanState) (t : Nat) : ch.advanceTo t = ch ∨ ∃ n, ch.advanceTo t = ch.ticks n := by
  by_cases h : ch.ct < t * 2 ^ 16 ∧ ch.get Reg.CBUS_INC_INC ≠ 0
  · exact .inr ⟨_, by unfold ChanState.advanceTo; rw [if_pos h]⟩
  · exact .inl (by unfold ChanState.advanceTo; rw [if_neg h])
theorem ChanState.advanceInCycle_ticks (ch : ChanState) (ofs : Nat) :
    ch.advanceInCycle ofs = ch ∨ ∃ n, ch.advanceInCycle ofs = ch.ticks n := by
  by_cases h : ch.now ≤ ch.cycle * 16000 + ofs
  · rw [show ch.advanceInCycle ofs = ch.advanceTo (ch.cycle * 16000 + ofs) from if_pos h]; exact ChanState.advanceTo_ticks _ _
  · rw [show ch.advanceInCycle ofs = ch.advanceTo (ch.cycle * 16000 + ofs + 16000) from if_neg h]; exact ChanState.advanceTo_ticks _ _

theorem ChanState.word_ticks (ch : ChanState) (n : Nat) (f : RF) : (ch.ticks n).word f = ch.word f := rfl
@[simp] theorem ChanState.ticks_regs (ch : ChanState) (n : Nat) : (ch.ticks n).regs = ch.regs := rfl
@[simp] theorem ChanState.advanceTo_regs (ch : ChanState) (t : Nat) : (ch.advanceTo t).regs = ch.regs := by rcases ch.advanceTo_ticks t with h | ⟨n, h⟩ <;> rw [h]; rfl
@[simp] theorem ChanState.advanceInCycle_regs (ch : ChanState) (t : Nat) : (ch.advanceInCycle t).regs = ch.regs := by rcases ch.advanceInCycle_ticks t with h | ⟨n, h⟩ <;> rw [h]; rfl
@[simp] theorem ChanState.ticks_id (ch : ChanState) (n : Nat) : (ch.ticks n).id = ch.id := rfl
@[simp] theorem ChanState.advanceTo_id (ch : ChanState) (t : Nat) : (ch.advanceTo t).id = ch.id := by rcases ch.advanceTo_ticks t with h | ⟨n, h⟩ <;> rw [h]; rfl
@[simp] theorem ChanState.advanceInCycle_id (ch : ChanState) (t : Nat) : (ch.advanceInCycle t).id = ch.id := by rcases ch.advanceInCycle_ticks t with h | ⟨n, h⟩ <;> rw [h]; rfl
@[simp] theorem ChanState.ticks_devid (ch : ChanState) (n : Nat) : (ch.ticks n).devid = ch.devid := rfl
@[simp] theorem ChanState.advanceTo_devid (ch : ChanState) (t : Nat) : (ch.advanceTo t).devid = ch.devid := by rcases ch.advanceTo_ticks t with h | ⟨n, h⟩ <;> rw [h]; rfl
@[simp] theorem ChanState.advanceInCycle_devid (ch : ChanState) (t : Nat) : (ch.advanceInCycle t).devid = ch.devid := by rcases ch.advanceInCycle_ticks t with h | ⟨n, h⟩ <;> rw [h]; rfl
@[simp] theorem ChanState.ticks_tev (ch : ChanState) (n : Nat) : (ch.ticks n).tev = ch.tev := rfl
@[simp] theorem ChanState.advanceTo_tev (ch : ChanState) (t : Nat) : (ch.advanceTo t).tev = ch.tev := by rcases ch.advanceTo_ticks t with h | ⟨n, h⟩ <;> rw [h]; rfl
@[simp] theorem ChanState.advanceInCycle_tev (ch : ChanState) (t : Nat) : (ch.advanceInCycle t).tev = ch.tev := by rcases ch.advanceInCycle_ticks t with h | ⟨n, h⟩ <;> rw [h]; rfl
@[simp] theorem ChanState.ticks_ptp (ch : ChanState) (n : Nat) : (ch.ticks n).ptp = ch.ptp := rfl
@[simp] theorem ChanState.advanceTo_ptp (ch : ChanState) (t : Nat) : (ch.advanceTo t).ptp = ch.ptp := by rcases ch.advanceTo_ticks t with h | ⟨n, h⟩ <;> rw [h]; rfl
@[simp] theorem ChanState.advanceInCycle_ptp (ch : ChanState) (t : Nat) : (ch.advanceInCycle t).ptp = ch.ptp := by rcases ch.advanceInCycle_ticks t with h | ⟨n, h⟩ <;> rw [h]; rfl
@[simp] theorem ChanState.ticks_flt (ch : ChanState) (n : Nat) : (ch.ticks n).flt = ch.flt := rfl
@[simp] theorem ChanState.advanceTo_flt (ch : ChanState) (t : Nat) : (ch.advanceTo t).flt = ch.flt := by rcases ch.advanceTo_ticks t with h | ⟨n, h⟩ <;> rw [h]; rfl
@[simp] theorem ChanState.advanceInCycle_flt (ch : ChanState) (t : Nat) : (ch.advanceInCycle t).flt = ch.flt := by rcases ch.advanceInCycle_ticks t with h | ⟨n, h⟩ <;> rw [h]; rfl
@[simp] theorem ChanState.ticks_trc (ch : ChanState) (n : Nat) : (ch.ticks n).trc = ch.trc := rfl
@[simp] theorem ChanState.advanceTo_trc (ch : ChanState) (t : Nat) : (ch.advanceTo t).trc = ch.trc := by rcases ch.advanceTo_ticks t with h | ⟨n, h⟩ <;> rw [h]; rfl
@[simp] theorem ChanState.advanceInCycle_trc (ch : ChanState) (t : Nat) : (ch.advanceInCycle t).trc = ch.trc := by rcases ch.advanceInCycle_ticks t with h | ⟨n, h⟩ <;> rw [h]; rfl
@[simp] theorem ChanState.ticks_sent (ch : ChanState) (n : Nat) : (ch.ticks n).sent = ch.sent := rfl
@[simp] theorem ChanState.advanceTo_sent (ch : ChanState) (t : Nat) : (ch.advanceTo t).sent = ch.sent := by rcases ch.advanceTo_ticks t with h | ⟨n, h⟩ <;> rw [h]; rfl
@[simp] theorem ChanState.advanceInCycle_sent (ch : ChanState) (t : Nat) : (ch.advanceInCycle t).sent = ch.sent := by rcases ch.advanceInCycle_ticks t with h | ⟨n, h⟩ <;> rw [h]; rfl
@[simp] theorem ChanState.ticks_fresh (ch : ChanState) (n : Nat) : (ch.ticks n).fresh = ch.fresh := rfl
@[simp] theorem ChanState.advanceTo_fresh (ch : ChanState) (t : Nat) : (ch.advanceTo t).fresh = ch.fresh := by rcases ch.advanceTo_ticks t with h | ⟨n, h⟩ <;> rw [h]; rfl
@[simp] theorem ChanState.advanceInCycle_fresh (ch : ChanState) (t : Nat) : (ch.advanceInCycle t).fresh = ch.fresh := by rcases ch.advanceInCycle_ticks t with h | ⟨n, h⟩ <;> rw [h]; rfl
@[simp] theorem ChanState.ticks_goingReady (ch : ChanState) (n : Nat) : (ch.ticks n).goingReady = ch.goingReady := rfl
@[simp] theorem ChanState.advanceTo_goingReady (ch : ChanState) (t : Nat) : (ch.advanceTo t).goingReady = ch.goingReady := by rcases ch.advanceTo_ticks t with h | ⟨n, h⟩ <;> rw [h]; rfl
@[simp] theorem ChanState.advanceInCycle_goingReady (ch : ChanState) (t : Nat) : (ch.advanceInCycle t).goingReady = ch.goingReady := by rcases ch.advanceInCycle_ticks t with h | ⟨n, h⟩ <;> rw [h]; rfl
@[simp] theorem ChanState.ticks_arms (ch : ChanState) (n : Nat) : (ch.ticks n).arms = ch.arms := rfl
@[simp] theorem ChanState.advanceTo_arms (ch : ChanState) (t : Nat) : (ch.advanceTo t).arms = ch.arms := by rcases ch.advanceTo_ticks t with h | ⟨n, h⟩ <;> rw [h]; rfl
@[simp] theorem ChanState.advanceInCycle_arms (ch : ChanState) (t : Nat) : (ch.advanceInCycle t).arms = ch.arms := by rcases ch.advanceInCycle_ticks t with h | ⟨n, h⟩ <;> rw [h]; rfl
@[simp] theorem ChanState.ticks_joints (ch : ChanState) (n : Nat) : (ch.ticks n).joints = ch.joints := rfl
@[simp] theorem ChanState.advanceTo_joints (ch : ChanState) (t : Nat) : (ch.advanceTo t).joints = ch.joints := by rcases ch.advanceTo_ticks t with h | ⟨n, h⟩ <;> rw [h]; rfl
@[simp] theorem ChanState.advanceInCycle_joints (ch : ChanState) (t : Nat) : (ch.advanceInCycle t).joints = ch.joints := by rcases ch.advanceInCycle_ticks t with h | ⟨n, h⟩ <;> rw [h]; rfl
@[simp] theorem ChanState.ticks_cmps (ch : ChanState) (n : Nat) : (ch.ticks n).cmps = ch.cmps := rfl
@[simp] theorem ChanState.advanceTo_cmps (ch : ChanState) (t : Nat) : (ch.advanceTo t).cmps = ch.cmps := by rcases ch.advanceTo_ticks t with h | ⟨n, h⟩ <;> rw [h]; rfl
@[simp] theorem ChanState.advanceInCycle_cmps (ch : ChanState) (t : Nat) : (ch.advanceInCycle t).cmps = ch.cmps := by rcases ch.advanceInCycle_ticks t with h | ⟨n, h⟩ <;> rw [h]; rfl
@[simp] theorem ChanState.ticks_vm (ch : ChanState) (n : Nat) : (ch.ticks n).vm = ch.vm := rfl
@[simp] theorem ChanState.advanceTo_vm (ch : ChanState) (t : Nat) : (ch.advanceTo t).vm = ch.vm := by rcases ch.advanceTo_ticks t with h | ⟨n, h⟩ <;> rw [h]; rfl
@[simp] theorem ChanState.advanceInCycle_vm (ch : ChanState) (t : Nat) : (ch.advanceInCycle t).vm = ch.vm := by rcases ch.advanceInCycle_ticks t with h | ⟨n, h⟩ <;> rw [h]; rfl
@[simp] theorem ChanState.ticks_pool (ch : ChanState) (n : Nat) : (ch.ticks n).pool = ch.pool := rfl
@[simp] theorem ChanState.advanceTo_pool (ch : ChanState) (t : Nat) : (ch.advanceTo t).pool = ch.pool := by rcases ch.advanceTo_ticks t with h | ⟨n, h⟩ <;> rw [h]; rfl
@[simp] theorem ChanState.advanceInCycle_pool (ch : ChanState) (t : Nat) : (ch.advanceInCycle t).pool = ch.pool := by rcases ch.advanceInCycle_ticks t with h | ⟨n, h⟩ <;> rw [h]; rfl
@[simp] theorem ChanState.ticks_sch (ch : ChanState) (n : Nat) : (ch.ticks n).sch = ch.sch := rfl
@[simp] theorem ChanState.advanceTo_sch (ch : ChanState) (t : Nat) : (ch.advanceTo t).sch = ch.sch := by rcases ch.advanceTo_ticks t with h | ⟨n, h⟩ <;> rw [h]; rfl
@[simp] theorem ChanState.advanceInCycle_sch (ch : ChanState) (t : Nat) : (ch.advanceInCycle t).sch = ch.sch := by rcases ch.advanceInCycle_ticks t with h | ⟨n, h⟩ <;> rw [h]; rfl
@[simp] theorem ChanState.ticks_engines (ch : ChanState) (n : Nat) : (ch.ticks n).engines = ch.engines := rfl
@[simp] theorem ChanState.advanceTo_engines (ch : ChanState) (t : Nat) : (ch.advanceTo t).engines = ch.engines := by rcases ch.advanceTo_ticks t with h | ⟨n, h⟩ <;> rw [h]; rfl
@[simp] theorem ChanState.advanceInCycle_engines (ch : ChanState) (t : Nat) : (ch.advanceInCycle t).engines = ch.engines := by rcases ch.advanceInCycle_ticks t with h | ⟨n, h⟩ <;> rw [h]; rfl
@[simp] theorem ChanState.ticks_prog (ch : ChanState) (n : Nat) : (ch.ticks n).prog = ch.prog := rfl
@[simp] theorem ChanState.advanceTo_prog (ch : ChanState) (t : Nat) : (ch.advanceTo t).prog = ch.prog := by rcases ch.advanceTo_ticks t with h | ⟨n, h⟩ <;> rw [h]; rfl
@[simp] theorem ChanState.advanceInCycle_prog (ch : ChanState) (t : Nat) : (ch.advanceInCycle t).prog = ch.prog := by rcases ch.advanceInCycle_ticks t with h | ⟨n, h⟩ <;> rw [h]; rfl
@[simp] theorem ChanState.ticks_rst (ch : ChanState) (n : Nat) : (ch.ticks n).rst = ch.rst := rfl
@[simp] theorem ChanState.advanceTo_rst (ch : ChanState) (t : Nat) : (ch.advanceTo t).rst = ch.rst := by rcases ch.advanceTo_ticks t with h | ⟨n, h⟩ <;> rw [h]; rfl
@[simp] theorem ChanState.advanceInCycle_rst (ch : ChanState) (t : Nat) : (ch.advanceInCycle t).rst = ch.rst := by rcases ch.advanceInCycle_ticks t with h | ⟨n, h⟩ <;> rw [h]; rfl
@[simp] theorem ChanState.ticks_bcDone (ch : ChanState) (n : Nat) : (ch.ticks n).bcDone = ch.bcDone := rfl
@[simp] theorem ChanState.advanceTo_bcDone (ch : ChanState) (t : Nat) : (ch.advanceTo t).bcDone = ch.bcDone := by rcases ch.advanceTo_ticks t with h | ⟨n, h⟩ <;> rw [h]; rfl
@[simp] theorem ChanState.advanceInCycle_bcDone (ch : ChanState) (t : Nat) : (ch.advanceInCycle t).bcDone = ch.bcDone := by rcases ch.advanceInCycle_ticks t with h | ⟨n, h⟩ <;> rw [h]; rfl
@[simp] theorem ChanState.ticks_pevT (ch : ChanState) (n : Nat) : (ch.ticks n).pevT = ch.pevT := rfl
@[simp] theorem ChanState.advanceTo_pevT (ch : ChanState) (t : Nat) : (ch.advanceTo t).pevT = ch.pevT := by rcases ch.advanceTo_ticks t with h | ⟨n, h⟩ <;> rw [h]; rfl
@[simp] theorem ChanState.advanceInCycle_pevT (ch : ChanState) (t : Nat) : (ch.advanceInCycle t).pevT = ch.pevT := by rcases ch.advanceInCycle_ticks t with h | ⟨n, h⟩ <;> rw [h]; rfl
@[simp] theorem ChanState.ticks_loaded (ch : ChanState) (n : Nat) : (ch.ticks n).loaded = ch.loaded := rfl
@[simp] theorem ChanState.advanceTo_loaded (ch : ChanState) (t : Nat) : (ch.advanceTo t).loaded = ch.loaded := by rcases ch.advanceTo_ticks t with h | ⟨n, h⟩ <;> rw [h]; rfl
@[simp] theorem ChanState.advanceInCycle_loaded (ch : ChanState) (t : Nat) : (ch.advanceInCycle t).loaded = ch.loaded := by rcases ch.advanceInCycle_ticks t with h | ⟨n, h⟩ <;> rw [h]; rfl
@[simp] theorem ChanState.ticks_enc (ch : ChanState) (n : Nat) : (ch.ticks n).enc = ch.enc := rfl
@[simp] theorem ChanState.advanceTo_enc (ch : ChanState) (t : Nat) : (ch.advanceTo t).enc = ch.enc := by rcases ch.advanceTo_ticks t with h | ⟨n, h⟩ <;> rw [h]; rfl
@[simp] theorem ChanState.advanceInCycle_enc (ch : ChanState) (t : Nat) : (ch.advanceInCycle t).enc = ch.enc := by rcases ch.advanceInCycle_ticks t with h | ⟨n, h⟩ <;> rw [h]; rfl
@[simp] theorem ChanState.ticks_rem (ch : ChanState) (n : Nat) : (ch.ticks n).rem = ch.rem := rfl
@[simp] theorem ChanState.advanceTo_rem (ch : ChanState) (t : Nat) : (ch.advanceTo t).rem = ch.rem := by rcases ch.advanceTo_ticks t with h | ⟨n, h⟩ <;> rw [h]; rfl
@[simp] theorem ChanState.advanceInCycle_rem (ch : ChanState) (t : Nat) : (ch.advanceInCycle t).rem = ch.rem := by rcases ch.advanceInCycle_ticks t with h | ⟨n, h⟩ <;> rw [h]; rfl
@[simp] theorem ChanState.ticks_dpo (ch : ChanState) (n : Nat) : (ch.ticks n).dpo = ch.dpo := rfl
@[simp] theorem ChanState.advanceTo_dpo (ch : ChanState) (t : Nat) : (ch.advanceTo t).dpo = ch.dpo := by rcases ch.advanceTo_ticks t with h | ⟨n, h⟩ <;> rw [h]; rfl
@[simp] theorem ChanState.advanceInCycle_dpo (ch : ChanState) (t : Nat) : (ch.advanceInCycle t).dpo = ch.dpo := by rcases ch.advanceInCycle_ticks t with h | ⟨n, h⟩ <;> rw [h]; rfl
@[simp] theorem ChanState.ticks_jsp (ch : ChanState) (n : Nat) : (ch.ticks n).jsp = ch.jsp := rfl
@[simp] theorem ChanState.advanceTo_jsp (ch : ChanState) (t : Nat) : (ch.advanceTo t).jsp = ch.jsp := by rcases ch.advanceTo_ticks t with h | ⟨n, h⟩ <;> rw [h]; rfl
@[simp] theorem ChanState.advanceInCycle_jsp (ch : ChanState) (t : Nat) : (ch.advanceInCycle t).jsp = ch.jsp := by rcases ch.advanceInCycle_ticks t with h | ⟨n, h⟩ <;> rw [h]; rfl
@[simp] theorem ChanState.ticks_pwm (ch : ChanState) (n : Nat) : (ch.ticks n).pwm = ch.pwm := rfl
@[simp] theorem ChanState.advanceTo_pwm (ch : ChanState) (t : Nat) : (ch.advanceTo t).pwm = ch.pwm := by rcases ch.advanceTo_ticks t with h | ⟨n, h⟩ <;> rw [h]; rfl
@[simp] theorem ChanState.advanceInCycle_pwm (ch : ChanState) (t : Nat) : (ch.advanceInCycle t).pwm = ch.pwm := by rcases ch.advanceInCycle_ticks t with h | ⟨n, h⟩ <;> rw [h]; rfl
@[simp] theorem ChanState.ticks_stp (ch : ChanState) (n : Nat) : (ch.ticks n).stp = ch.stp := rfl
@[simp] theorem ChanState.advanceTo_stp (ch : ChanState) (t : Nat) : (ch.advanceTo t).stp = ch.stp := by rcases ch.advanceTo_ticks t with h | ⟨n, h⟩ <;> rw [h]; rfl
@[simp] theorem ChanState.advanceInCycle_stp (ch : ChanState) (t : Nat) : (ch.advanceInCycle t).stp = ch.stp := by rcases ch.advanceInCycle_ticks t with h | ⟨n, h⟩ <;> rw [h]; rfl
@[simp] theorem ChanState.ticks_bricks (ch : ChanState) (n : Nat) : (ch.ticks n).bricks = ch.bricks := rfl
@[simp] theorem ChanState.advanceTo_bricks (ch : ChanState) (t : Nat) : (ch.advanceTo t).bricks = ch.bricks := by rcases ch.advanceTo_ticks t with h | ⟨n, h⟩ <;> rw [h]; rfl
@[simp] theorem ChanState.advanceInCycle_bricks (ch : ChanState) (t : Nat) : (ch.advanceInCycle t).bricks = ch.bricks := by rcases ch.advanceInCycle_ticks t with h | ⟨n, h⟩ <;> rw [h]; rfl
@[simp] theorem ChanState.ticks_ring (ch : ChanState) (n : Nat) : (ch.ticks n).ring = ch.ring := rfl
@[simp] theorem ChanState.advanceTo_ring (ch : ChanState) (t : Nat) : (ch.advanceTo t).ring = ch.ring := by rcases ch.advanceTo_ticks t with h | ⟨n, h⟩ <;> rw [h]; rfl
@[simp] theorem ChanState.advanceInCycle_ring (ch : ChanState) (t : Nat) : (ch.advanceInCycle t).ring = ch.ring := by rcases ch.advanceInCycle_ticks t with h | ⟨n, h⟩ <;> rw [h]; rfl
@[simp] theorem ChanState.ticks_lockMark (ch : ChanState) (n : Nat) : (ch.ticks n).lockMark = ch.lockMark := rfl
@[simp] theorem ChanState.advanceTo_lockMark (ch : ChanState) (t : Nat) : (ch.advanceTo t).lockMark = ch.lockMark := by rcases ch.advanceTo_ticks t with h | ⟨n, h⟩ <;> rw [h]; rfl
@[simp] theorem ChanState.advanceInCycle_lockMark (ch : ChanState) (t : Nat) : (ch.advanceInCycle t).lockMark = ch.lockMark := by rcases ch.advanceInCycle_ticks t with h | ⟨n, h⟩ <;> rw [h]; rfl
@[simp] theorem ChanState.ticks_saf (ch : ChanState) (n : Nat) : (ch.ticks n).saf = ch.saf := rfl
@[simp] theorem ChanState.advanceTo_saf (ch : ChanState) (t : Nat) : (ch.advanceTo t).saf = ch.saf := by rcases ch.advanceTo_ticks t with h | ⟨n, h⟩ <;> rw [h]; rfl
@[simp] theorem ChanState.advanceInCycle_saf (ch : ChanState) (t : Nat) : (ch.advanceInCycle t).saf = ch.saf := by rcases ch.advanceInCycle_ticks t with h | ⟨n, h⟩ <;> rw [h]; rfl
@[simp] theorem ChanState.ticks_scx (ch : ChanState) (n : Nat) : (ch.ticks n).scx = ch.scx := rfl
@[simp] theorem ChanState.advanceTo_scx (ch : ChanState) (t : Nat) : (ch.advanceTo t).scx = ch.scx := by rcases ch.advanceTo_ticks t with h | ⟨n, h⟩ <;> rw [h]; rfl
@[simp] theorem ChanState.advanceInCycle_scx (ch : ChanState) (t : Nat) : (ch.advanceInCycle t).scx = ch.scx := by rcases ch.advanceInCycle_ticks t with h | ⟨n, h⟩ <;> rw [h]; rfl
@[simp] theorem ChanState.ticks_sep (ch : ChanState) (n : Nat) : (ch.ticks n).sep = ch.sep := rfl
@[simp] theorem ChanState.advanceTo_sep (ch : ChanState) (t : Nat) : (ch.advanceTo t).sep = ch.sep := by rcases ch.advanceTo_ticks t with h | ⟨n, h⟩ <;> rw [h]; rfl
@[simp] theorem ChanState.advanceInCycle_sep (ch : ChanState) (t : Nat) : (ch.advanceInCycle t).sep = ch.sep := by rcases ch.advanceInCycle_ticks t with h | ⟨n, h⟩ <;> rw [h]; rfl
@[simp] theorem ChanState.ticks_smem (ch : ChanState) (n : Nat) : (ch.ticks n).smem = ch.smem := rfl
@[simp] theorem ChanState.advanceTo_smem (ch : ChanState) (t : Nat) : (ch.advanceTo t).smem = ch.smem := by rcases ch.advanceTo_ticks t with h | ⟨n, h⟩ <;> rw [h]; rfl
@[simp] theorem ChanState.advanceInCycle_smem (ch : ChanState) (t : Nat) : (ch.advanceInCycle t).smem = ch.smem := by rcases ch.advanceInCycle_ticks t with h | ⟨n, h⟩ <;> rw [h]; rfl
@[simp] theorem ChanState.ticks_cb (ch : ChanState) (n : Nat) : (ch.ticks n).cb = ch.cb := rfl
@[simp] theorem ChanState.advanceTo_cb (ch : ChanState) (t : Nat) : (ch.advanceTo t).cb = ch.cb := by rcases ch.advanceTo_ticks t with h | ⟨n, h⟩ <;> rw [h]; rfl
@[simp] theorem ChanState.advanceInCycle_cb (ch : ChanState) (t : Nat) : (ch.advanceInCycle t).cb = ch.cb := by rcases ch.advanceInCycle_ticks t with h | ⟨n, h⟩ <;> rw [h]; rfl
@[simp] theorem ChanState.ticks_red (ch : ChanState) (n : Nat) : (ch.ticks n).red = ch.red := rfl
@[simp] theorem ChanState.advanceTo_red (ch : ChanState) (t : Nat) : (ch.advanceTo t).red = ch.red := by rcases ch.advanceTo_ticks t with h | ⟨n, h⟩ <;> rw [h]; rfl
@[simp] theorem ChanState.advanceInCycle_red (ch : ChanState) (t : Nat) : (ch.advanceInCycle t).red = ch.red := by rcases ch.advanceInCycle_ticks t with h | ⟨n, h⟩ <;> rw [h]; rfl
@[simp] theorem ChanState.ticks_nvm (ch : ChanState) (n : Nat) : (ch.ticks n).nvm = ch.nvm := rfl
@[simp] theorem ChanState.advanceTo_nvm (ch : ChanState) (t : Nat) : (ch.advanceTo t).nvm = ch.nvm := by rcases ch.advanceTo_ticks t with h | ⟨n, h⟩ <;> rw [h]; rfl
@[simp] theorem ChanState.advanceInCycle_nvm (ch : ChanState) (t : Nat) : (ch.advanceInCycle t).nvm = ch.nvm := by rcases ch.advanceInCycle_ticks t with h | ⟨n, h⟩ <;> rw [h]; rfl
@[simp] theorem ChanState.ticks_cfg (ch : ChanState) (n : Nat) : (ch.ticks n).cfg = ch.cfg := rfl
@[simp] theorem ChanState.advanceTo_cfg (ch : ChanState) (t : Nat) : (ch.advanceTo t).cfg = ch.cfg := by rcases ch.advanceTo_ticks t with h | ⟨n, h⟩ <;> rw [h]; rfl
@[simp] theorem ChanState.advanceInCycle_cfg (ch : ChanState) (t : Nat) : (ch.advanceInCycle t).cfg = ch.cfg := by rcases ch.advanceInCycle_ticks t with h | ⟨n, h⟩ <;> rw [h]; rfl
@[simp] theorem ChanState.ticks_cps (ch : ChanState) (n : Nat) : (ch.ticks n).cps = ch.cps := rfl
@[simp] theorem ChanState.advanceTo_cps (ch : ChanState) (t : Nat) : (ch.advanceTo t).cps = ch.cps := by rcases ch.advanceTo_ticks t with h | ⟨n, h⟩ <;> rw [h]; rfl
@[simp] theorem ChanState.advanceInCycle_cps (ch : ChanState) (t : Nat) : (ch.advanceInCycle t).cps = ch.cps := by rcases ch.advanceInCycle_ticks t with h | ⟨n, h⟩ <;> rw [h]; rfl
@[simp] theorem ChanState.ticks_readyAt (ch : ChanState) (n : Nat) : (ch.ticks n).readyAt = ch.readyAt := rfl
@[simp] theorem ChanState.advanceTo_readyAt (ch : ChanState) (t : Nat) : (ch.advanceTo t).readyAt = ch.readyAt := by rcases ch.advanceTo_ticks t with h | ⟨n, h⟩ <;> rw [h]; rfl
@[simp] theorem ChanState.advanceInCycle_readyAt (ch : ChanState) (t : Nat) : (ch.advanceInCycle t).readyAt = ch.readyAt := by rcases ch.advanceInCycle_ticks t with h | ⟨n, h⟩ <;> rw [h]; rfl
@[simp] theorem ChanState.ticks_fn (ch : ChanState) (n : Nat) : (ch.ticks n).fn = ch.fn := rfl
@[simp] theorem ChanState.advanceTo_fn (ch : ChanState) (t : Nat) : (ch.advanceTo t).fn = ch.fn := by rcases ch.advanceTo_ticks t with h | ⟨n, h⟩ <;> rw [h]; rfl
@[simp] theorem ChanState.advanceInCycle_fn (ch : ChanState) (t : Nat) : (ch.advanceInCycle t).fn = ch.fn := by rcases ch.advanceInCycle_ticks t with h | ⟨n, h⟩ <;> rw [h]; rfl
@[simp] theorem ChanState.ticks_lehr (ch : ChanState) (n : Nat) : (ch.ticks n).lehr = ch.lehr := rfl
@[simp] theorem ChanState.advanceTo_lehr (ch : ChanState) (t : Nat) : (ch.advanceTo t).lehr = ch.lehr := by rcases ch.advanceTo_ticks t with h | ⟨n, h⟩ <;> rw [h]; rfl
@[simp] theorem ChanState.advanceInCycle_lehr (ch : ChanState) (t : Nat) : (ch.advanceInCycle t).lehr = ch.lehr := by rcases ch.advanceInCycle_ticks t with h | ⟨n, h⟩ <;> rw [h]; rfl
@[simp] theorem ChanState.ticks_slv (ch : ChanState) (n : Nat) : (ch.ticks n).slv = ch.slv := rfl
@[simp] theorem ChanState.advanceTo_slv (ch : ChanState) (t : Nat) : (ch.advanceTo t).slv = ch.slv := by rcases ch.advanceTo_ticks t with h | ⟨n, h⟩ <;> rw [h]; rfl
@[simp] theorem ChanState.advanceInCycle_slv (ch : ChanState) (t : Nat) : (ch.advanceInCycle t).slv = ch.slv := by rcases ch.advanceInCycle_ticks t with h | ⟨n, h⟩ <;> rw [h]; rfl
@[simp] theorem ChanState.ticks_get (ch : ChanState) (n : Nat) (f : RF) : (ch.ticks n).get f = ch.get f := rfl
@[simp] theorem ChanState.advanceTo_get (ch : ChanState) (t : Nat) (f : RF) : (ch.advanceTo t).get f = ch.get f := ChanState.get_congr (by simp) f
@[simp] theorem ChanState.advanceInCycle_get (ch : ChanState) (t : Nat) (f : RF) : (ch.advanceInCycle t).get f = ch.get f :=
  ChanState.get_congr (by simp) f

/-! ### Loops -/

/-- What every pass of a loop keeps, the loop keeps. -/
theorem forUpto_keeps {α : Type} (P : α → Prop) (f : Nat → α → α) (hf : ∀ i x, P x → P (f i x)) (n : Nat) (x : α) (h : P x) :
    P (forUpto n x f) := by
  unfold forUpto
  induction List.range n generalizing x with
  | nil => exact h
  | cons i l ih => exact ih _ (hf i x h)

theorem foldl_keeps {α β : Type} (P : α → Prop) (f : α → β → α) (hf : ∀ x b, P x → P (f x b)) (l : List β) (x : α) (h : P x) :
    P (l.foldl f x) := by
  induction l generalizing x with
  | nil => exact h
  | cons b l ih => exact ih _ (hf x b h)

/-- One more pass of a loop. -/
theorem forUpto_succ {α : Type} (n : Nat) (x : α) (f : Nat → α → α) : forUpto (n + 1) x f = f n (forUpto n x f) := by
  simp [forUpto, List.range_succ]

end Sys2Proof.Machine
end

