-- ==== Sys2Proof/Laws/Ops.lean ====
section
/-!
SUPPORT. Laws of the shared operations: what an event, the end of host work, a review of torque, a change of the channel state and a
fault's reaction may change, each said once; and what a change of state and a fault leave behind.
-/
namespace Sys2Proof.Machine

open Sys2Proof

/-! ### Frames -/

theorem Only.refl (T a) : Only T a a := ⟨rfl, fun _ _ => rfl⟩
theorem Only.trans {T a b c} (h : Only T a b) (k : Only T b c) : Only T a c :=
  ⟨k.state.trans h.state, fun f hf => (k.word f hf).trans (h.word f hf)⟩
theorem Only.get {T a b} (h : Only T a b) (f : RF) (hf : T.any (·.covers f.ofs) = false) : b.get f = a.get f := by
  simp only [ChanState.get, h.word f hf]
theorem Only.bit {T a b} (h : Only T a b) (f : RF) (hf : T.any (·.covers f.ofs) = false) : b.bit f = a.bit f := by
  simp only [ChanState.bit, h.get f hf]
theorem Only.keep {α : Type} {T a b} (h : Only T a b) (p : ChanState → α) (hp : ∀ x : ChanState, p (x.without T) = p x) : p b = p a := by
  rw [← hp b, ← hp a, h.state]
theorem Only.ite {T a b c} {q : Prop} [Decidable q] (h : Only T a b) (k : Only T a c) : Only T a (if q then b else c) := by
  split <;> assumption
theorem Only.loop {T} (f : Nat → ChanState → ChanState) (hf : ∀ i x, Only T x (f i x)) (n : Nat) (x : ChanState) :
    Only T x (forUpto n x f) :=
  forUpto_keeps (Only T x) f (fun i y h => h.trans (hf i y)) n x (Only.refl _ _)
theorem Only.fold {T} {β : Type} (f : ChanState → β → ChanState) (hf : ∀ x b, Only T x (f x b)) (l : List β) (x : ChanState) :
    Only T x (l.foldl f x) :=
  foldl_keeps (Only T x) f (fun y b h => h.trans (hf y b)) l x (Only.refl _ _)

/-- A loop over numbers below a bound. -/
theorem Only.loopBelow {T} (f : Nat → ChanState → ChanState) (n : Nat) (hf : ∀ i x, i < n → Only T x (f i x)) (x : ChanState) :
    Only T x (forUpto n x f) := by
  induction n with
  | zero => exact Only.refl _ _
  | succ n ih =>
    rw [forUpto_succ]
    exact (ih fun i y h => hf i y (Nat.lt_succ_of_lt h)).trans (hf n _ (Nat.lt_succ_self n))

theorem ite_ite_of {α : Type} {p q : Bool} (h : q = true → p = true) (d v : α) :
    (if p = true then d else if q = true then d else v) = if p = true then d else v := by
  cases p <;> cases q <;> simp_all

theorem ChanState.without_without {T U : List Part} (h : ∀ p ∈ T, p ∈ U) (x : ChanState) : (x.without T).without U = x.without U := by
  have e : ∀ p : Part, T.contains p = true → U.contains p = true := fun p hp => by
    rw [List.contains_iff_mem] at *; exact h p hp
  unfold ChanState.without
  congr 1
  all_goals exact ite_ite_of (e _) _ _

/-- More parts may change. -/
theorem Only.mono {T U a b} (h : Only T a b) (k : ∀ p ∈ T, p ∈ U) : Only U a b :=
  ⟨by rw [← ChanState.without_without k b, ← ChanState.without_without k a, h.state], fun f hf => h.word f (by
    rw [List.any_eq_false] at *; exact fun p hp => hf p (k p hp))⟩

theorem ChanState.without_put (T : List Part) (ch : ChanState) (f : RF) (v : Nat) : (ch.put f v).without T = ch.without T := by
  rw [ChanState.put_withRegs]; rfl

/-- A field write changes its register. -/
theorem only_put (T : List Part) (ch : ChanState) (f : RF) (v : Nat) (h : T.any (·.covers f.ofs) = true) : Only T ch (ch.put f v) :=
  ⟨ch.without_put T f v, fun g hg => ch.word_put_ne f g v (by intro e; rw [e, h] at hg; cases hg)⟩

/-- `Only tellParts` and the like as relations. -/
abbrev Told (a b : ChanState) : Prop := Only tellParts a b
abbrev Units (a b : ChanState) : Prop := Only unitParts a b
abbrev Torque (a b : ChanState) : Prop := Only torqueParts a b
abbrev Hosted (a b : ChanState) : Prop := Only hostParts a b
abbrev Surged (a b : ChanState) : Prop := Only surgeParts a b
abbrev Quiet (a b : ChanState) : Prop := Only quietParts a b
abbrev Aside (a b : ChanState) : Prop := Only stateParts a b
abbrev React (a b : ChanState) : Prop := Only reactParts a b
abbrev Noted (a b : ChanState) : Prop := Only noteParts a b
abbrev Faulted (a b : ChanState) : Prop := Only faultParts a b

theorem Told.hosted {a b : ChanState} (h : Told a b) : Hosted a b := h.mono fun _ hp => List.mem_append_left _ hp
theorem Told.surged {a b : ChanState} (h : Told a b) : Surged a b := h.mono fun _ hp => List.mem_append_left _ hp
theorem Torque.quiet {a b : ChanState} (h : Torque a b) : Quiet a b := h.mono fun _ hp => List.mem_append_left _ hp
theorem Hosted.quiet {a b : ChanState} (h : Hosted a b) : Quiet a b :=
  h.mono fun _ hp => List.mem_append_right _ (List.mem_append_left _ hp)
theorem Surged.quiet {a b : ChanState} (h : Surged a b) : Quiet a b :=
  h.mono fun _ hp => List.mem_append_right _ (List.mem_append_right _ hp)
theorem Told.quiet {a b : ChanState} (h : Told a b) : Quiet a b := (Told.hosted h).quiet
theorem Quiet.aside {a b : ChanState} (h : Quiet a b) : Aside a b := h.mono fun _ hp => List.mem_append_left _ hp
theorem Aside.react {a b : ChanState} (h : Aside a b) : React a b := h.mono fun _ hp => List.mem_append_left _ hp
theorem React.faulted {a b : ChanState} (h : React a b) : Faulted a b := h.mono fun _ hp => List.mem_append_left _ hp
theorem Told.noted {a b : ChanState} (h : Told a b) : Noted a b := h.mono fun _ hp => List.mem_append_left _ hp
theorem Noted.faulted {a b : ChanState} (h : Noted a b) : Faulted a b := h.mono fun _ hp => List.mem_append_right _ hp

/-! ### What telling the host changes -/

theorem told_put (ch : ChanState) (f : RF) (v : Nat) (h : tellParts.any (·.covers f.ofs) = true) : Told ch (ch.put f v) :=
  only_put _ _ _ _ h
theorem told_trc (ch : ChanState) (t : Trace) : Told ch { ch with trc := t } := ⟨rfl, fun _ _ => rfl⟩
theorem told_sch (ch : ChanState) (t : Sched) : Told ch { ch with sch := t } := ⟨rfl, fun _ _ => rfl⟩
theorem told_sent (ch : ChanState) (t : List Sent) : Told ch { ch with sent := t } := ⟨rfl, fun _ _ => rfl⟩
theorem tellReg_low {o : Nat} (h : 0x4000 ≤ o) (k : o < 0x6000) : tellParts.any (·.covers o) = true := by
  simp [tellParts, Part.covers, h, k]

theorem told_trcShow (ch : ChanState) : Told ch ch.trcShow :=
  (((told_put ch _ _ rfl).trans (told_put _ _ _ rfl)).trans (told_put _ _ _ rfl)).trans (told_put _ _ _ rfl)

theorem told_trcByte (ch : ChanState) (b : Byte) : Told ch (ch.trcByte b) := by
  unfold ChanState.trcByte; extract_lets st; split
  · exact (told_trc ch _).trans (told_put _ _ _ rfl)
  · exact told_trc ch _

theorem told_trcWrite (ch : ChanState) (bs : List Byte) : Told ch (ch.trcWrite bs) :=
  (((Only.fold _ told_trcByte bs ch).trans (told_put _ _ _ rfl)).trans (told_put _ _ _ rfl)).trans (told_trcShow _)

theorem told_trcOffer (ch : ChanState) (src : Nat) (body : List Byte) (h : src < 8) : Told ch (ch.trcOffer src body) := by
  unfold ChanState.trcOffer
  refine Only.ite (Only.refl _ _) ?_
  extract_lets r t ch' held
  have h1 : Told ch ch' := told_trc ch _
  clear_value ch'
  refine Only.ite (h1.trans (told_trcWrite _ _)) (Only.ite (h1.trans (told_trc _ _)) ?_)
  exact (h1.trans (told_put _ _ _ rfl)).trans (told_put _ _ _ (tellReg_low (by simp only [Reg.TRC_WHELD]; omega) (by simp only [Reg.TRC_WHELD]; omega)))

theorem told_setQueue (ch : ChanState) (q : Nat) (l : List Task) (h : q < 8) : Told ch (ch.setQueue q l) := by
  unfold ChanState.setQueue
  exact (told_sch ch _).trans (told_put _ _ _ (tellReg_low (by simp only [Reg.SCH_QDEPTH_DEPTH]; omega) (by simp only [Reg.SCH_QDEPTH_DEPTH]; omega)))

theorem told_schPend (ch : ChanState) : Told ch ch.schPend := told_put ch _ _ rfl

theorem told_eventTask (ch : ChanState) (e : Nat) : Told ch (ch.eventTask e) := by
  unfold ChanState.eventTask
  extract_lets q t
  refine Only.ite (told_put ch _ _ rfl) ?_
  exact ((told_setQueue ch q _ (ch.get_lt (Reg.SCH_EVT_Q e))).trans (told_put _ _ _ rfl)).trans (told_schPend _)

theorem told_sendMsix (ch : ChanState) (v : Nat) : Told ch (ch.sendMsix v) := by
  unfold ChanState.sendMsix
  exact Only.ite (told_put ch _ _ rfl) (told_sent ch _)

theorem told_msixRelease (ch : ChanState) : Told ch ch.msixRelease := by
  unfold ChanState.msixRelease
  exact Only.loop _ (fun v x => Only.ite ((told_put x _ _ rfl).trans (told_sendMsix _ _)) (Only.refl _ _)) _ _

/-- All an event can change: the trace, the vectors sent or pending, HOST_EVPEND and HOST_EVOVR, the tasks it releases. -/
theorem told_event (ch : ChanState) (e : Nat) : Told ch (ch.event e) := by
  unfold ChanState.event
  extract_lets c1 c2
  have h1 : Told ch c1 := Only.ite (told_trcOffer ch _ _ (by decide)) (Only.refl _ _)
  have h2 : Told c1 c2 := by
    clear_value c1
    refine Only.ite (Only.ite (told_put _ _ _ rfl) ?_) (Only.refl _ _)
    exact ((told_put _ _ _ rfl).trans (told_put _ _ _ rfl)).trans (told_sendMsix _ _)
  clear_value c1 c2
  exact (h1.trans h2).trans (Only.loop _ (fun i x => Only.ite (told_eventTask _ _) (Only.refl _ _)) _ _)

theorem ChanState.event_get (ch : ChanState) (e : Nat) (f : RF) (h : tellParts.any (·.covers f.ofs) = false) : (ch.event e).get f = ch.get f :=
  (told_event ch e).get f h

/-! ### What reviews of torque and the end of host work change -/

theorem quiet_put (ch : ChanState) (f : RF) (v : Nat) (h : quietParts.any (·.covers f.ofs) = true) : Quiet ch (ch.put f v) :=
  only_put _ _ _ _ h
theorem host_put (ch : ChanState) (f : RF) (v : Nat) (h : hostParts.any (·.covers f.ofs) = true) : Hosted ch (ch.put f v) :=
  only_put _ _ _ _ h
theorem host_slv (ch : ChanState) (t : Slv) : Hosted ch { ch with slv := t } := ⟨rfl, fun _ _ => rfl⟩
theorem host_smem (ch : ChanState) (t : Tab Byte) : Hosted ch { ch with smem := t } := ⟨rfl, fun _ _ => rfl⟩
theorem surge_put (ch : ChanState) (f : RF) (v : Nat) (h : surgeParts.any (·.covers f.ofs) = true) : Surged ch (ch.put f v) :=
  only_put _ _ _ _ h
theorem surge_lehr (ch : ChanState) (t : Lehr) : Surged ch { ch with lehr := t } := ⟨rfl, fun _ _ => rfl⟩
theorem surge_event (ch : ChanState) (e : Nat) : Surged ch (ch.event e) := (told_event ch e).surged

theorem unit_put (ch : ChanState) (f : RF) (v : Nat) (h : unitParts.any (·.covers f.ofs) = true) : Units ch (ch.put f v) :=
  only_put _ _ _ _ h
theorem unit_setPwm (ch : ChanState) (u : Nat) (p : Pwm) : Units ch (ch.setPwm u p) := ⟨rfl, fun _ _ => rfl⟩
theorem unit_setStp (ch : ChanState) (u : Nat) (p : Stp) : Units ch (ch.setStp u p) := ⟨rfl, fun _ _ => rfl⟩
theorem unit_setJoint (ch : ChanState) (j : Nat) (x : Joint) : Units ch (ch.setJoint j x) := ⟨rfl, fun _ _ => rfl⟩

theorem unitReg_psts (u : Nat) (h : u < 16) : unitParts.any (·.covers (0x10038 + 256 * u)) = true := by
  have a : 0x10000 ≤ 0x10038 + 256 * u := by omega
  have b : 0x10038 + 256 * u < 0x11000 := by omega
  have c : (0x10038 + 256 * u) % 256 = 0x38 := by omega
  simp [unitParts, Part.covers, a, b, c]
theorem unitReg_ssts (u : Nat) (h : u < 16) : unitParts.any (·.covers (0x11024 + 256 * u)) = true := by
  have a : 0x11000 ≤ 0x11024 + 256 * u := by omega
  have b : 0x11024 + 256 * u < 0x12000 := by omega
  have c : (0x11024 + 256 * u) % 256 = 0x24 := by omega
  simp [unitParts, Part.covers, a, b, c]

theorem unitReg_gates (u : Nat) (h : u < 16) : unitParts.any (·.covers (Reg.PWM_STS_GATES u).ofs) = true := unitReg_psts u h
theorem unitReg_on (u : Nat) (h : u < 16) : unitParts.any (·.covers (Reg.PWM_STS_ON u).ofs) = true := unitReg_psts u h
theorem unitReg_csa (u : Nat) (h : u < 16) : unitParts.any (·.covers (Reg.STP_STS_CSA u).ofs) = true := unitReg_ssts u h
theorem unitReg_csb (u : Nat) (h : u < 16) : unitParts.any (·.covers (Reg.STP_STS_CSB u).ofs) = true := unitReg_ssts u h
theorem unitReg_coil (u : Nat) (c : Coil) (h : u < 16) : unitParts.any (·.covers (coilField u c).ofs) = true := by cases c <;> exact unitReg_ssts u h

theorem unit_setBrakes (ch : ChanState) (j : Nat) (rel : Bool) : Units ch (ch.setBrakes j rel) := by
  unfold ChanState.setBrakes
  extract_lets c1
  have h1 : Units ch c1 := Only.loop _ (fun i x => Only.ite (unit_put x _ _ rfl) (Only.refl _ _)) _ _
  clear_value c1
  exact Only.ite (h1.trans ((unit_put c1 _ _ rfl).trans (unit_put _ _ _ rfl))) h1

theorem unit_gatesOff (ch : ChanState) (u : Nat) (h : u < 16) : Units ch (ch.gatesOff u) := by
  unfold ChanState.gatesOff
  extract_lets p off
  exact ((unit_setPwm ch u _).trans (unit_put _ _ _ (unitReg_gates u h))).trans (unit_put _ _ _ (unitReg_on u h))

theorem unit_gatesOn (ch : ChanState) (u : Nat) (h : u < 16) : Units ch (ch.gatesOn u) := by
  unfold ChanState.gatesOn
  extract_lets p t ph
  exact (unit_setPwm ch u _).trans (unit_put _ _ _ (unitReg_on u h))

theorem unit_unitReview (ch : ChanState) (u : Nat) (h : u < 16) : Units ch (ch.unitReview u) := by
  unfold ChanState.unitReview
  exact Only.ite (Only.ite (Only.refl _ _) (unit_gatesOn ch u h)) (Only.ite (unit_gatesOff ch u h) (Only.refl _ _))

theorem unit_coilStart (ch : ChanState) (n : Nat) (c : Coil) (h : n < 16) : Units ch (ch.coilStart n c) := by
  unfold ChanState.coilStart
  extract_lets i
  exact Only.ite ((unit_setStp ch n _).trans (unit_put _ _ _ (unitReg_coil n c h)))
    ((unit_setStp ch n _).trans (unit_put _ _ _ (unitReg_coil n c h)))

theorem unit_coilsOff (ch : ChanState) (n : Nat) (h : n < 16) : Units ch (ch.coilsOff n) := by
  unfold ChanState.coilsOff
  exact ((unit_setStp ch n _).trans (unit_put _ _ _ (unitReg_csa n h))).trans (unit_put _ _ _ (unitReg_csb n h))

theorem unit_stpReview (ch : ChanState) (n : Nat) (h : n < 16) : Units ch (ch.stpReview n) := by
  unfold ChanState.stpReview
  exact Only.ite (Only.ite (Only.refl _ _) ((unit_coilStart ch n _ h).trans (unit_coilStart _ n _ h)))
    (Only.ite (unit_coilsOff ch n h) (Only.refl _ _))

theorem unit_unitsReview (ch : ChanState) : Units ch ch.unitsReview := by
  unfold ChanState.unitsReview
  exact (Only.loopBelow _ 16 (fun u x h => unit_unitReview x u h) ch).trans
    (Only.loopBelow _ 8 (fun n x h => unit_stpReview x n (by omega)) _)

/-! ### What a review of torque changes, and what it leaves of torque -/

theorem Units.torque {a b : ChanState} (h : Units a b) : Torque a b := h.mono fun _ hp => List.mem_append_left _ hp
theorem torqueReg_toff (j : Nat) (h : j < 64) : torqueParts.any (·.covers (Reg.JNT_STS_TOFF j).ofs) = true := by
  have a : 0x8000 ≤ 0x8080 + 256 * j := by omega
  have b : 0x8080 + 256 * j < 0xC000 := by omega
  have c : (0x8080 + 256 * j) % 256 = 0x80 := by omega
  simp [torqueParts, unitParts, Part.covers, Reg.JNT_STS_TOFF, a, b, c]
theorem torque_put (ch : ChanState) (f : RF) (v : Nat) (h : torqueParts.any (·.covers f.ofs) = true) : Torque ch (ch.put f v) :=
  only_put _ _ _ _ h

/-- Whether a joint is bound, and whether its torque is wanted, for every joint alike. -/
structure SameWish (a b : ChanState) : Prop where
  bound : ∀ j, j < 64 → b.bound j = a.bound j
  wanted : ∀ j, j < 64 → b.torqueWanted j = a.torqueWanted j

theorem SameWish.refl (a) : SameWish a a := ⟨fun _ _ => rfl, fun _ _ => rfl⟩
theorem SameWish.trans {a b c} (h : SameWish a b) (k : SameWish b c) : SameWish a c :=
  ⟨fun j hj => (k.bound j hj).trans (h.bound j hj), fun j hj => (k.wanted j hj).trans (h.wanted j hj)⟩

/-- The registers a wish reads, but for the joint's own gates. -/
theorem torque_wish {a b : ChanState} (h : Torque a b) (g : ∀ j, j < 64 → b.bit (Reg.JNT_STS_GOFF j) = a.bit (Reg.JNT_STS_GOFF j)) :
    SameWish a b := by
  have far : ∀ {o : Nat}, o < 0x8000 ∨ (0x8000 ≤ o ∧ o < 0xC000 ∧ o % 256 ≠ 0x80) ∨ 0x12000 ≤ o → torqueParts.any (·.covers o) = false := by
    intro o ho
    simp only [torqueParts, unitParts, Part.covers, List.cons_append, List.nil_append, List.any_cons, List.any_nil, Bool.or_false, Bool.false_or]
    simp only [Bool.or_eq_false_iff, Bool.and_eq_false_iff, decide_eq_false_iff_not]
    omega
  have hb : ∀ j, j < 64 → b.bit (Reg.JNT_BIND_KIND j) = a.bit (Reg.JNT_BIND_KIND j) := fun j hj =>
    h.bit _ (far (by simp only [Reg.JNT_BIND_KIND]; omega))
  refine ⟨hb, fun j hj => ?_⟩
  have hs : b.torqueState = a.torqueState := by
    unfold ChanState.torqueState
    rw [h.get Reg.CHN_STATE_CODE (by decide), h.keep (·.goingReady) (fun _ => rfl)]
  have ha : b.arm (b.armOf j) = a.arm (a.armOf j) := by
    unfold ChanState.arm ChanState.armOf
    rw [h.get (Reg.JNT_BIND_ARM j) (far (by simp only [Reg.JNT_BIND_ARM]; omega)), h.keep (·.arms) (fun _ => rfl)]
  have hg : b.groupOf j = a.groupOf j := by
    unfold ChanState.groupOf
    rw [h.get (Reg.SAF_JGRP (j / 16)) (far (by simp only [Reg.SAF_JGRP]; omega))]
  unfold ChanState.torqueWanted
  rw [hs, ha, g j hj, show b.bound j = a.bound j from hb j hj, hg,
    h.bit (Reg.SAF_STOSTS_ENG (a.groupOf j)) (far (by simp only [Reg.SAF_STOSTS_ENG]; omega))]

theorem unit_jsts {a b : ChanState} (h : Units a b) (j : Nat) (hj : j < 64) (f : RF) (hf : f.ofs = 0x8080 + 256 * j) : b.bit f = a.bit f := by
  refine h.bit _ ?_
  rw [hf]
  simp only [unitParts, Part.covers, List.any_cons, List.any_nil, Bool.or_false, Bool.false_or]
  simp only [Bool.or_eq_false_iff, Bool.and_eq_false_iff, decide_eq_false_iff_not]
  omega
theorem put_toff_goff (ch : ChanState) (i j v : Nat) : (ch.put (Reg.JNT_STS_TOFF i) v).bit (Reg.JNT_STS_GOFF j) = ch.bit (Reg.JNT_STS_GOFF j) := by
  unfold ChanState.bit
  by_cases e : j = i
  · subst e; rw [ChanState.get_put_apart ch (Reg.JNT_STS_TOFF j) (Reg.JNT_STS_GOFF j) v rfl rfl (by show 0 + 1 ≤ 32; decide)
      (by show 1 + 1 ≤ 0 ∨ 0 + 1 ≤ 1; decide)]
  · rw [ChanState.get_put_ne _ _ _ _ (by simp only [Reg.JNT_STS_GOFF, Reg.JNT_STS_TOFF]; omega)]
theorem put_toff_ne (ch : ChanState) (i j v : Nat) (e : j ≠ i) : (ch.put (Reg.JNT_STS_TOFF i) v).bit (Reg.JNT_STS_TOFF j) = ch.bit (Reg.JNT_STS_TOFF j) := by
  unfold ChanState.bit
  rw [ChanState.get_put_ne _ _ _ _ (by simp only [Reg.JNT_STS_TOFF]; omega)]
theorem put_toff_on (ch : ChanState) (i : Nat) : (ch.put (Reg.JNT_STS_TOFF i) 1).bit (Reg.JNT_STS_TOFF i) = true := by
  unfold ChanState.bit
  rw [ChanState.get_put_same _ _ _ (by simp only [Reg.JNT_STS_TOFF]; omega)]; rfl

/-- A joint's torque dropped: its TOFF is set, the other joints' stand as they are. -/
theorem torqueDrop_toff (ch : ChanState) (j : Nat) (h : j < 64) :
    Torque ch (ch.torqueDrop j) ∧ (ch.torqueDrop j).bit (Reg.JNT_STS_TOFF j) = true ∧
    (∀ i, i < 64 → i ≠ j → (ch.torqueDrop j).bit (Reg.JNT_STS_TOFF i) = ch.bit (Reg.JNT_STS_TOFF i)) ∧
    (∀ i, i < 64 → (ch.torqueDrop j).bit (Reg.JNT_STS_GOFF i) = ch.bit (Reg.JNT_STS_GOFF i)) := by
  generalize hx : ch.torqueDrop j = x
  unfold ChanState.torqueDrop at hx
  extract_lets y c1 u c2 at hx
  have h0 : Units ch (ch.setJoint j { y with tfirstC := true, tfirstS := true }) := unit_setJoint ch j _
  obtain ⟨t1, e1, n1, g1⟩ : Torque ch c1 ∧ c1.bit (Reg.JNT_STS_TOFF j) = true ∧
      (∀ i, i < 64 → i ≠ j → c1.bit (Reg.JNT_STS_TOFF i) = ch.bit (Reg.JNT_STS_TOFF i)) ∧
      (∀ i, i < 64 → c1.bit (Reg.JNT_STS_GOFF i) = ch.bit (Reg.JNT_STS_GOFF i)) :=
    ⟨h0.torque.trans (torque_put _ _ _ (torqueReg_toff j h)), put_toff_on _ _,
      fun i _ hi => put_toff_ne _ j i 1 hi, fun i _ => put_toff_goff _ j i 1⟩
  have hu : u < 16 := c1.get_lt (Reg.JNT_BIND_UNIT j)
  have h2 : Units c1 x := by
    rw [← hx]
    exact Only.trans (Only.ite (unit_gatesOff c1 u hu) (Only.ite (unit_coilsOff c1 u hu) (Only.refl _ _))) (unit_setBrakes _ _ _)
  exact ⟨t1.trans h2.torque, (unit_jsts h2 j h _ rfl).trans e1, fun i hi hn => (unit_jsts h2 i hi _ rfl).trans (n1 i hi hn),
    fun i hi => (unit_jsts h2 i hi _ rfl).trans (g1 i hi)⟩

/-- What a review does with joint `j`. -/
def ChanState.reviewOne (ch : ChanState) (j : Nat) : ChanState :=
  if !ch.bound j then ch
  else if ch.torqueWanted j then
    if ch.bit (Reg.JNT_STS_TOFF j) then (ch.put (Reg.JNT_STS_TOFF j) 0).setBrakes j true else ch
  else if ch.bit (Reg.JNT_STS_TOFF j) then ch else ch.torqueDrop j

theorem reviewOne_toff (ch : ChanState) (j : Nat) (h : j < 64) :
    Torque ch (ch.reviewOne j) ∧ (ch.bound j = true → ch.torqueWanted j = false → (ch.reviewOne j).bit (Reg.JNT_STS_TOFF j) = true) ∧
    (∀ i, i < 64 → i ≠ j → (ch.reviewOne j).bit (Reg.JNT_STS_TOFF i) = ch.bit (Reg.JNT_STS_TOFF i)) ∧
    (∀ i, i < 64 → (ch.reviewOne j).bit (Reg.JNT_STS_GOFF i) = ch.bit (Reg.JNT_STS_GOFF i)) := by
  unfold ChanState.reviewOne
  split
  next hb => exact ⟨Only.refl _ _, fun k => by simp [k] at hb, fun _ _ _ => rfl, fun _ _ => rfl⟩
  split
  next hw =>
    split
    · have u := unit_setBrakes (ch.put (Reg.JNT_STS_TOFF j) 0) j true
      exact ⟨(torque_put _ _ _ (torqueReg_toff j h)).trans u.torque, fun _ k => by simp [k] at hw,
        fun i hi hn => (unit_jsts u i hi _ rfl).trans (put_toff_ne _ j i 0 hn), fun i hi => (unit_jsts u i hi _ rfl).trans (put_toff_goff _ j i 0)⟩
    · exact ⟨Only.refl _ _, fun _ k => by simp [k] at hw, fun _ _ _ => rfl, fun _ _ => rfl⟩
  split
  next ht => exact ⟨Only.refl _ _, fun _ _ => ht, fun _ _ _ => rfl, fun _ _ => rfl⟩
  · obtain ⟨a, b, c, d⟩ := torqueDrop_toff ch j h
    exact ⟨a, fun _ _ => b, c, d⟩

/-- All a review of torque can change; a bound joint whose torque is not wanted has it off afterwards (R161, R269). -/
theorem torqueReview_spec (ch : ChanState) :
    Torque ch ch.torqueReview ∧
    (∀ j, j < 64 → ch.bound j = true → ch.torqueWanted j = false → ch.torqueReview.bit (Reg.JNT_STS_TOFF j) = true) ∧
    SameWish ch ch.torqueReview := by
  have key : ∀ n, n ≤ 64 → Torque ch (forUpto n ch fun j x => x.reviewOne j) ∧ SameWish ch (forUpto n ch fun j x => x.reviewOne j) ∧
      (∀ j, j < n → ch.bound j = true → ch.torqueWanted j = false →
        (forUpto n ch fun j x => x.reviewOne j).bit (Reg.JNT_STS_TOFF j) = true) ∧
      (∀ j, j < 64 → (forUpto n ch fun j x => x.reviewOne j).bit (Reg.JNT_STS_GOFF j) = ch.bit (Reg.JNT_STS_GOFF j)) := by
    intro n
    induction n with
    | zero => exact fun _ => ⟨Only.refl _ _, SameWish.refl _, fun j hj => absurd hj (Nat.not_lt_zero j), fun _ _ => rfl⟩
    | succ n ih =>
      intro hn
      obtain ⟨t, w, o, g⟩ := ih (by omega)
      rw [forUpto_succ]
      generalize (forUpto n ch fun j x => x.reviewOne j) = x at t w o g
      obtain ⟨t', o', k', g'⟩ := reviewOne_toff x n (by omega)
      have tt := t.trans t'
      have gg : ∀ j, j < 64 → (x.reviewOne n).bit (Reg.JNT_STS_GOFF j) = ch.bit (Reg.JNT_STS_GOFF j) := fun j hj => (g' j hj).trans (g j hj)
      refine ⟨tt, torque_wish tt gg, fun j hj hb hw => ?_, gg⟩
      by_cases e : j = n
      · subst e; exact o' ((w.bound j (by omega)).trans hb) ((w.wanted j (by omega)).trans hw)
      · exact (k' j (by omega) e).trans (o j (by omega) hb hw)
  obtain ⟨t, w, o, g⟩ := key 64 (Nat.le_refl _)
  have e : ch.torqueReview = (forUpto 64 ch fun j x => x.reviewOne j).unitsReview := rfl
  rw [e]
  generalize (forUpto 64 ch fun j x => x.reviewOne j) = x at t w o g
  have u := unit_unitsReview x
  have tt := t.trans u.torque
  exact ⟨tt, fun j hj hb hw => (unit_jsts u j hj _ rfl).trans (o j hj hb hw),
    torque_wish tt fun j hj => (unit_jsts u j hj _ rfl).trans (g j hj)⟩

theorem quiet_torqueReview (ch : ChanState) : Quiet ch ch.torqueReview := (torqueReview_spec ch).1.quiet

/-! Host work of the solver -/

theorem host_event (ch : ChanState) (e : Nat) : Hosted ch (ch.event e) := (told_event ch e).hosted

theorem host_statusPut (ch : ChanState) (d : List Byte) (p status info iter sflg res : Nat) :
    Hosted ch (ch.statusPut d p status info iter sflg res) := by
  unfold ChanState.statusPut
  exact Only.ite (host_smem ch _) (Only.refl _ _)

theorem host_slvPend (ch : ChanState) : Hosted ch ch.slvPend := host_put ch _ _ rfl

theorem host_slvFinal (ch : ChanState) (idx : Nat) (d : List Byte) (p status info iter sflg res : Nat) :
    Hosted ch (ch.slvFinal idx d p status info iter sflg res) := by
  unfold ChanState.slvFinal
  extract_lets c1 c2
  have h1 : Hosted ch c1 := host_statusPut ch _ _ _ _ _ _ _
  have h2 : Hosted c1 c2 := (host_put c1 _ _ (by split <;> try split
                                                 all_goals rfl)).trans (host_slvPend _)
  clear_value c1 c2
  exact (h1.trans h2).trans (host_slv _ _)

theorem host_slvDone (n : Nat) (ch : ChanState) : Hosted ch (ChanState.slvDone n ch) := by
  induction n generalizing ch with
  | zero => exact Only.refl _ _
  | succ n ih =>
    unfold ChanState.slvDone
    split
    · refine Only.ite (Only.refl _ _) ?_
      extract_lets t c1
      have h1 : Hosted ch c1 := (host_slv ch _).trans (host_put _ _ _ rfl)
      clear_value c1
      exact h1.trans (Only.trans (Only.ite (host_event _ _) (Only.refl _ _)) (ih _))
    · exact Only.refl _ _

theorem host_slvTake (ch : ChanState) : Hosted ch ch.slvTake := by
  unfold ChanState.slvTake
  extract_lets i d n c1 c2
  have h1 : Hosted ch c1 := Only.loop _ (fun p x => host_statusPut x _ _ _ _ _ _ _) _ _
  have h2 : Hosted c1 c2 := (host_put c1 _ _ rfl).trans (host_slvPend _)
  clear_value c1 c2
  exact (h1.trans h2).trans (host_slv _ _)

theorem host_slvRefuse (ch : ChanState) (reason : Nat) : Hosted ch (ch.slvRefuse reason) := by
  unfold ChanState.slvRefuse
  split
  · exact Only.refl _ _
  · extract_lets c1 t c2
    have h1 : Hosted ch c1 := Only.fold _ (fun x i => host_slvFinal x _ _ _ _ _ _ _ _) _ _
    have h2 : Hosted c1 c2 := host_slv c1 _
    clear_value c1 c2
    exact (h1.trans h2).trans (host_put _ _ _ rfl)

theorem host_slvDrain (reason n : Nat) (ch : ChanState) : Hosted ch (ChanState.slvDrain reason n ch) := by
  induction n generalizing ch with
  | zero => exact Only.refl _ _
  | succ n ih =>
    unfold ChanState.slvDrain
    exact Only.ite (Only.refl _ _) (((host_slvTake ch).trans (host_slvRefuse _ _)).trans (ih _))

/-- All the end of host work can change. -/
theorem host_hostAbort (ch : ChanState) (reason : Nat) : Hosted ch (ch.hostAbort reason) := by
  unfold ChanState.hostAbort
  extract_lets q c1 c2 c3
  have h1 : Hosted ch c1 := Only.ite (Only.refl _ _) (told_setQueue ch 3 _ (by decide)).hosted
  have h2 : Hosted c1 c2 := Only.fold _ (fun x t => by
    split
    · exact ((host_put x _ _ rfl).trans (told_schPend _).hosted).trans (host_slvFinal _ _ _ _ _ _ _ _ _)
    · exact Only.refl _ _) _ _
  have h3 : Hosted c2 c3 := Only.ite (host_slvRefuse _ _) (Only.refl _ _)
  clear_value c1 c2 c3
  exact ((h1.trans h2).trans h3).trans ((host_slvDrain _ _ _).trans (host_slvDone _ _))

theorem surge_surgeReview (ch : ChanState) : Surged ch ch.surgeReview := by
  unfold ChanState.surgeReview
  extract_lets ok idle c1 t c2
  have h1 : Surged ch c1 := surge_put ch _ _ rfl
  have h2 : Surged c1 c2 := by
    clear_value c1
    unfold c2
    split
    · exact Only.ite (((surge_lehr c1 _).trans (surge_put _ _ _ rfl)).trans (surge_event _ _)) (Only.refl _ _)
    · refine Only.ite ?_ (Only.refl _ _)
      exact (((surge_lehr c1 _).trans (surge_put _ _ _ rfl)).trans (surge_put _ _ _ rfl)).trans (surge_event _ _)
  clear_value c1 c2
  exact (h1.trans h2).trans (Only.ite ((surge_put _ _ _ rfl).trans (surge_put _ _ _ rfl)) (Only.refl _ _))

theorem quiet_event (ch : ChanState) (e : Nat) : Quiet ch (ch.event e) := (told_event ch e).quiet
theorem quiet_hostAbort (ch : ChanState) (reason : Nat) : Quiet ch (ch.hostAbort reason) := (host_hostAbort ch reason).quiet
theorem quiet_surgeReview (ch : ChanState) : Quiet ch ch.surgeReview := (surge_surgeReview ch).quiet
theorem Quiet.flt {a b : ChanState} (h : Quiet a b) : b.flt = a.flt := h.keep (·.flt) fun _ => rfl

/-! ### What a change of the channel state changes -/

theorem aside_put (ch : ChanState) (f : RF) (v : Nat) (h : stateParts.any (·.covers f.ofs) = true) : Aside ch (ch.put f v) :=
  only_put _ _ _ _ h
theorem aside_goingReady (ch : ChanState) (t : Bool) : Aside ch { ch with goingReady := t } := ⟨rfl, fun _ _ => rfl⟩
theorem aside_event (ch : ChanState) (e : Nat) : Aside ch (ch.event e) := (quiet_event ch e).aside
theorem aside_torqueReview (ch : ChanState) : Aside ch ch.torqueReview := (quiet_torqueReview ch).aside
theorem aside_hostAbort (ch : ChanState) (reason : Nat) : Aside ch (ch.hostAbort reason) := (quiet_hostAbort ch reason).aside
theorem aside_surgeReview (ch : ChanState) : Aside ch ch.surgeReview := (quiet_surgeReview ch).aside
theorem asideReg_eng (g : Nat) (h : g < 4) : stateParts.any (·.covers (Reg.SAF_STOSTS_ENG g).ofs) = true := by
  have a : 0x16408 ≤ (Reg.SAF_STOSTS_ENG g).ofs := by simp only [Reg.SAF_STOSTS_ENG]; omega
  have b : (Reg.SAF_STOSTS_ENG g).ofs < 0x16448 := by simp only [Reg.SAF_STOSTS_ENG]; omega
  simp [stateParts, Part.covers, a, b]

theorem aside_groupOff (ch : ChanState) (g : Nat) (h : g < 4) : Aside ch (ch.groupOff g) := by
  unfold ChanState.groupOff
  extract_lets c1
  have h1 : Aside ch c1 := (aside_put ch _ _ (asideReg_eng g h)).trans
    (Only.loop _ (fun i x => Only.ite (aside_put x _ _ rfl) (Only.refl _ _)) _ _)
  clear_value c1
  exact h1.trans (aside_torqueReview _)

/-! The channel state and the reactions -/

/-- All a change of the channel state can change. -/
theorem aside_goState (ch : ChanState) (code cause : Nat) : Aside ch (ch.goState code cause) := by
  unfold ChanState.goState
  extract_lets old c1 c2 c3 c4 c5
  have h1 : Aside ch c1 := ((((aside_put ch _ _ rfl).trans (aside_put _ _ _ rfl)).trans (aside_put _ _ _ rfl)).trans
    (aside_put _ _ _ rfl)).trans (aside_put _ _ _ rfl)
  have h2 : Aside c1 c2 := aside_goingReady c1 _
  have h3 : Aside c2 c3 := Only.ite (Only.refl _ _) (aside_put _ _ _ rfl)
  have h4 : Aside c3 c4 := Only.ite (Only.refl _ _)
    ((Only.loopBelow _ 4 (fun g x h => aside_put x _ _ (asideReg_eng g h)) _).trans (aside_torqueReview _))
  have h5 : Aside c4 c5 := Only.ite (aside_hostAbort _ _) (Only.refl _ _)
  clear_value c1 c2 c3 c4 c5
  exact ((((h1.trans h2).trans h3).trans h4).trans h5).trans (Only.ite (Only.refl _ _) (aside_event _ _))

theorem Aside.flt {a b : ChanState} (h : Aside a b) : b.flt = a.flt := h.keep (·.flt) fun _ => rfl

theorem chnState_puts (ch : ChanState) (old code cause busy : Nat) (h : old < 16) (x : ChanState)
    (hx : x = ((((ch.put Reg.CHN_STATE_PREV old).put Reg.CHN_STATE_CODE code).put Reg.CHN_STATE_CAUSE cause).put
      Reg.CHN_STATE_TARGET 0).put Reg.CHN_STATE_BUSY busy) :
    x.get Reg.CHN_STATE_CODE = code % 16 ∧ x.get Reg.CHN_STATE_CAUSE = cause % 256 ∧ x.get Reg.CHN_STATE_PREV = old ∧
    x.get Reg.CHN_STATE_TARGET = 0 := by
  subst hx
  have hold : old % 16 = old := Nat.mod_eq_of_lt h
  simp (disch := decide) only [ChanState.get_put_same, ChanState.get_put_apart]
  exact ⟨rfl, rfl, hold, rfl⟩

theorem goingReady_off (c : ChanState) :
    ({ c with goingReady := false } : ChanState).goingReady = false ∧ ∀ f, ({ c with goingReady := false } : ChanState).get f = c.get f :=
  ⟨rfl, fun _ => rfl⟩

theorem goState_shows_of (ch : ChanState) (code cause : Nat) (x : ChanState) (hx : x = ch.goState code cause) :
    x.get Reg.CHN_STATE_CODE = code % 16 ∧ x.get Reg.CHN_STATE_CAUSE = cause % 256 ∧
    x.get Reg.CHN_STATE_PREV = ch.get Reg.CHN_STATE_CODE ∧ x.get Reg.CHN_STATE_TARGET = 0 ∧ x.goingReady = false := by
  unfold ChanState.goState at hx
  extract_lets old c1 c2 c3 c4 c5 at hx
  have e1 := chnState_puts ch old code cause _ (ch.get_lt Reg.CHN_STATE_CODE) c1 rfl
  have ho : old = ch.get Reg.CHN_STATE_CODE := rfl
  rw [ho] at e1
  clear_value c1
  obtain ⟨g2, r2⟩ : c2.goingReady = false ∧ ∀ f, c2.get f = c1.get f := goingReady_off c1
  clear_value c2
  have w3 : ∀ f : RF, f.ofs = 4 → c3.get f = c2.get f := fun f hf => by
    unfold c3; split
    · rfl
    · exact ChanState.get_put_ne _ _ _ _ (by rw [hf]; decide)
  have g3 : c3.goingReady = false := by unfold c3; split <;> simp [g2]
  clear_value c3
  have w4 : (∀ f : RF, f.ofs = 4 → c4.get f = c3.get f) ∧ c4.goingReady = false := by
    unfold c4; split
    · exact ⟨fun _ _ => rfl, g3⟩
    · have q := quiet_torqueReview (forUpto 4 c3 fun g ch => ch.put (Reg.SAF_STOSTS_ENG g) 0)
      have l : ∀ x : ChanState, ((∀ f : RF, f.ofs = 4 → x.get f = c3.get f) ∧ x.goingReady = false) →
          ∀ g, ((∀ f : RF, f.ofs = 4 → (x.put (Reg.SAF_STOSTS_ENG g) 0).get f = c3.get f) ∧ (x.put (Reg.SAF_STOSTS_ENG g) 0).goingReady = false) :=
        fun x hx g => ⟨fun f hf => by
          rw [ChanState.get_put_ne _ _ _ _ (by rw [hf]; simp only [Reg.SAF_STOSTS_ENG]; omega)]; exact hx.1 f hf, by simp [hx.2]⟩
      have h := forUpto_keeps (fun x => (∀ f : RF, f.ofs = 4 → x.get f = c3.get f) ∧ x.goingReady = false)
        (fun g ch => ch.put (Reg.SAF_STOSTS_ENG g) 0) (fun i x hx => l x hx i) 4 c3 ⟨fun _ _ => rfl, g3⟩
      exact ⟨fun f hf => by rw [q.get f (by rw [hf]; rfl)]; exact h.1 f hf, by rw [q.keep (·.goingReady) (fun _ => rfl)]; exact h.2⟩
  clear_value c4
  have q5 : Quiet c4 c5 := Only.ite (quiet_hostAbort _ _) (Only.refl _ _)
  have q6 : Quiet c5 x := by rw [hx]; exact Only.ite (Only.refl _ _) (quiet_event _ _)
  have q := q5.trans q6
  have fin : ∀ f : RF, f.ofs = 4 → x.get f = c1.get f := fun f hf => by
    rw [Only.get q f (by rw [hf]; rfl), w4.1 f hf, w3 f hf, r2]
  exact ⟨(fin Reg.CHN_STATE_CODE rfl).trans e1.1, (fin Reg.CHN_STATE_CAUSE rfl).trans e1.2.1, (fin Reg.CHN_STATE_PREV rfl).trans e1.2.2.1,
    (fin Reg.CHN_STATE_TARGET rfl).trans e1.2.2.2, (Only.keep q (·.goingReady) (fun _ => rfl)).trans w4.2⟩

/-- What a change of state leaves in CHN_STATE (R29). -/
theorem goState_shows (ch : ChanState) (code cause : Nat) :
    (ch.goState code cause).get Reg.CHN_STATE_CODE = code % 16 ∧ (ch.goState code cause).get Reg.CHN_STATE_CAUSE = cause % 256 ∧
    (ch.goState code cause).get Reg.CHN_STATE_PREV = ch.get Reg.CHN_STATE_CODE ∧ (ch.goState code cause).get Reg.CHN_STATE_TARGET = 0 ∧
    (ch.goState code cause).goingReady = false := goState_shows_of ch code cause _ rfl

theorem host_jnt {a b : ChanState} (h : Hosted a b) (f : RF) (k : 0x8000 ≤ f.ofs) (k' : f.ofs < 0x10000) : b.bit f = a.bit f := by
  refine h.bit _ ?_
  simp only [hostParts, tellParts, Part.covers, List.cons_append, List.nil_append, List.any_cons, List.any_nil, Bool.or_false, Bool.false_or]
  simp only [Bool.or_eq_false_iff, Bool.and_eq_false_iff, decide_eq_false_iff_not]
  omega

/-- Outside READY, RUN and STOPPING a change of state leaves every bound joint's torque off (R28, R269). -/
theorem goState_torqueOff (ch : ChanState) (code cause : Nat) (hc : code < 16) (h4 : code ≠ 4) (h5 : code ≠ 5) (h6 : code ≠ 6) (j : Nat)
    (hj : j < 64) (hb : ch.bound j = true) : (ch.goState code cause).bit (Reg.JNT_STS_TOFF j) = true := by
  generalize hx : ch.goState code cause = x
  unfold ChanState.goState at hx
  extract_lets old c1 c2 c3 c4 c5 at hx
  have e1 := chnState_puts ch old code cause _ (ch.get_lt Reg.CHN_STATE_CODE) c1 rfl
  have b1 : c1.bound j = true := by
    have : Aside ch c1 := ((((aside_put ch _ _ rfl).trans (aside_put _ _ _ rfl)).trans (aside_put _ _ _ rfl)).trans
      (aside_put _ _ _ rfl)).trans (aside_put _ _ _ rfl)
    refine (this.bit (Reg.JNT_BIND_KIND j) ?_).trans hb
    simp only [Reg.JNT_BIND_KIND, stateParts, quietParts, torqueParts, unitParts, hostParts, surgeParts, tellParts, Part.covers, List.cons_append,
      List.nil_append, List.any_cons, List.any_nil, Bool.or_false, Bool.false_or]
    simp only [Bool.or_eq_false_iff, Bool.and_eq_false_iff, decide_eq_false_iff_not]
    omega
  obtain ⟨g2, r2⟩ : c2.goingReady = false ∧ ∀ f, c2.get f = c1.get f := goingReady_off c1
  have n4 : (code == 4 || code == 5 || code == 6) = false := by simp [h4, h5, h6]
  have c4e : c4 = (forUpto 4 c3 fun g ch => ch.put (Reg.SAF_STOSTS_ENG g) 0).torqueReview := if_neg (by rw [n4]; decide)
  have P3 : c3.get Reg.CHN_STATE_CODE = code % 16 ∧ c3.goingReady = false ∧ c3.bound j = true := by
    unfold c3; split
    · exact ⟨(r2 _).trans e1.1, g2, (show (c2.get _ != 0) = true by rw [r2]; exact b1)⟩
    · refine ⟨(ChanState.get_put_ne _ _ _ _ (by decide)).trans ((r2 _).trans e1.1), (ChanState.put_goingReady _ _ _).trans g2, ?_⟩
      show (ChanState.get _ _ != 0) = true
      rw [ChanState.get_put_ne _ _ _ _ (by simp only [Reg.JNT_BIND_KIND, Reg.SAF_SOSTS_ENG]; omega), r2]; exact b1
  have P4 : ∀ y : ChanState, y = (forUpto 4 c3 fun g ch => ch.put (Reg.SAF_STOSTS_ENG g) 0) →
      y.get Reg.CHN_STATE_CODE = code % 16 ∧ y.goingReady = false ∧ y.bound j = true := by
    rintro y rfl
    refine forUpto_keeps (fun y : ChanState => y.get Reg.CHN_STATE_CODE = code % 16 ∧ y.goingReady = false ∧ y.bound j = true) _ ?_ 4 c3 P3
    intro g y ⟨a, b, c⟩
    refine ⟨(ChanState.get_put_ne _ _ _ _ (by simp only [Reg.CHN_STATE_CODE, Reg.SAF_STOSTS_ENG]; omega)).trans a,
      (ChanState.put_goingReady _ _ _).trans b, ?_⟩
    show (ChanState.get _ _ != 0) = true
    rw [ChanState.get_put_ne _ _ _ _ (by simp only [Reg.JNT_BIND_KIND, Reg.SAF_STOSTS_ENG]; omega)]; exact c
  have t4 : c4.bit (Reg.JNT_STS_TOFF j) = true := by
    rw [c4e]
    obtain ⟨a, b, c⟩ := P4 _ rfl
    generalize (forUpto 4 c3 fun g ch => ch.put (Reg.SAF_STOSTS_ENG g) 0) = y at a b c
    refine (torqueReview_spec y).2.1 j hj c ?_
    have : y.torqueState = false := by
      unfold ChanState.torqueState
      rw [a, b, Nat.mod_eq_of_lt hc]; simp [h4, h5, h6]
    unfold ChanState.torqueWanted
    rw [this]; simp
  have q5 : Hosted c4 c5 := Only.ite (host_hostAbort _ _) (Only.refl _ _)
  have q6 : Hosted c5 x := by rw [← hx]; exact Only.ite (Only.refl _ _) (host_event _ _)
  exact (host_jnt (Only.trans q5 q6) (Reg.JNT_STS_TOFF j) (by simp only [Reg.JNT_STS_TOFF]; omega) (by simp only [Reg.JNT_STS_TOFF]; omega)).trans t4

/-- Outside READY, RUN and STOPPING a change of state leaves every group de-energised (R28, R269). -/
theorem goState_groupsOff (ch : ChanState) (code cause : Nat) (h4 : code ≠ 4) (h5 : code ≠ 5) (h6 : code ≠ 6) (g : Nat) (hg : g < 4) :
    (ch.goState code cause).get (Reg.SAF_STOSTS_ENG g) = 0 := by
  generalize hx : ch.goState code cause = x
  unfold ChanState.goState at hx
  extract_lets old c1 c2 c3 c4 c5 at hx
  have n4 : (code == 4 || code == 5 || code == 6) = false := by simp [h4, h5, h6]
  have c4e : c4 = (forUpto 4 c3 fun g ch => ch.put (Reg.SAF_STOSTS_ENG g) 0).torqueReview := if_neg (by rw [n4]; decide)
  have far : ∀ {T : List Part}, T = hostParts ∨ T = torqueParts → T.any (·.covers (Reg.SAF_STOSTS_ENG g).ofs) = false := by
    intro T hT
    rcases hT with rfl | rfl <;>
    · simp only [Reg.SAF_STOSTS_ENG, torqueParts, unitParts, hostParts, tellParts, Part.covers, List.cons_append,
        List.nil_append, List.any_cons, List.any_nil, Bool.or_false, Bool.false_or]
      simp only [Bool.or_eq_false_iff, Bool.and_eq_false_iff, decide_eq_false_iff_not]
      omega
  have q5 : Hosted c4 c5 := Only.ite (host_hostAbort _ _) (Only.refl _ _)
  have q6 : Hosted c5 x := by rw [← hx]; exact Only.ite (Only.refl _ _) (host_event _ _)
  rw [Only.get (Only.trans q5 q6) _ (far (.inl rfl)), c4e, (torqueReview_spec _).1.get _ (far (.inr rfl))]
  have l : ∀ n, g < n → (forUpto n c3 fun g ch => ch.put (Reg.SAF_STOSTS_ENG g) 0).get (Reg.SAF_STOSTS_ENG g) = 0 := by
    intro n
    induction n with
    | zero => exact fun h => absurd h (Nat.not_lt_zero g)
    | succ n ih =>
      intro h
      rw [forUpto_succ]
      by_cases e : g = n
      · subst e; rw [ChanState.get_put_same _ _ _ (by show 0 + 1 ≤ 32; decide)]; exact Nat.zero_mod _
      · rw [ChanState.get_put_ne _ _ _ _ (by simp only [Reg.SAF_STOSTS_ENG]; omega)]; exact ih (by omega)
  exact l 4 hg

/-! ### What the reaction to a fault changes -/

theorem react_put (ch : ChanState) (f : RF) (v : Nat) (h : reactParts.any (·.covers f.ofs) = true) : React ch (ch.put f v) :=
  only_put _ _ _ _ h
theorem react_setArm (ch : ChanState) (k : Nat) (a : Arm) : React ch (ch.setArm k a) := ⟨rfl, fun _ _ => rfl⟩
theorem react_setJoint (ch : ChanState) (j : Nat) (x : Joint) : React ch (ch.setJoint j x) := ⟨rfl, fun _ _ => rfl⟩
theorem react_lockMark (ch : ChanState) (t : Bool) : React ch { ch with lockMark := t } := ⟨rfl, fun _ _ => rfl⟩
theorem react_goingReady (ch : ChanState) (t : Bool) : React ch { ch with goingReady := t } := ⟨rfl, fun _ _ => rfl⟩
theorem react_goState (ch : ChanState) (code cause : Nat) : React ch (ch.goState code cause) := (aside_goState ch code cause).react
theorem react_torqueReview (ch : ChanState) : React ch ch.torqueReview := (aside_torqueReview ch).react
theorem reactReg_prf {o : Nat} (h : 0xC000 ≤ o) (k : o < 0x10000) : reactParts.any (·.covers o) = true := by
  simp [reactParts, Part.covers, h, k]
theorem reactReg_eng (g : Nat) (h : g < 4) : reactParts.any (·.covers (Reg.SAF_STOSTS_ENG g).ofs) = true := by
  rw [reactParts, List.any_append, asideReg_eng g h]; rfl
theorem react_reactArm (ch : ChanState) (k : Nat) : React ch (ch.reactArm k) := react_setArm ch k _

theorem react_discardSegments (ch : ChanState) (k : Nat) (h : k < 8) : React ch (ch.discardSegments k) := by
  unfold ChanState.discardSegments
  extract_lets a n ring c1
  have h1 : React ch c1 := (react_put ch _ _ (reactReg_prf (by simp only [Reg.PRF_SDIS]; omega) (by simp only [Reg.PRF_SDIS]; omega))).trans
    (react_put _ _ _ (reactReg_prf (by simp only [Reg.PRF_RCON]; omega) (by simp only [Reg.PRF_RCON]; omega)))
  clear_value c1
  exact h1.trans (react_setArm _ _ _)

theorem react_jointsRest (ch : ChanState) (k : Nat) : React ch (ch.jointsRest k) := by
  unfold ChanState.jointsRest
  refine Only.loopBelow _ 64 (fun j x h => Only.ite ?_ (Only.refl _ _)) ch
  exact (react_setJoint x j _).trans (react_put _ _ _ (reactReg_prf (by simp only [Reg.PRF_STS_PHASE]; omega)
    (by simp only [Reg.PRF_STS_PHASE]; omega)))

theorem react_armCut (ch : ChanState) (k : Nat) (h : k < 8) : React ch (ch.armCut k) := by
  unfold ChanState.armCut
  refine Only.ite (Only.refl _ _) ?_
  extract_lets c1 a
  have h1 : React ch c1 := (react_discardSegments ch k h).trans (react_jointsRest _ _)
  clear_value c1
  exact h1.trans ((react_setArm _ _ _).trans (react_put _ _ _ (reactReg_prf (by simp only [Reg.PRF_ASTS_ASTATE]; omega)
    (by simp only [Reg.PRF_ASTS_ASTATE]; omega))))

theorem React.flt {a b : ChanState} (h : React a b) : b.flt = a.flt := h.keep (·.flt) fun _ => rfl

theorem react_reactChannel (ch : ChanState) : React ch ch.reactChannel := by
  unfold ChanState.reactChannel
  extract_lets c1 c t c2
  have h1 : React ch c1 := Only.fold _ react_reactArm _ _
  have h2 : React c1 c2 := (react_put c1 Reg.CHN_STATE_BUSY 0 rfl).trans (react_goingReady t false)
  clear_value c1 t c2
  refine h1.trans (Only.ite ((react_goState _ _ _).trans (react_put _ _ _ rfl)) (Only.ite (react_put _ _ _ rfl) (Only.ite ?_ (Only.refl _ _))))
  exact h2.trans ((Only.loopBelow _ 4 (fun g x h => react_put x _ _ (reactReg_eng g h)) _).trans (react_torqueReview _))

theorem react_reactLockout (ch : ChanState) : React ch ch.reactLockout := by
  unfold ChanState.reactLockout
  extract_lets c c1 c2 c3
  have h1 : React ch c1 := Only.loopBelow _ 8 (fun k x h => react_armCut x k h) _
  have h2 : React c1 c2 := react_put c1 _ _ rfl
  have h3 : React c2 c3 := react_lockMark c2 _
  clear_value c1 c2 c3
  exact Only.ite (Only.refl _ _) (((h1.trans h2).trans h3).trans (Only.ite (react_torqueReview _) (react_goState _ _ _)))

/-! ### What a fault changes -/

theorem noted_put (ch : ChanState) (f : RF) (v : Nat) (h : noteParts.any (·.covers f.ofs) = true) : Noted ch (ch.put f v) :=
  only_put _ _ _ _ h
theorem noted_flt (ch : ChanState) (t : Faults) : Noted ch { ch with flt := t } := ⟨rfl, fun _ _ => rfl⟩

theorem noteReg_flt {o : Nat} (h : 0x1E000 ≤ o) (k : o < 0x1E800) : noteParts.any (·.covers o) = true := by simp [noteParts, Part.covers, h, k]

theorem noted_qShow (ch : ChanState) : Noted ch ch.qShow := by
  unfold ChanState.qShow
  extract_lets bs
  refine (noted_put ch _ _ rfl).trans (Only.loopBelow _ 8 (fun w x h => noted_put x _ _ ?_) _)
  exact noteReg_flt (by simp only [Reg.FLT_QREC]; omega) (by simp only [Reg.FLT_QREC]; omega)

theorem noted_ringMerge (ch : ChanState) (r : FaultRec) : Noted ch (ch.ringMerge r) := ⟨rfl, fun _ _ => rfl⟩

theorem noted_event (ch : ChanState) (e : Nat) : Noted ch (ch.event e) := (told_event ch e).noted

theorem noteReg_ovf (n : Nat) (h : n < 16) : noteParts.any (·.covers (Reg.FLT_OVF n).ofs) = true :=
  noteReg_flt (by simp only [Reg.FLT_OVF]; omega) (by simp only [Reg.FLT_OVF]; omega)

/-- All that recording an occurrence can change. -/
theorem noted_recordFault (ch : ChanState) (code cls : Nat) (pre : Bool) (scope : Option Nat) (index info : Nat) :
    Noted ch (ch.recordFault code cls pre scope index info) := by
  unfold ChanState.recordFault
  extract_lets c1 t0 r c2 t1 c3 c4 t2
  have h1 : Noted ch c1 := noted_put ch _ _ rfl
  have h2 : Noted c1 c2 := noted_flt c1 _
  have h3 : Noted c2 c3 := Only.ite (noted_flt c2 _) (Only.refl _ _)
  have h4 : Noted c3 c4 := (told_trcOffer c3 1 _ (by decide)).noted
  clear_value c4 c3 c2
  clear_value c1
  split
  · extract_lets r' q c2
    have h2 : Noted c1 c2 := (noted_flt c1 _).trans (noted_qShow _)
    clear_value c2
    exact (h1.trans h2).trans (Only.ite (noted_ringMerge _ _) (Only.refl _ _))
  · refine ((h1.trans h2).trans (h3.trans h4)).trans (Only.ite (((noted_flt c4 _).trans (noted_qShow _)).trans (noted_event _ _)) ?_)
    split
    · exact (((noted_flt c4 _).trans (noted_qShow _)).trans (noted_put _ _ _ (noteReg_ovf _ (by omega)))).trans (noted_event _ _)
    · exact noted_put c4 _ _ (noteReg_ovf _ (by omega))

theorem noted_fltShow (ch : ChanState) : Noted ch ch.fltShow := by
  unfold ChanState.fltShow
  extract_lets f2 arms c1
  have h1 : Noted ch c1 := (((noted_put ch _ _ rfl).trans (noted_put _ _ _ rfl)).trans (noted_put _ _ _ rfl)).trans (noted_put _ _ _ rfl)
  clear_value c1
  exact h1.trans (Only.ite (noted_put _ _ _ rfl) (Only.refl _ _))

theorem noted_activate (ch : ChanState) (code cls : Nat) (scope : Option Nat) (index : Nat) (held : Bool) :
    Noted ch (ch.activate code cls scope index held) := by
  unfold ChanState.activate
  exact Only.ite (Only.refl _ _) ((noted_flt ch _).trans (noted_fltShow _))

/-- All a fault can change, with its reaction. -/
theorem faulted_raise (ch : ChanState) (code cls : Nat) (scope : Option Nat) (index info : Nat) (held : Bool) :
    Faulted ch (ch.raise code cls scope index info held) := by
  unfold ChanState.raise
  extract_lets rises running c1 c2 c3
  have h1 : Noted ch c1 := noted_recordFault ch _ _ _ _ _ _
  have h2 : Noted c1 c2 := noted_activate c1 _ _ _ _ _
  have h3 : React c2 c3 := by
    unfold c3
    split
    · exact react_reactArm _ _
    · exact react_reactChannel _
    · exact react_reactLockout _
  clear_value c1 c2 c3
  have h4 : React c3 (c3.surgeReview.event 0x32) := Aside.react ((aside_surgeReview _).trans (aside_event _ _))
  exact (Noted.faulted (h1.trans h2)).trans (Only.ite (Only.refl _ _) (React.faulted (h3.trans h4)))

/-- A fault of class F0 or F1 starts no reaction: it is recorded and told. -/
theorem noted_raise (ch : ChanState) (code cls : Nat) (scope : Option Nat) (index info : Nat) (held : Bool) (h : cls < 2) :
    Noted ch (ch.raise code cls scope index info held) := by
  unfold ChanState.raise
  extract_lets rises running c1 c2 c3
  have h1 : Noted ch c1 := noted_recordFault ch _ _ _ _ _ _
  have h2 : Noted c1 c2 := noted_activate c1 _ _ _ _ _
  have hr : (!rises) = true := by simp [rises]; omega
  rw [if_pos hr]
  clear_value c1 c2
  exact h1.trans h2

theorem faulted_fault (ch : ChanState) (code cls : Nat) (scope : Option Nat) (index info : Nat) :
    Faulted ch (ch.fault code cls scope index info) := faulted_raise ch _ _ _ _ _ _
theorem noted_fault (ch : ChanState) (code cls : Nat) (scope : Option Nat) (index info : Nat) (h : cls < 2) :
    Noted ch (ch.fault code cls scope index info) := noted_raise ch _ _ _ _ _ _ h

theorem faulted_faultArms (ch : ChanState) (code : Nat) (arms : List Nat) (index : Nat) : Faulted ch (ch.faultArms code arms index) := by
  unfold ChanState.faultArms
  exact Only.ite (faulted_fault _ _ _ _ _ _) (Only.fold _ (fun x k => faulted_fault _ _ _ _ _ _) _ _)

/-- The active faults after an activation. -/
theorem activate_active (ch : ChanState) (code cls : Nat) (scope : Option Nat) (index : Nat) (held : Bool) (h : cls ≠ 0) :
    (⟨code, cls, scope, index, ch.matrix, held⟩ : Active) ∈ (ch.activate code cls scope index held).flt.active := by
  have e : ∀ x : ChanState, x.fltShow.flt = x.flt := by
    intro x; unfold ChanState.fltShow; extract_lets f2 arms c1
    have : c1.flt = x.flt := by simp [c1]
    split <;> simp [this]
  unfold ChanState.activate
  rw [if_neg h]
  extract_lets key new l
  rw [e]
  show new ∈ l
  unfold l
  split
  next hk =>
    obtain ⟨a, ha, hka⟩ := List.any_eq_true.mp hk
    exact List.mem_map.mpr ⟨a, ha, by simp [hka]⟩
  · simp

/-- A fault of class F1 to F3 is active after it is raised. -/
theorem raise_active (ch : ChanState) (code cls : Nat) (scope : Option Nat) (index info : Nat) (held : Bool) (h : cls ≠ 0) :
    ∃ a ∈ (ch.raise code cls scope index info held).flt.active, a.code = code ∧ a.cls = cls ∧ a.scope = scope ∧ a.index = index ∧
      a.held = held := by
  unfold ChanState.raise
  extract_lets rises running c1 c2 c3
  have h2 := activate_active c1 code cls scope index held h
  have h3 : React c2 c3 := by
    unfold c3
    split
    · exact react_reactArm _ _
    · exact react_reactChannel _
    · exact react_reactLockout _
  split
  · exact ⟨_, h2, rfl, rfl, rfl, rfl, rfl⟩
  · have h4 : React c3 (c3.surgeReview.event 0x32) := Aside.react ((aside_surgeReview _).trans (aside_event _ _))
    refine ⟨⟨code, cls, scope, index, c1.matrix, held⟩, ?_, rfl, rfl, rfl, rfl, rfl⟩
    rw [React.flt (h3.trans h4)]; exact h2

end Sys2Proof.Machine
end

