-- ==== Sys2Proof/Laws/Commands.lean ====
section
/-!
SUPPORT. Laws of commands: from what a live command does to its channel to what it answers; a host write of CHN_CMD.
-/
namespace Sys2Proof.Machine

open Sys2Proof

/-- A command that acts on its running channel by `f`. -/
theorem acts_live {i : Instr} {c : Chan} {f : ChanState → ChanState} {pre : ChanState → Prop} {post : ChanState → ChanState → Prop}
    (he : ∀ s, exec i s = live s c f) (h : ∀ ch : ChanState, ch.rst.held = false → pre ch → post ch (f { ch with sent := [] })) :
    Acts i c pre post := by
  intro s ⟨hp, hh⟩ hpre
  exact ⟨_, (he s).trans (live_runs s c f hp hh), h _ hh hpre⟩

/-- A command that acts on its channel by `f`, held or not. -/
theorem acts_on {i : Instr} {c : Chan} {f : ChanState → ChanState} {pre : ChanState → Prop} {post : ChanState → ChanState → Prop}
    (he : ∀ s, exec i s = .next (s.onChan c f)) (h : ∀ ch : ChanState, ch.rst.held = false → pre ch → post ch (f { ch with sent := [] })) :
    Acts i c pre post := by
  intro s ⟨hp, hh⟩ hpre
  refine ⟨_, (he s).trans ?_, h _ hh hpre⟩
  unfold State.onChan; rw [if_pos hp]

theorem Acts.and {i : Instr} {c : Chan} {pre : ChanState → Prop} {p q : ChanState → ChanState → Prop} (h : Acts i c pre p) (k : Acts i c pre q) :
    Acts i c pre fun a b => p a b ∧ q a b := by
  intro s hr hp
  obtain ⟨x, e, hx⟩ := h s hr hp
  obtain ⟨y, e', hy⟩ := k s hr hp
  have exy : s.setChan c x = s.setChan c y := by rw [e] at e'; injection e'
  have : x = y := by rw [← s.chan_setChan c x, exy, s.chan_setChan]
  exact ⟨x, e, hx, this ▸ hy⟩

theorem told_cleared (ch : ChanState) : Told ch { ch with sent := [] } := told_sent ch []

/-- A host write is counted in the HOST block (R358). -/
theorem told_hostW (ch : ChanState) (p : Path) : Told ch (ch.hostW p) := by
  cases p <;> exact (told_put ch _ _ rfl).trans (told_put _ _ _ rfl)

/-- A host write at the start of a command. -/
theorem told_write (ch : ChanState) (p : Path) : Told ch (({ ch with sent := [] } : ChanState).hostW p) :=
  (told_cleared ch).trans (told_hostW _ _)

/-- A host write that acts on its running channel by `f`: what `f` starts from differs from the channel in what telling changes. -/
theorem acts_write {i : Instr} {c : Chan} {f : ChanState → ChanState} {pre : ChanState → Prop} {post : ChanState → ChanState → Prop}
    (he : ∀ s, exec i s = live s c fun ch => f (ch.hostW .pcie))
    (h : ∀ ch y : ChanState, ch.rst.held = false → Told ch y → pre ch → post ch (f y)) : Acts i c pre post :=
  acts_live he fun ch hh hp => h ch _ hh (told_write ch .pcie) hp

/-- The same of a command that is no host write. -/
theorem acts_plain {i : Instr} {c : Chan} {f : ChanState → ChanState} {pre : ChanState → Prop} {post : ChanState → ChanState → Prop}
    (he : ∀ s, exec i s = live s c f) (h : ∀ ch y : ChanState, ch.rst.held = false → Told ch y → y.regs = ch.regs → pre ch → post ch (f y)) :
    Acts i c pre post :=
  acts_live he fun ch hh hp => h ch _ hh (told_cleared ch) rfl hp

/-- CHN_CMD with the right key, alone in its cycle, not BUSY and in the state the command takes. -/
theorem chnCmd_taken (ch : ChanState) (l : List Nat) (f : ChanState → ChanState) (hb : ch.bit Reg.CHN_STATE_BUSY = false)
    (hc : l.contains (ch.get Reg.CHN_STATE_CODE) = true) : ch.chnCmd 0x57A7 false l f = f ch := by
  simp [ChanState.chnCmd, hb]
  intro h
  rw [List.contains_iff_mem] at hc
  exact absurd hc h

/-! ### Groups and stops -/

/-- What the energising of the groups and the ends of stops change. -/
abbrev Grouped (a b : ChanState) : Prop := Only (.saf :: stateParts) a b
theorem Aside.grouped {a b : ChanState} (h : Aside a b) : Grouped a b := h.mono fun _ hp => List.mem_cons_of_mem _ hp

theorem asideReg_sto (g : Nat) (h : g < 4) (f : RF) (hf : f.ofs = 0x16408 + 16 * g) : stateParts.any (·.covers f.ofs) = true := by
  have := asideReg_eng g h
  rw [hf]; exact this

theorem aside_groupsReview (ch : ChanState) : Aside ch ch.groupsReview := by
  unfold ChanState.groupsReview
  refine Only.trans (Only.loopBelow _ 4 (fun g x h => ?_) ch) (aside_torqueReview _)
  extract_lets c1 ok
  have h1 : Aside x c1 := Only.ite (Only.refl _ _) (aside_put _ _ _ (asideReg_sto g h _ rfl))
  clear_value c1
  exact Only.trans h1 (Only.ite (aside_put _ _ _ (asideReg_eng g h)) (Only.ite (aside_groupOff _ g h) (Only.refl _ _)))

theorem grouped_saf (ch : ChanState) (t : Saf) : Grouped ch { ch with saf := t } := ⟨rfl, fun _ _ => rfl⟩

theorem grouped_groupEnd (ch : ChanState) (g : Nat) (h : g < 4) : Grouped ch (ch.groupEnd g) := by
  unfold ChanState.groupEnd
  extract_lets arms t c1
  have h1 : Grouped ch c1 := (grouped_saf ch _).trans (aside_put _ _ _ (asideReg_sto g h _ rfl)).grouped
  clear_value c1
  refine Only.trans h1 (Only.loopBelow _ 4 (fun k x hk => Only.ite ?_ (Only.refl _ _)) c1)
  extract_lets c2
  have h2 : Aside x c2 := aside_put _ _ _ (asideReg_sto k hk _ rfl)
  clear_value c2
  exact Aside.grouped (Only.trans h2 (Only.ite (aside_groupOff _ k hk) (Only.refl _ _)))

theorem grouped_ss1Check (ch : ChanState) : Grouped ch ch.ss1Check := by
  unfold ChanState.ss1Check
  exact Only.loopBelow _ 4 (fun g x h => Only.ite (grouped_groupEnd x g h) (Only.refl _ _)) ch

theorem aside_stopComplete (ch : ChanState) : Aside ch ch.stopComplete := by
  unfold ChanState.stopComplete
  exact Only.ite (aside_goState _ _ _) (Only.refl _ _)

/-! ### Arms and joints of an arm -/

/-- The registers of the binding of the joints. -/
theorem bound_of {T : List Part} {a b : ChanState} (h : Only T a b)
    (k : ∀ j, j < 64 → T.any (·.covers (0x8000 + 256 * j)) = false) (j : Nat) (hj : j < 64) :
    b.bound j = a.bound j ∧ b.armOf j = a.armOf j ∧ b.get (Reg.JNT_BIND_ORD j) = a.get (Reg.JNT_BIND_ORD j) :=
  ⟨h.bit _ (k j hj), h.get (Reg.JNT_BIND_ARM j) (k j hj), h.get (Reg.JNT_BIND_ORD j) (k j hj)⟩

theorem boundArms_of {T : List Part} {a b : ChanState} (h : Only T a b)
    (k : ∀ j, j < 64 → T.any (·.covers (0x8000 + 256 * j)) = false) : b.boundArms = a.boundArms := by
  have e : ∀ n, ((List.range 64).any fun j => b.bound j && b.armOf j == n) = ((List.range 64).any fun j => a.bound j && a.armOf j == n) := by
    intro n
    rw [Bool.eq_iff_iff, List.any_eq_true, List.any_eq_true]
    constructor <;> rintro ⟨j, hj, h'⟩ <;> obtain ⟨e1, e2, _⟩ := bound_of h k j (List.mem_range.mp hj) <;> exact ⟨j, hj, by simp_all⟩
  unfold ChanState.boundArms
  simp only [e]

theorem state_bind (j : Nat) (hj : j < 64) : stateParts.any (·.covers (0x8000 + 256 * j)) = false := by
  simp only [stateParts, quietParts, torqueParts, unitParts, hostParts, surgeParts, tellParts, Part.covers, List.cons_append,
    List.nil_append, List.any_cons, List.any_nil, Bool.or_false, Bool.false_or]
  simp only [Bool.or_eq_false_iff, Bool.and_eq_false_iff, decide_eq_false_iff_not]
  omega
theorem fault_bind (j : Nat) (hj : j < 64) : faultParts.any (·.covers (0x8000 + 256 * j)) = false := by
  simp only [faultParts, reactParts, noteParts, stateParts, quietParts, torqueParts, unitParts, hostParts, surgeParts, tellParts, Part.covers,
    List.cons_append, List.nil_append, List.any_cons, List.any_nil, Bool.or_false, Bool.false_or]
  simp only [Bool.or_eq_false_iff, Bool.and_eq_false_iff, decide_eq_false_iff_not]
  omega

end Sys2Proof.Machine
end

