-- ==== Sys2Proof/WellFormed.lean ====
section
/-!
DEFINITION. Which commands a host, a port or a pin can send: register offsets are those of whole registers (R7, R357),
lengths are those the paths carry (R298, R357, R360).
-/
namespace Sys2Proof

/-- A register or window offset of a whole 32-bit word (R357, R360). -/
def wordAligned (o : Nat) : Bool := o % 4 == 0

/-- The lengths a frame, a datagram or a window write may have: not empty, and at most 9,600 bytes. -/
def lengthOk (bs : List Byte) : Bool := !bs.isEmpty && decide (bs.length ≤ 9600)

/-- Whether a command is one the paths can carry. -/
def Instr.wf : Instr → Bool
  | .registerWrite _ _ o _ _ => wordAligned o.toNat
  | .lowWordRead _ _ o => wordAligned o.toNat
  | .highWordRead _ _ o => wordAligned o.toNat
  | .bar2Write _ _ _ bs => lengthOk bs
  | .exclusiveFrame _ _ _ bs _ => lengthOk bs
  | .arbitratingFrame _ _ _ bs _ => lengthOk bs
  | .startupFrame _ _ _ bs _ => lengthOk bs
  | .delayRequest _ _ _ bs _ => lengthOk bs
  | .delayResponse _ _ _ bs _ => lengthOk bs
  | .plantDatagram _ bs => lengthOk bs
  | .spiRead _ n => decide (0 < n)
  | .spiQread _ n => decide (0 < n)
  | .linkUp sp w => (sp == 1 || sp == 2 || sp == 3) && (w == 1 || w == 2 || w == 4)
  | _ => true

end Sys2Proof
end

