-- ==== Sys2Proof/Tests/Slice0.lean ====
section
/-!
SUPPORT. Tests: the well-formedness checks, worked examples of the spec, and for every statement with hypotheses states that meet them.
-/

open Sys2Proof Sys2Proof.Machine

namespace Sys2Proof.Tests

/-- The package with channel A in a given state. -/
def inA (ch : ChanState) : State := { State.reset with chA := ch }

/-- Channel A out of reset, with every register at its reset value. -/
def base : ChanState := { id := .A, rst := { held := false } }

/-- Channel A after a command of one channel. -/
def after (i : Instr) (ch : ChanState) : ChanState :=
  match exec i (inA ch) with
  | .next t => t.chA
  | _ => base

/-! ### Well-formedness: what the paths cannot carry is refused -/

theorem test_wf_write_unaligned : (Instr.registerWrite .A .pcie 0x2 0 0xF).wf = false := by decide
theorem test_wf_write : (Instr.registerWrite .A .pcie 0x4 0 0xF).wf = true := by decide
theorem test_wf_low_unaligned : (Instr.lowWordRead .A .spi 0x1).wf = false := by decide
theorem test_wf_high_unaligned : (Instr.highWordRead .B .spi 0x7).wf = false := by decide
theorem test_wf_bar2_empty : (Instr.bar2Write .A .pcie 0 []).wf = false := by decide
theorem test_wf_exclusive_empty : (Instr.exclusiveFrame .A 0 true [] 0).wf = false := by decide
theorem test_wf_arbitrating_empty : (Instr.arbitratingFrame .A 0 true [] 0).wf = false := by decide
theorem test_wf_startup_empty : (Instr.startupFrame .A 0 true [] 0).wf = false := by decide
theorem test_wf_delay_request_empty : (Instr.delayRequest .A 0 true [] 0).wf = false := by decide
theorem test_wf_delay_response_empty : (Instr.delayResponse .A 0 true [] 0).wf = false := by decide
theorem test_wf_datagram_empty : (Instr.plantDatagram .A []).wf = false := by decide
theorem test_wf_too_long : lengthOk (List.replicate 9601 0) = false := by rw [lengthOk, List.length_replicate, Bool.and_eq_false_iff]; exact .inr (by decide)
theorem test_wf_spi_none : (Instr.spiRead 0x400000 0).wf = false := by decide
theorem test_wf_spi_quad_none : (Instr.spiQread 0x400000 0).wf = false := by decide
theorem test_wf_link_speed : (Instr.linkUp 4 1).wf = false := by decide
theorem test_wf_link_width : (Instr.linkUp 3 3).wf = false := by decide
theorem test_wf_link : (Instr.linkUp 3 4).wf = true := by decide

/-- The table gives no row bits. -/
theorem test_no_bits : decodeTableWord 32 0 = none := by decide

/-! ### Worked examples of the spec -/

/-- Chapter 1: T = 1,000,000,123,456 ns lies 11,456 ns into basic cycle 62,500,007, b = 7, MCC = 3,906,250. -/
theorem test_place_instant :
    let ch : ChanState := { base with ct := 1000000123456 * 65536 }
    ch.cycle = 62500007 ∧ ch.now % 16000 = 11456 ∧ ch.bIdx = 7 ∧ ch.mcc = 3906250 := by decide

/-- Chapter 2: the midpoint of J38's segment, from 100,000 counts at 4 to 110,000 counts at 12 in 1,024 basic cycles, at s = 0.5. -/
theorem test_hermite_midpoint :
    (hermite 1024 (100000 * 65536) (4 * 65536) (110000 * 65536) (12 * 65536) 2097152 2048 2048).1 = 0x196280000 ∧
      (hermite 1024 (100000 * 65536) (4 * 65536) (110000 * 65536) (12 * 65536) 2097152 2048 2048).2.1 = 0x00055300 := by decide

/-- Chapter 3: the electrical angle at 37,684 counts of 2 ^ 20, five pole pairs, offset 0x1200. -/
theorem test_electrical_angle :
    let ch := ((base.put (Reg.JNT_CPR 3) 1048576).put (Reg.JNT_POLE_PP 3) 5).put (Reg.JNT_POLE_OFS 3) 0x1200
    ChanState.elecAngle { ch with joints := [(3, { act := 37684 * 65536 })] } 3 = 0x4000 := by decide

/-- Chapter 4: the encodings of the table stand; a word with a bit in a field its form lacks does not. -/
theorem test_words_stand : [0x28007C08, 0xBD880000, 0x502C0000, 0x4A40F000, 0x7403F000, 0x04400134, 0x1C000000].all leLegal = true := by decide
theorem test_word_of_no_form : leLegal 0x1C000001 = false := by decide

/-- Chapter 5: the duties of A.J3 as ticks of a half period of 2,000. -/
theorem test_duties : [10005, 18752, 22762].map (dutyTicks · 2000) = [611, 1145, 1389] := by decide

/-- Chapter 6: the extrapolation term of A.J3's latch. -/
theorem test_extrapolation : rdiv (419 * 1100 * 65536) 4000 = 7551386 := by decide

set_option maxRecDepth 20000 in
/-- Chapter 11: a delay of 2,200,000,000 ns is discarded; RANGE is set and the delay in force stays. -/
theorem test_delay_too_long :
    let x := after (.evdlyWrite .A 2 2200000000) (base.put (Reg.TIM_EVDLY 2) 800000000)
    x.get (Reg.TIM_EVDLY 2) = 800000000 ∧ x.bit (Reg.TIM_EVSTS_RANGE 2) = true := by decide

set_option maxRecDepth 20000 in
/-- Chapter 13: the trace record of event 0x2A at 1,000,800,146,000 ns: one word stored, four bytes staged. -/
theorem test_event_record :
    let ch := base.put (Reg.HOST_EVRT_SUP 0x2A) 1
    let x := ChanState.event { ch.put (Reg.HOST_EVRT_MSIX 0x2A) 0 with ct := 1000800146000 * 65536, trc := { seq := [(2, 0x153)] } } 0x2A
    x.trc.store = [⟨[0x02, 0x04, 0x53, 0x01, 0x50, 0x52, 0x56, 0x04]⟩] ∧ x.trc.staging = [0x2A, 0, 0, 0] ∧
      x.get Reg.TRC_STS_STAGED = 4 := by decide

/-! ### Reset -/

theorem test_reset_present : State.reset.present .A = true ∧ State.reset.present .B = true := by decide
theorem test_reset_codes : (State.reset.chan .A).get Reg.CHN_STATE_CODE = 1 ∧ (State.reset.chan .B).get Reg.CHN_STATE_CODE = 1 := by decide
theorem test_reset_table : (State.reset.chan .A).get Reg.RST_FTAB = 0x00E6A98B ∧ (State.reset.chan .B).get Reg.RST_FTAB = 0x00E6A98B := by decide

/-! ### States that meet the hypotheses of the statements -/

theorem witness_running : (inA base).runs .A := by decide

theorem witness_IdleStepTicks :
    (∃ (s : State) (c : Chan), s.pending = [] ∧ s.present c = true ∧ (s.chan c).rst.held = false) ∧
    (∃ (s : State) (c : Chan), s.pending = [] ∧ s.present c = true ∧ (s.chan c).rst.held = true) ∧
    ∃ (s : State) (c : Chan), s.pending = [] ∧ s.present c = false :=
  ⟨⟨inA base, .A, by decide⟩, ⟨State.reset, .B, by decide⟩, ⟨{ State.reset with variant := .EV7208 }, .B, by decide⟩⟩

theorem witness_OtherChannelUntouched :
    ∃ (i : Instr) (c d : Chan) (s t : State), within i = some c ∧ d ≠ c ∧ exec i s = .next t :=
  ⟨.snap .A, .A, .B, inA base, _, rfl, by decide, rfl⟩

theorem witness_Ev7208HasNoChannelB :
    ∃ s t : State, (s.variant = .EV7208 ∧ s.chB = State.reset.chB) ∧ step s = .next t :=
  ⟨{ State.reset with variant := .EV7208, pending := [.perst] }, _, ⟨rfl, rfl⟩, rfl⟩

theorem witness_HeldChannelStays :
    (∃ (i : Instr) (c : Chan) (s : State), within i = some c ∧ s.present c = false) ∧
    ∃ (i : Instr) (c : Chan) (s : State), within i = some c ∧ whileHeld i = false ∧ s.present c = true ∧ (s.chan c).rst.held = true :=
  ⟨⟨.snap .B, .B, { State.reset with variant := .EV7208 }, by decide⟩, ⟨.snap .A, .A, State.reset, by decide⟩⟩

theorem witness_BuffersHold :
    ∃ s t : State, (∀ c, (s.chan c).buffersHold) ∧ (s.chan .A).flt.queue.length = 32 ∧ step s = .next t := by
  refine ⟨{ inA { base with flt := { base.flt with queue := List.replicate 32 ⟨0, 0, false, none, 1, 0, 0, 0, 0, 0, 5⟩ } } with pending := [.snap .A] }, _, fun c => ?_, ?_, rfl⟩
  · cases c <;> decide
  · decide

theorem witness_keys : (∃ key : BitVec 16, key ≠ 0x57A7) ∧ ∃ l : Nat, l = 1 ∨ l = 2 := ⟨⟨0, by decide⟩, ⟨1, by decide⟩⟩

theorem witness_StateCommandsRejected :
    (∃ (key : BitVec 16) (ch : ChanState), (inA ch).runs .A ∧ key ≠ 0x57A7) ∧
    (∃ (coin : Bool) (ch : ChanState), (inA ch).runs .A ∧ coin = true) ∧
    (∃ ch : ChanState, (inA ch).runs .A ∧ ch.bit Reg.CHN_STATE_BUSY = true) ∧
    ∀ p ∈ [[3], [4], [5], [2, 8], [7]], (inA base).runs .A ∧ base.get Reg.CHN_STATE_CODE ∉ p :=
  ⟨⟨0, base, by decide⟩, ⟨true, base, by decide⟩, ⟨base.put Reg.CHN_STATE_BUSY 1, by decide⟩, by decide⟩

theorem witness_levels : (∃ r : Rst, r.fuseProg = false) ∧ ∃ r : Rst, r.fuseProg = true ∧ r.fuseBad = false :=
  ⟨⟨{}, rfl⟩, ⟨{ fuseProg := true }, by decide⟩⟩

theorem witness_StateCommandsCarriedOut :
    (∃ (ch : ChanState), (inA ch).runs .A ∧ ch.bit Reg.CHN_STATE_BUSY = false ∧ ch.get Reg.CHN_STATE_CODE = 4) ∧
    (∃ (ch : ChanState), (inA ch).runs .A ∧ ch.bit Reg.CHN_STATE_BUSY = false ∧ ch.get Reg.CHN_STATE_CODE = 5) ∧
    (∃ (ch : ChanState), (inA ch).runs .A ∧ ch.bit Reg.CHN_STATE_BUSY = false ∧ ch.get Reg.CHN_STATE_CODE = 4) ∧
    (∃ (ch : ChanState), (inA ch).runs .A ∧ ch.bit Reg.CHN_STATE_BUSY = false ∧ ch.get Reg.CHN_STATE_CODE = 3) :=
  ⟨⟨{ id := .A, rst := { held := false }, regs := [(4, 4)] }, by decide⟩,
   ⟨{ id := .A, rst := { held := false }, regs := [(4, 5)] }, by decide⟩,
   ⟨{ id := .A, rst := { held := false }, regs := [(4, 4)] }, by decide⟩,
   ⟨{ id := .A, rst := { held := false }, regs := [(4, 3)] }, by decide⟩⟩

theorem witness_ReadyAndBrakes :
    (∃ (ch : ChanState), (inA ch).runs .A ∧ ch.bit Reg.CHN_STATE_BUSY = false ∧ ch.get Reg.CHN_STATE_CODE = 3 ∧ ch.classAny < 2 ∧ (∀ g, g < 4 → ch.bit (Reg.SAF_STOCFG_EN g) = true → ch.bit (Reg.SAF_STOSTS_PERM g) = true) ∧ ch.positionsValid = true ∧ ch.transmits = true ∧ ∀ n ∈ ch.jointNodes, ch.nodePresent n = true) ∧
    (∃ (ch : ChanState), (inA ch).runs .A ∧ ch.bit Reg.CHN_STATE_BUSY = false ∧ ch.get Reg.CHN_STATE_CODE = 3 ∧ (2 ≤ ch.classAny ∨ (∃ g, g < 4 ∧ ch.bit (Reg.SAF_STOCFG_EN g) = true ∧ ch.bit (Reg.SAF_STOSTS_PERM g) = false) ∨ ch.positionsValid = false ∨ ch.transmits = false ∨ ∃ n ∈ ch.jointNodes, ch.nodePresent n = false)) ∧
    (∃ (ch : ChanState), (inA ch).runs .A ∧ ch.goingReady = true) ∧
    (∃ (k : Fin 8) (ch : ChanState), (inA ch).runs .A ∧ (ch.arm k.val).engaging.isSome = true) :=
  ⟨⟨{ id := .A, rst := { held := false }, cb := { nodes := [{ id := 7, kind := 1, rank := 2, fwd := 100, cdly := 50 }, { id := 9, kind := 1, rank := 1, fwd := 100, cdly := 50 }, { id := 11, kind := 2, rank := 0, fwd := 100, cdly := 50 }] }, regs := [(4, 3), (106496, 263), (106500, 5)] }, by decide⟩,
   ⟨{ id := .A, rst := { held := false }, regs := [(4, 3)] }, by decide⟩,
   ⟨{ id := .A, rst := { held := false }, goingReady := true }, by decide⟩,
   ⟨0, { id := .A, rst := { held := false }, arms := [(0, { engaging := some 158305079706 })] }, by decide⟩⟩

theorem witness_RestartAndLockoutAck :
    (∃ (ch : ChanState), (inA ch).runs .A ∧ ch.bit Reg.CHN_STATE_BUSY = false ∧ (ch.get Reg.CHN_STATE_CODE = 2 ∨ ch.get Reg.CHN_STATE_CODE = 8)) ∧
    (∃ (ch : ChanState), (inA ch).runs .A ∧ ch.bit Reg.CHN_STATE_BUSY = false ∧ ch.get Reg.CHN_STATE_CODE = 7 ∧ ch.bit Reg.SAF_STS_RSTQ = true ∧ ∀ a ∈ ch.flt.active, 2 ≤ a.cls → ch.causePresent a = false) ∧
    (∃ (ch : ChanState), (inA ch).runs .A ∧ ch.bit Reg.CHN_STATE_BUSY = false ∧ ch.get Reg.CHN_STATE_CODE = 7 ∧ (ch.bit Reg.SAF_STS_RSTQ = false ∨ ∃ a ∈ ch.flt.active, 2 ≤ a.cls ∧ ch.causePresent a = true)) :=
  ⟨⟨{ id := .A, rst := { held := false }, regs := [(4, 8)] }, by decide⟩,
   ⟨{ id := .A, rst := { held := false }, regs := [(4, 7), (90116, 1)] }, by decide⟩,
   ⟨{ id := .A, rst := { held := false }, regs := [(4, 7)] }, by decide⟩⟩

theorem witness_JointCommandsWait :
    (∃ (j : Fin 64) (ch : ChanState), (inA ch).runs .A ∧ ch.segJoint j = false) ∧
    (∃ (j : Fin 64) (ch : ChanState), (inA ch).runs .A ∧ ch.segJoint j = false) ∧
    (∃ (j : Fin 64) (ch : ChanState), (inA ch).runs .A ∧ ch.segJoint j = true) ∧
    (∃ (j : Fin 64) (ch : ChanState), (inA ch).runs .A ∧ ch.segJoint j = true) :=
  ⟨⟨0, { id := .A, rst := { held := false } }, by decide⟩,
   ⟨0, { id := .A, rst := { held := false } }, by decide⟩,
   ⟨0, { id := .A, rst := { held := false }, regs := [(32768, 1), (49152, 1)] }, by decide⟩,
   ⟨0, { id := .A, rst := { held := false }, regs := [(32768, 1), (49152, 1)] }, by decide⟩⟩

theorem witness_SegmentAppend :
    (∃ (k : Fin 8) (cnt : Word) (ch : ChanState), (inA ch).runs .A ∧ 2 ^ 31 ≤ ofInt 32 (cnt.toNat - ch.get (Reg.PRF_SAPP k)) ∨ ch.get (Reg.PRF_RSIZE_SIZE k) < ofInt 32 (cnt.toNat - ch.get (Reg.PRF_RCON k))) ∧
    (∃ (k : Fin 8) (cnt : Word) (ch : ChanState), (inA ch).runs .A ∧ ofInt 32 (cnt.toNat - ch.get (Reg.PRF_SAPP k)) < 2 ^ 31 ∧ ofInt 32 (cnt.toNat - ch.get (Reg.PRF_RCON k)) ≤ ch.get (Reg.PRF_RSIZE_SIZE k) ∧ ∀ i, i < ofInt 32 (cnt.toNat - ch.get (Reg.PRF_SAPP k)) → segCheck (ch.nj k) (ch.ringBytes k (ch.get (Reg.PRF_SAPP k) + i)) = 0) ∧
    (∃ (k : Fin 8) (cnt : Word) (ch : ChanState), (inA ch).runs .A ∧ 0 < ofInt 32 (cnt.toNat - ch.get (Reg.PRF_SAPP k)) ∧ ofInt 32 (cnt.toNat - ch.get (Reg.PRF_SAPP k)) < 2 ^ 31 ∧ ofInt 32 (cnt.toNat - ch.get (Reg.PRF_RCON k)) ≤ ch.get (Reg.PRF_RSIZE_SIZE k) ∧ segCheck (ch.nj k) (ch.ringBytes k (ch.get (Reg.PRF_SAPP k))) ≠ 0) :=
  ⟨⟨0, 1552853156, { id := .A, rst := { held := false } }, by decide⟩,
   ⟨0, 0, { id := .A, rst := { held := false } }, by decide⟩,
   ⟨0, 0, { id := .A, rst := { held := false }, regs := [(49160, 8), (49192, 4294967295)] }, by decide⟩⟩

theorem witness_BasicCycleStarts :
    (∃ (ch : ChanState), (inA ch).runs .A ∧ ch.loaded = true ∧ ch.paced) ∧
    (∃ (ch : ChanState), (inA ch).runs .A ∧ ch.loaded = false ∧ ch.bit Reg.RED_CFG_EN = false) :=
  ⟨⟨{ id := .A, rst := { held := false }, loaded := true }, by decide⟩,
   ⟨{ id := .A, rst := { held := false } }, by decide⟩⟩

theorem witness_ProfileEvaluates :
    (∃ (ch : ChanState), (inA ch).runs .A ∧ ch.loaded = true ∧ ch.paced ∧ ch.pevT.all (fun t => decide (t < 2 ^ 62)) = true) ∧
    (∃ (ch : ChanState), (inA ch).runs .A ∧ ch.loaded = false) :=
  ⟨⟨{ id := .A, rst := { held := false }, loaded := true }, by decide⟩,
   ⟨{ id := .A, rst := { held := false } }, by decide⟩⟩

theorem witness_CompareUnits :
    (∃ (n : Fin 16) (ch : ChanState), (inA ch).runs .A ∧ ch.masterLive (ch.get (Reg.CMP_CFG_SRC n)) (ch.get (Reg.CMP_CFG_IDX n)) = none) ∧
    (∃ (n : Fin 16) (hi : Word) (ch : ChanState), (inA ch).runs .A ∧ (ch.masterLive (ch.get (Reg.CMP_CFG_SRC n)) (ch.get (Reg.CMP_CFG_IDX n))).any (fun v => let p := wrapS 64 (ch.get (Reg.CMP_POS_LO n) + hi.toNat * 2 ^ 32);        p != v && (if (ch.cmpU n).neg then decide (p ≤ v) else decide (v ≤ p))) = true) ∧
    (∃ (n : Fin 16) (hi : Word) (ch : ChanState), (inA ch).runs .A ∧ (ch.masterLive (ch.get (Reg.CMP_CFG_SRC n)) (ch.get (Reg.CMP_CFG_IDX n))).any (fun v => let p := wrapS 64 (ch.get (Reg.CMP_POS_LO n) + hi.toNat * 2 ^ 32);        p == v || (if (ch.cmpU n).neg then decide (v < p) else decide (p < v))) = true ∧ ch.bit (Reg.CMP_CFG_PASSED n) = true) ∧
    (∃ (n : Fin 16) (hi : Word) (ch : ChanState), (inA ch).runs .A ∧ (ch.masterLive (ch.get (Reg.CMP_CFG_SRC n)) (ch.get (Reg.CMP_CFG_IDX n))).any (fun v => let p := wrapS 64 (ch.get (Reg.CMP_POS_LO n) + hi.toNat * 2 ^ 32);        p == v || (if (ch.cmpU n).neg then decide (v < p) else decide (p < v))) = true ∧ ch.bit (Reg.CMP_CFG_PASSED n) = false) ∧
    (∃ (n : Fin 16) (ch : ChanState), (inA ch).runs .A ∧ (ch.cmpU n).pinTill.isSome = true) :=
  ⟨⟨0, { id := .A, rst := { held := false } }, by decide⟩,
   ⟨0, 1552853156, { id := .A, rst := { held := false }, regs := [(33536, 1), (53248, 770)] }, by decide⟩,
   ⟨0, 0, { id := .A, rst := { held := false }, regs := [(53248, 262912), (74112, 17), (74160, 1)] }, by decide⟩,
   ⟨0, 0, { id := .A, rst := { held := false }, regs := [(53248, 768), (74112, 17), (74160, 1)] }, by decide⟩,
   ⟨0, { id := .A, rst := { held := false }, cmps := [(0, { pinTill := some 2 })] }, by decide⟩⟩

theorem witness_LeDataResults :
    (∃ (n : Fin 8) (ch : ChanState), (inA ch).runs .A ∧ ch.canRun n 1 = true) ∧
    (∃ (n : Fin 8) (ch : ChanState), (inA ch).runs .A ∧ ch.canRun n 1 = true) ∧
    (∃ (n : Fin 8) (ch : ChanState), (inA ch).runs .A ∧ ch.canRun n 1 = true) ∧
    (∃ (n : Fin 8) (ch : ChanState), (inA ch).runs .A ∧ ch.canRun n 1 = true) ∧
    (∃ (n : Fin 8) (ch : ChanState), (inA ch).runs .A ∧ ch.canRun n 1 = true) ∧
    (∃ (n : Fin 8) (ch : ChanState), (inA ch).runs .A ∧ ch.canRun n 1 = true) ∧
    (∃ (n : Fin 8) (ch : ChanState), (inA ch).runs .A ∧ ch.canRun n 1 = true) ∧
    (∃ (n : Fin 8) (ch : ChanState), (inA ch).runs .A ∧ ch.canRun n 1 = true) :=
  ⟨⟨0, { id := .A, rst := { held := false }, engines := [(0, { task := some { kind := 1, joint := 0, rel := 0, dl := 0, clim := 5000, entry := 0, evt := some 1 } })] }, by decide⟩,
   ⟨0, { id := .A, rst := { held := false }, engines := [(0, { task := some { kind := 1, joint := 0, rel := 0, dl := 0, clim := 5000, entry := 0, evt := some 1 } })] }, by decide⟩,
   ⟨0, { id := .A, rst := { held := false }, engines := [(0, { task := some { kind := 1, joint := 0, rel := 0, dl := 0, clim := 5000, entry := 0, evt := some 1 } })] }, by decide⟩,
   ⟨0, { id := .A, rst := { held := false }, engines := [(0, { task := some { kind := 1, joint := 0, rel := 0, dl := 0, clim := 5000, entry := 0, evt := some 1 } })] }, by decide⟩,
   ⟨0, { id := .A, rst := { held := false }, engines := [(0, { task := some { kind := 1, joint := 0, rel := 0, dl := 0, clim := 5000, entry := 0, evt := some 1 } })] }, by decide⟩,
   ⟨0, { id := .A, rst := { held := false }, engines := [(0, { task := some { kind := 1, joint := 0, rel := 0, dl := 0, clim := 5000, entry := 0, evt := some 1 } })] }, by decide⟩,
   ⟨0, { id := .A, rst := { held := false }, engines := [(0, { task := some { kind := 1, joint := 0, rel := 0, dl := 0, clim := 5000, entry := 0, evt := some 1 } })] }, by decide⟩,
   ⟨0, { id := .A, rst := { held := false }, engines := [(0, { task := some { kind := 1, joint := 0, rel := 0, dl := 0, clim := 5000, entry := 0, evt := some 1 } })] }, by decide⟩⟩

theorem witness_LeLogicAndCompare :
    (∃ (n : Fin 8) (ch : ChanState), (inA ch).runs .A ∧ ch.canRun n 1 = true) ∧
    (∃ (n : Fin 8) (ch : ChanState), (inA ch).runs .A ∧ ch.canRun n 1 = true) ∧
    (∃ (n : Fin 8) (ch : ChanState), (inA ch).runs .A ∧ ch.canRun n 1 = true) ∧
    (∃ (n : Fin 8) (ch : ChanState), (inA ch).runs .A ∧ ch.canRun n 1 = true) ∧
    (∃ (n : Fin 8) (ch : ChanState), (inA ch).runs .A ∧ ch.canRun n 1 = true) ∧
    (∃ (n : Fin 8) (ch : ChanState), (inA ch).runs .A ∧ ch.canRun n 1 = true) ∧
    (∃ (n : Fin 8) (ch : ChanState), (inA ch).runs .A ∧ ch.canRun n 1 = true) ∧
    (∃ (n : Fin 8) (ch : ChanState), (inA ch).runs .A ∧ ch.canRun n 1 = true) :=
  ⟨⟨0, { id := .A, rst := { held := false }, engines := [(0, { task := some { kind := 1, joint := 0, rel := 0, dl := 0, clim := 5000, entry := 0, evt := some 1 } })] }, by decide⟩,
   ⟨0, { id := .A, rst := { held := false }, engines := [(0, { task := some { kind := 1, joint := 0, rel := 0, dl := 0, clim := 5000, entry := 0, evt := some 1 } })] }, by decide⟩,
   ⟨0, { id := .A, rst := { held := false }, engines := [(0, { task := some { kind := 1, joint := 0, rel := 0, dl := 0, clim := 5000, entry := 0, evt := some 1 } })] }, by decide⟩,
   ⟨0, { id := .A, rst := { held := false }, engines := [(0, { task := some { kind := 1, joint := 0, rel := 0, dl := 0, clim := 5000, entry := 0, evt := some 1 } })] }, by decide⟩,
   ⟨0, { id := .A, rst := { held := false }, engines := [(0, { task := some { kind := 1, joint := 0, rel := 0, dl := 0, clim := 5000, entry := 0, evt := some 1 } })] }, by decide⟩,
   ⟨0, { id := .A, rst := { held := false }, engines := [(0, { task := some { kind := 1, joint := 0, rel := 0, dl := 0, clim := 5000, entry := 0, evt := some 1 } })] }, by decide⟩,
   ⟨0, { id := .A, rst := { held := false }, engines := [(0, { task := some { kind := 1, joint := 0, rel := 0, dl := 0, clim := 5000, entry := 0, evt := some 1 } })] }, by decide⟩,
   ⟨0, { id := .A, rst := { held := false }, engines := [(0, { task := some { kind := 1, joint := 0, rel := 0, dl := 0, clim := 5000, entry := 0, evt := some 1 } })] }, by decide⟩⟩

theorem witness_LeAccResults :
    (∃ (n : Fin 8) (ch : ChanState), (inA ch).runs .A ∧ ch.canRun n 1 = true) ∧
    (∃ (n : Fin 8) (ch : ChanState), (inA ch).runs .A ∧ ch.canRun n 1 = true) ∧
    (∃ (n : Fin 8) (ch : ChanState), (inA ch).runs .A ∧ ch.canRun n 1 = true) ∧
    (∃ (n : Fin 8) (ch : ChanState), (inA ch).runs .A ∧ ch.canRun n 1 = true) ∧
    (∃ (n : Fin 8) (ch : ChanState), (inA ch).runs .A ∧ ch.canRun n 1 = true) ∧
    (∃ (n : Fin 8) (ch : ChanState), (inA ch).runs .A ∧ ch.canRun n 1 = true) ∧
    (∃ (n : Fin 8) (ch : ChanState), (inA ch).runs .A ∧ ch.canRun n 1 = true) ∧
    (∃ (n : Fin 8) (ch : ChanState), (inA ch).runs .A ∧ ch.canRun n 1 = true) ∧
    (∃ (n : Fin 8) (ch : ChanState), (inA ch).runs .A ∧ ch.canRun n 1 = true) ∧
    (∃ (n : Fin 8) (ch : ChanState), (inA ch).runs .A ∧ ch.canRun n 1 = true) ∧
    (∃ (n : Fin 8) (ch : ChanState), (inA ch).runs .A ∧ ch.canRun n 1 = true) ∧
    (∃ (n : Fin 8) (ch : ChanState), (inA ch).runs .A ∧ ch.canRun n 1 = true) ∧
    (∃ (n : Fin 8) (ch : ChanState), (inA ch).runs .A ∧ ch.canRun n 1 = true) ∧
    (∃ (n : Fin 8) (p : PtrOp) (q : PtrOp) (ch : ChanState), (inA ch).runs .A ∧ ch.canRun n 1 = true ∧ p.p ≠ q.p) ∧
    (∃ (n : Fin 8) (p : PtrOp) (q : PtrOp) (ch : ChanState), (inA ch).runs .A ∧ ch.canRun n 1 = true ∧ p.p ≠ q.p) ∧
    (∃ (n : Fin 8) (ch : ChanState), (inA ch).runs .A ∧ ch.canRun n 1 = true) :=
  ⟨⟨0, { id := .A, rst := { held := false }, engines := [(0, { task := some { kind := 1, joint := 0, rel := 0, dl := 0, clim := 5000, entry := 0, evt := some 1 } })] }, by decide⟩,
   ⟨0, { id := .A, rst := { held := false }, engines := [(0, { task := some { kind := 1, joint := 0, rel := 0, dl := 0, clim := 5000, entry := 0, evt := some 1 } })] }, by decide⟩,
   ⟨0, { id := .A, rst := { held := false }, engines := [(0, { task := some { kind := 1, joint := 0, rel := 0, dl := 0, clim := 5000, entry := 0, evt := some 1 } })] }, by decide⟩,
   ⟨0, { id := .A, rst := { held := false }, engines := [(0, { task := some { kind := 1, joint := 0, rel := 0, dl := 0, clim := 5000, entry := 0, evt := some 1 } })] }, by decide⟩,
   ⟨0, { id := .A, rst := { held := false }, engines := [(0, { task := some { kind := 1, joint := 0, rel := 0, dl := 0, clim := 5000, entry := 0, evt := some 1 } })] }, by decide⟩,
   ⟨0, { id := .A, rst := { held := false }, engines := [(0, { task := some { kind := 1, joint := 0, rel := 0, dl := 0, clim := 5000, entry := 0, evt := some 1 } })] }, by decide⟩,
   ⟨0, { id := .A, rst := { held := false }, engines := [(0, { task := some { kind := 1, joint := 0, rel := 0, dl := 0, clim := 5000, entry := 0, evt := some 1 } })] }, by decide⟩,
   ⟨0, { id := .A, rst := { held := false }, engines := [(0, { task := some { kind := 1, joint := 0, rel := 0, dl := 0, clim := 5000, entry := 0, evt := some 1 } })] }, by decide⟩,
   ⟨0, { id := .A, rst := { held := false }, engines := [(0, { task := some { kind := 1, joint := 0, rel := 0, dl := 0, clim := 5000, entry := 0, evt := some 1 } })] }, by decide⟩,
   ⟨0, { id := .A, rst := { held := false }, engines := [(0, { task := some { kind := 1, joint := 0, rel := 0, dl := 0, clim := 5000, entry := 0, evt := some 1 } })] }, by decide⟩,
   ⟨0, { id := .A, rst := { held := false }, engines := [(0, { task := some { kind := 1, joint := 0, rel := 0, dl := 0, clim := 5000, entry := 0, evt := some 1 } })] }, by decide⟩,
   ⟨0, { id := .A, rst := { held := false }, engines := [(0, { task := some { kind := 1, joint := 0, rel := 0, dl := 0, clim := 5000, entry := 0, evt := some 1 } })] }, by decide⟩,
   ⟨0, { id := .A, rst := { held := false }, engines := [(0, { task := some { kind := 1, joint := 0, rel := 0, dl := 0, clim := 5000, entry := 0, evt := some 1 } })] }, by decide⟩,
   ⟨0, { p := 0, m := .plain }, { p := 1, m := .plain }, { id := .A, rst := { held := false }, engines := [(0, { task := some { kind := 1, joint := 23, rel := 0, dl := 0, clim := 5000, entry := 0, evt := none } })] }, by decide⟩,
   ⟨0, { p := 0, m := .plain }, { p := 1, m := .plain }, { id := .A, rst := { held := false }, engines := [(0, { task := some { kind := 1, joint := 23, rel := 0, dl := 0, clim := 5000, entry := 0, evt := none } })] }, by decide⟩,
   ⟨0, { id := .A, rst := { held := false }, engines := [(0, { task := some { kind := 1, joint := 0, rel := 0, dl := 0, clim := 5000, entry := 0, evt := some 1 } })] }, by decide⟩⟩

theorem witness_LeLoadsAndStores :
    (∃ (n : Fin 8) (p : PtrOp) (q : PtrOp) (ch : ChanState), (inA ch).runs .A ∧ ch.canRun n 1 = true ∧ p.p ≠ q.p) ∧
    (∃ (n : Fin 8) (ch : ChanState), (inA ch).runs .A ∧ ch.canRun n 1 = true) ∧
    (∃ (n : Fin 8) (ch : ChanState), (inA ch).runs .A ∧ ch.canRun n 1 = true) ∧
    (∃ (n : Fin 8) (ch : ChanState), (inA ch).runs .A ∧ ch.canRun n 1 = true) ∧
    (∃ (n : Fin 8) (ch : ChanState), (inA ch).runs .A ∧ ch.canRun n 1 = true) ∧
    (∃ (n : Fin 8) (ch : ChanState), (inA ch).runs .A ∧ ch.canRun n 1 = true) ∧
    (∃ (n : Fin 8) (p : PtrOp) (ch : ChanState), (inA ch).runs .A ∧ ch.canRun n 1 = true ∧ (((ch.engine n).ptr p.p).toNat < 0x7C00 ∨ winWritable ((ch.engine n).ptr p.p).toNat = true)) ∧
    (∃ (n : Fin 8) (ch : ChanState), (inA ch).runs .A ∧ ch.canRun n 1 = true) ∧
    (∃ (n : Fin 8) (p : PtrOp) (ch : ChanState), (inA ch).runs .A ∧ ch.canRun n 1 = true ∧ ((ch.engine n).ptr p.p).toNat < 0x7BFF) :=
  ⟨⟨0, { p := 0, m := .plain }, { p := 2, m := .inc }, { id := .A, rst := { held := false }, engines := [(0, { task := some { kind := 2, joint := 56, rel := 0, dl := 0, clim := 5000, entry := 0, evt := some 1 } })] }, by decide⟩,
   ⟨0, { id := .A, rst := { held := false }, engines := [(0, { task := some { kind := 1, joint := 0, rel := 0, dl := 0, clim := 5000, entry := 0, evt := some 1 } })] }, by decide⟩,
   ⟨0, { id := .A, rst := { held := false }, engines := [(0, { task := some { kind := 1, joint := 0, rel := 0, dl := 0, clim := 5000, entry := 0, evt := some 1 } })] }, by decide⟩,
   ⟨0, { id := .A, rst := { held := false }, engines := [(0, { task := some { kind := 1, joint := 0, rel := 0, dl := 0, clim := 5000, entry := 0, evt := some 1 } })] }, by decide⟩,
   ⟨0, { id := .A, rst := { held := false }, engines := [(0, { task := some { kind := 1, joint := 0, rel := 0, dl := 0, clim := 5000, entry := 0, evt := some 1 } })] }, by decide⟩,
   ⟨0, { id := .A, rst := { held := false }, engines := [(0, { task := some { kind := 1, joint := 0, rel := 0, dl := 0, clim := 5000, entry := 0, evt := some 1 } })] }, by decide⟩,
   ⟨0, { p := 0, m := .plain }, { id := .A, rst := { held := false }, engines := [(0, { task := some { kind := 1, joint := 0, rel := 0, dl := 0, clim := 5000, entry := 0, evt := some 1 } })] }, by decide⟩,
   ⟨0, { id := .A, rst := { held := false }, engines := [(0, { task := some { kind := 1, joint := 0, rel := 0, dl := 0, clim := 5000, entry := 0, evt := some 1 } })] }, by decide⟩,
   ⟨0, { p := 0, m := .plain }, { id := .A, rst := { held := false }, engines := [(0, { task := some { kind := 1, joint := 0, rel := 0, dl := 0, clim := 5000, entry := 0, evt := some 1 } })] }, by decide⟩⟩

theorem witness_LeMoves :
    (∃ (n : Fin 8) (dst : BitVec 5) (src : BitVec 5) (ch : ChanState), (inA ch).runs .A ∧ ch.canRun n 1 = true ∧ src.toNat < 0x1A ∧ dst.toNat < 0x1A ∧ ¬(0x10 ≤ dst.toNat ∧ dst.toNat ≤ 0x13)) ∧
    (∃ (n : Fin 8) (dst : BitVec 5) (src : BitVec 5) (ch : ChanState), (inA ch).runs .A ∧ (ch.engine n).task.isSome = true ∧ (0x1A ≤ src.toNat ∨ 0x1A ≤ dst.toNat ∨ (0x10 ≤ dst.toNat ∧ dst.toNat ≤ 0x13))) ∧
    (∃ (n : Fin 8) (cond : BitVec 4) (ch : ChanState), (inA ch).runs .A ∧ ch.canRun n 1 = true ∧ (ch.engine n).cond cond = some true) ∧
    (∃ (n : Fin 8) (cond : BitVec 4) (ch : ChanState), (inA ch).runs .A ∧ ch.canRun n 1 = true ∧ (ch.engine n).cond cond = some false) :=
  ⟨⟨0, 0, 0, { id := .A, rst := { held := false }, engines := [(0, { task := some { kind := 1, joint := 0, rel := 0, dl := 0, clim := 5000, entry := 0, evt := some 1 } })] }, by decide⟩,
   ⟨0, 0, 31, { id := .A, rst := { held := false }, engines := [(0, { task := some { kind := 1, joint := 55, rel := 0, dl := 0, clim := 5000, entry := 0, evt := none } })] }, by decide⟩,
   ⟨0, 0, { id := .A, rst := { held := false }, engines := [(0, { task := some { kind := 1, joint := 0, rel := 0, dl := 0, clim := 5000, entry := 0, evt := some 1 } })] }, by decide⟩,
   ⟨0, 1, { id := .A, rst := { held := false }, engines := [(0, { task := some { kind := 2, joint := 31, rel := 0, dl := 0, clim := 5000, entry := 0, evt := none } })] }, by decide⟩⟩

theorem witness_LeDivideAndRoot :
    (∃ (n : Fin 8) (y : Fin 8) (ch : ChanState), (inA ch).runs .A ∧ ch.canRun n 18 = true ∧ (ch.engine n).dx y ≠ 0) ∧
    (∃ (n : Fin 8) (y : Fin 8) (ch : ChanState), (inA ch).runs .A ∧ ch.canRun n 18 = true ∧ (ch.engine n).dx y = 0) ∧
    (∃ (n : Fin 8) (a : AccSel) (r : Nat) (ch : ChanState), (inA ch).runs .A ∧ ch.canRun n 18 = true ∧ (r * r : Nat) ≤ (ch.engine n).ax a ∧ (ch.engine n).ax a < ((r + 1) * (r + 1) : Nat)) ∧
    (∃ (n : Fin 8) (a : AccSel) (ch : ChanState), (inA ch).runs .A ∧ ch.canRun n 18 = true ∧ (ch.engine n).ax a < 0) :=
  ⟨⟨0, 0, { id := .A, rst := { held := false }, engines := [(0, { d := [(0, 22439), (1, 22439), (2, 22439), (3, 22439), (4, 22439), (5, 65535), (6, 22439), (7, 22439)], task := some { kind := 2, joint := 10, rel := 0, dl := 0, clim := 5000, entry := 0, evt := none } })] }, by decide⟩,
   ⟨0, 0, { id := .A, rst := { held := false }, engines := [(0, { task := some { kind := 1, joint := 0, rel := 0, dl := 0, clim := 5000, entry := 0, evt := some 1 } })] }, by decide⟩,
   ⟨0, .ac0, 0, { id := .A, rst := { held := false }, engines := [(0, { task := some { kind := 1, joint := 0, rel := 0, dl := 0, clim := 5000, entry := 0, evt := some 1 } })] }, by decide⟩,
   ⟨0, .ac0, { id := .A, rst := { held := false }, engines := [(0, { ac0 := 1099511627775, task := some { kind := 2, joint := 10, rel := 0, dl := 0, clim := 5000, entry := 0, evt := none } })] }, by decide⟩⟩

theorem witness_LeTrigAndExtremes :
    (∃ (n : Fin 8) (ch : ChanState), (inA ch).runs .A ∧ ch.canRun n 2 = true) ∧
    (∃ (n : Fin 8) (x : Fin 8) (ch : ChanState), (inA ch).runs .A ∧ ch.canRun n 2 = true ∧ ((ch.engine n).dreg x) = 0) ∧
    (∃ (n : Fin 8) (x : Fin 8) (ch : ChanState), (inA ch).runs .A ∧ ch.canRun n 2 = true ∧ ((ch.engine n).dreg x) = 0) ∧
    (∃ (n : Fin 8) (x : Fin 8) (ch : ChanState), (inA ch).runs .A ∧ ch.canRun n (2 + (((ch.engine n).dreg x).toNat + 1) / 2) = true ∧ 0 < ((ch.engine n).dreg x).toNat) ∧
    (∃ (n : Fin 8) (x : Fin 8) (ch : ChanState), (inA ch).runs .A ∧ ch.canRun n (2 + (((ch.engine n).dreg x).toNat + 1) / 2) = true ∧ 0 < ((ch.engine n).dreg x).toNat) :=
  ⟨⟨0, { id := .A, rst := { held := false }, engines := [(0, { task := some { kind := 1, joint := 0, rel := 0, dl := 0, clim := 5000, entry := 0, evt := some 1 } })] }, by decide⟩,
   ⟨0, 0, { id := .A, rst := { held := false }, engines := [(0, { task := some { kind := 1, joint := 0, rel := 0, dl := 0, clim := 5000, entry := 0, evt := some 1 } })] }, by decide⟩,
   ⟨0, 0, { id := .A, rst := { held := false }, engines := [(0, { task := some { kind := 1, joint := 0, rel := 0, dl := 0, clim := 5000, entry := 0, evt := some 1 } })] }, by decide⟩,
   ⟨0, 0, { id := .A, rst := { held := false }, engines := [(0, { d := [(0, 4)], task := some { kind := 1, joint := 12, rel := 0, dl := 0, clim := 5000, entry := 0, evt := some 1 } })] }, by decide⟩,
   ⟨0, 0, { id := .A, rst := { held := false }, engines := [(0, { d := [(0, 4)], task := some { kind := 1, joint := 12, rel := 0, dl := 0, clim := 5000, entry := 0, evt := some 1 } })] }, by decide⟩⟩

theorem witness_LeControlFlow :
    (∃ (n : Fin 8) (ch : ChanState), (inA ch).runs .A ∧ ch.canRun n 1 = true) ∧
    (∃ (n : Fin 8) (lc : Fin 3) (f : Nat) (ch : ChanState), (inA ch).runs .A ∧ ch.canLoop n 1 = true ∧ (ch.engine n).reps = [⟨lc.val, f, ch.get (Reg.LPE_PC_PC n)⟩] ∧ Tab.get (ch.engine n).lc 0 lc.val ≠ 1) ∧
    (∃ (n : Fin 8) (lc : Fin 3) (f : Nat) (ch : ChanState), (inA ch).runs .A ∧ ch.canLoop n 1 = true ∧ (ch.engine n).reps = [⟨lc.val, f, ch.get (Reg.LPE_PC_PC n)⟩] ∧ Tab.get (ch.engine n).lc 0 lc.val = 1) ∧
    (∃ (n : Fin 8) (cond : BitVec 4) (t : BitVec 16) (lc : Fin 3) (f : Nat) (l : Nat) (ch : ChanState), (inA ch).runs .A ∧ ch.canLoop n 2 = true ∧ (ch.engine n).cond cond = some true ∧ (ch.engine n).reps = [⟨lc.val, f, l⟩] ∧ (t.toNat < f ∨ l < t.toNat)) ∧
    (∃ (n : Fin 8) (cond : BitVec 4) (t : BitVec 16) (lc : Fin 3) (f : Nat) (l : Nat) (ch : ChanState), (inA ch).runs .A ∧ ch.canLoop n 2 = true ∧ (ch.engine n).cond cond = some true ∧ (ch.engine n).reps = [⟨lc.val, f, l⟩] ∧ f ≤ t.toNat ∧ t.toNat ≤ l) ∧
    (∃ (n : Fin 8) (ch : ChanState), (inA ch).runs .A ∧ (ch.engine n).task = none) ∧
    (∃ (n : Fin 8) (cond : BitVec 4) (ch : ChanState), (inA ch).runs .A ∧ ch.canRun n 2 = true ∧ (ch.engine n).cond cond = some true) ∧
    (∃ (n : Fin 8) (cond : BitVec 4) (ch : ChanState), (inA ch).runs .A ∧ ch.canRun n 1 = true ∧ (ch.engine n).cond cond = some false) ∧
    (∃ (n : Fin 8) (cond : BitVec 4) (ch : ChanState), (inA ch).runs .A ∧ ch.canRun n 2 = true ∧ (ch.engine n).cond cond = some true ∧ (ch.engine n).stack.length < 4) ∧
    (∃ (n : Fin 8) (cond : BitVec 4) (ch : ChanState), (inA ch).runs .A ∧ ch.canRun n 1 = true ∧ (ch.engine n).cond cond = some false) ∧
    (∃ (n : Fin 8) (cond : BitVec 4) (ch : ChanState), (inA ch).runs .A ∧ ch.canRun n 2 = true ∧ (ch.engine n).cond cond = some true ∧ (ch.engine n).stack ≠ []) ∧
    (∃ (n : Fin 8) (cond : BitVec 4) (ch : ChanState), (inA ch).runs .A ∧ ch.canRun n 1 = true ∧ (ch.engine n).cond cond = some false) ∧
    (∃ (n : Fin 8) (lc : Fin 3) (count : BitVec 12) (len : BitVec 10) (ch : ChanState), (inA ch).runs .A ∧ ch.canRun n 1 = true ∧ len ≠ 0 ∧ Tab.get (ch.engine n).lc 0 lc.val = 0 ∧ count ≠ 0) ∧
    (∃ (n : Fin 8) (lc : Fin 3) (count : BitVec 12) (len : BitVec 10) (ch : ChanState), (inA ch).runs .A ∧ ch.canRun n 2 = true ∧ len ≠ 0 ∧ Tab.get (ch.engine n).lc 0 lc.val = 0 ∧ count = 0) ∧
    (∃ (n : Fin 8) (lc : Fin 3) (x : Fin 8) (len : BitVec 10) (ch : ChanState), (inA ch).runs .A ∧ ch.canRun n 1 = true ∧ len ≠ 0 ∧ Tab.get (ch.engine n).lc 0 lc.val = 0 ∧ (ch.engine n).dreg x ≠ 0) ∧
    (∃ (n : Fin 8) (lc : Fin 3) (x : Fin 8) (len : BitVec 10) (ch : ChanState), (inA ch).runs .A ∧ ch.canRun n 2 = true ∧ len ≠ 0 ∧ Tab.get (ch.engine n).lc 0 lc.val = 0 ∧ (ch.engine n).dreg x = 0) :=
  ⟨⟨0, { id := .A, rst := { held := false }, engines := [(0, { task := some { kind := 1, joint := 0, rel := 0, dl := 0, clim := 5000, entry := 0, evt := some 1 } })] }, by decide⟩,
   ⟨0, 0, 0, { id := .A, rst := { held := false }, engines := [(0, { reps := [{ lc := 0, first := 0, last := 0 }], task := some { kind := 1, joint := 0, rel := 0, dl := 0, clim := 5000, entry := 0, evt := some 1 } })] }, by decide⟩,
   ⟨0, 0, 0, { id := .A, rst := { held := false }, engines := [(0, { lc := [(0, 1)], reps := [{ lc := 0, first := 0, last := 0 }], task := some { kind := 1, joint := 0, rel := 0, dl := 0, clim := 5000, entry := 0, evt := some 1 } })] }, by decide⟩,
   ⟨0, 0, 0, 0, 37454, 0, { id := .A, rst := { held := false }, engines := [(0, { reps := [{ lc := 0, first := 37454, last := 0 }], task := some { kind := 1, joint := 8, rel := 0, dl := 0, clim := 5000, entry := 0, evt := some 1 } })] }, by decide⟩,
   ⟨0, 0, 0, 0, 0, 0, { id := .A, rst := { held := false }, engines := [(0, { reps := [{ lc := 0, first := 0, last := 0 }], task := some { kind := 1, joint := 0, rel := 0, dl := 0, clim := 5000, entry := 0, evt := some 1 } })] }, by decide⟩,
   ⟨0, { id := .A, rst := { held := false } }, by decide⟩,
   ⟨0, 0, { id := .A, rst := { held := false }, engines := [(0, { task := some { kind := 1, joint := 0, rel := 0, dl := 0, clim := 5000, entry := 0, evt := some 1 } })] }, by decide⟩,
   ⟨0, 7, { id := .A, rst := { held := false }, engines := [(0, { task := some { kind := 3, joint := 26, rel := 0, dl := 0, clim := 5000, entry := 0, evt := none } })] }, by decide⟩,
   ⟨0, 0, { id := .A, rst := { held := false }, engines := [(0, { task := some { kind := 1, joint := 0, rel := 0, dl := 0, clim := 5000, entry := 0, evt := some 1 } })] }, by decide⟩,
   ⟨0, 7, { id := .A, rst := { held := false }, engines := [(0, { task := some { kind := 3, joint := 26, rel := 0, dl := 0, clim := 5000, entry := 0, evt := none } })] }, by decide⟩,
   ⟨0, 0, { id := .A, rst := { held := false }, engines := [(0, { stack := [30, 542556375722], task := some { kind := 4, joint := 22, rel := 0, dl := 0, clim := 5000, entry := 0, evt := none } })] }, by decide⟩,
   ⟨0, 7, { id := .A, rst := { held := false }, engines := [(0, { task := some { kind := 3, joint := 26, rel := 0, dl := 0, clim := 5000, entry := 0, evt := none } })] }, by decide⟩,
   ⟨0, 0, 3578, 3, { id := .A, rst := { held := false }, engines := [(0, { task := some { kind := 4, joint := 32, rel := 0, dl := 0, clim := 5000, entry := 0, evt := some 1 } })] }, by decide⟩,
   ⟨0, 0, 0, 3, { id := .A, rst := { held := false }, engines := [(0, { task := some { kind := 3, joint := 26, rel := 0, dl := 0, clim := 5000, entry := 0, evt := none } })] }, by decide⟩,
   ⟨0, 0, 0, 3, { id := .A, rst := { held := false }, engines := [(0, { d := [(0, 362)], task := some { kind := 3, joint := 26, rel := 0, dl := 0, clim := 5000, entry := 0, evt := none } })] }, by decide⟩,
   ⟨0, 0, 0, 3, { id := .A, rst := { held := false }, engines := [(0, { task := some { kind := 4, joint := 32, rel := 0, dl := 0, clim := 5000, entry := 0, evt := some 1 } })] }, by decide⟩⟩

theorem witness_LeHalts :
    (∃ (n : Fin 8) (w : Word) (ch : ChanState), (inA ch).runs .A ∧ (ch.engine n).task.isSome = true ∧ leLegal w.toNat = false) ∧
    (∃ (n : Fin 8) (ch : ChanState), (inA ch).runs .A ∧ (ch.engine n).task.any (ch.userTask ·) = true ∧ 0x1FFF < ch.get (Reg.LPE_PC_PC n)) ∧
    (∃ (n : Fin 8) (ch : ChanState), (inA ch).runs .A ∧ (ch.engine n).task.isSome = true) ∧
    (∃ (n : Fin 8) (cond : BitVec 4) (ch : ChanState), (inA ch).runs .A ∧ (ch.engine n).task.isSome = true ∧ 8 < cond.toNat) ∧
    (∃ (n : Fin 8) (cond : BitVec 4) (ch : ChanState), (inA ch).runs .A ∧ (ch.engine n).task.isSome = true ∧ 8 < cond.toNat) ∧
    (∃ (n : Fin 8) (cond : BitVec 4) (ch : ChanState), (inA ch).runs .A ∧ (ch.engine n).task.isSome = true ∧ 8 < cond.toNat) ∧
    (∃ (n : Fin 8) (cond : BitVec 4) (ch : ChanState), (inA ch).runs .A ∧ (ch.engine n).task.isSome = true ∧ 8 < cond.toNat) ∧
    (∃ (n : Fin 8) (ch : ChanState), (inA ch).runs .A ∧ (ch.engine n).task.isSome = true ∧ (ch.engine n).inBody (ch.get (Reg.LPE_PC_PC n)) = true) ∧
    (∃ (n : Fin 8) (ch : ChanState), (inA ch).runs .A ∧ (ch.engine n).task.isSome = true ∧ (ch.engine n).inBody (ch.get (Reg.LPE_PC_PC n)) = true) ∧
    (∃ (n : Fin 8) (cond : BitVec 4) (ch : ChanState), (inA ch).runs .A ∧ (ch.engine n).task.isSome = true ∧ (ch.engine n).cond cond = some true ∧ 4 ≤ (ch.engine n).stack.length) ∧
    (∃ (n : Fin 8) (cond : BitVec 4) (ch : ChanState), (inA ch).runs .A ∧ (ch.engine n).task.isSome = true ∧ (ch.engine n).cond cond = some true ∧ (ch.engine n).stack = []) ∧
    (∃ (n : Fin 8) (ch : ChanState), (inA ch).runs .A ∧ (ch.engine n).task.isSome = true) ∧
    (∃ (n : Fin 8) (ch : ChanState), (inA ch).runs .A ∧ (ch.engine n).task.isSome = true) ∧
    (∃ (n : Fin 8) (lc : Fin 3) (ch : ChanState), (inA ch).runs .A ∧ (ch.engine n).task.isSome = true ∧ Tab.get (ch.engine n).lc 0 lc.val ≠ 0) ∧
    (∃ (n : Fin 8) (lc : Fin 3) (ch : ChanState), (inA ch).runs .A ∧ (ch.engine n).task.isSome = true ∧ Tab.get (ch.engine n).lc 0 lc.val ≠ 0) ∧
    (∃ (n : Fin 8) (ch : ChanState), (inA ch).runs .A ∧ (ch.engine n).task.isSome = true) ∧
    (∃ (n : Fin 8) (ch : ChanState), (inA ch).runs .A ∧ (ch.engine n).task.isSome = true) ∧
    (∃ (n : Fin 8) (ch : ChanState), (inA ch).runs .A ∧ (ch.engine n).task.isSome = true) ∧
    (∃ (n : Fin 8) (z : Fin 8) (ch : ChanState), (inA ch).runs .A ∧ (ch.engine n).task.isSome = true ∧ z.val % 2 = 1) ∧
    (∃ (n : Fin 8) (z : Fin 8) (ch : ChanState), (inA ch).runs .A ∧ (ch.engine n).task.isSome = true ∧ z.val % 2 = 1) ∧
    (∃ (n : Fin 8) (z : Fin 8) (ch : ChanState), (inA ch).runs .A ∧ (ch.engine n).task.isSome = true ∧ z.val % 2 = 1) :=
  ⟨⟨0, 1552853156, { id := .A, rst := { held := false }, engines := [(0, { task := some { kind := 2, joint := 47, rel := 0, dl := 0, clim := 5000, entry := 0, evt := none } })] }, by decide⟩,
   ⟨0, { id := .A, rst := { held := false }, engines := [(0, { task := some { kind := 3, joint := 0, rel := 0, dl := 0, clim := 5000, entry := 0, evt := some 1 } })], regs := [(24588, 8192)] }, by decide⟩,
   ⟨0, { id := .A, rst := { held := false }, engines := [(0, { task := some { kind := 1, joint := 0, rel := 0, dl := 0, clim := 5000, entry := 0, evt := some 1 } })] }, by decide⟩,
   ⟨0, 9, { id := .A, rst := { held := false }, engines := [(0, { task := some { kind := 3, joint := 10, rel := 0, dl := 0, clim := 5000, entry := 0, evt := none } })] }, by decide⟩,
   ⟨0, 9, { id := .A, rst := { held := false }, engines := [(0, { task := some { kind := 3, joint := 10, rel := 0, dl := 0, clim := 5000, entry := 0, evt := none } })] }, by decide⟩,
   ⟨0, 9, { id := .A, rst := { held := false }, engines := [(0, { task := some { kind := 3, joint := 10, rel := 0, dl := 0, clim := 5000, entry := 0, evt := none } })] }, by decide⟩,
   ⟨0, 9, { id := .A, rst := { held := false }, engines := [(0, { task := some { kind := 3, joint := 10, rel := 0, dl := 0, clim := 5000, entry := 0, evt := none } })] }, by decide⟩,
   ⟨0, { id := .A, rst := { held := false }, engines := [(0, { reps := [{ lc := 0, first := 0, last := 0 }], task := some { kind := 1, joint := 0, rel := 0, dl := 0, clim := 5000, entry := 0, evt := some 1 } })] }, by decide⟩,
   ⟨0, { id := .A, rst := { held := false }, engines := [(0, { reps := [{ lc := 0, first := 0, last := 0 }], task := some { kind := 1, joint := 0, rel := 0, dl := 0, clim := 5000, entry := 0, evt := some 1 } })] }, by decide⟩,
   ⟨0, 0, { id := .A, rst := { held := false }, engines := [(0, { stack := [1, 2, 3, 4], task := some { kind := 1, joint := 0, rel := 0, dl := 0, clim := 5000, entry := 0, evt := some 1 } })] }, by decide⟩,
   ⟨0, 0, { id := .A, rst := { held := false }, engines := [(0, { task := some { kind := 1, joint := 0, rel := 0, dl := 0, clim := 5000, entry := 0, evt := some 1 } })] }, by decide⟩,
   ⟨0, { id := .A, rst := { held := false }, engines := [(0, { task := some { kind := 1, joint := 0, rel := 0, dl := 0, clim := 5000, entry := 0, evt := some 1 } })] }, by decide⟩,
   ⟨0, { id := .A, rst := { held := false }, engines := [(0, { task := some { kind := 1, joint := 0, rel := 0, dl := 0, clim := 5000, entry := 0, evt := some 1 } })] }, by decide⟩,
   ⟨0, 0, { id := .A, rst := { held := false }, engines := [(0, { lc := [(0, 65535), (3, 22439), (4, 22439), (6, 22439)], task := some { kind := 3, joint := 3, rel := 0, dl := 0, clim := 5000, entry := 0, evt := none } })] }, by decide⟩,
   ⟨0, 0, { id := .A, rst := { held := false }, engines := [(0, { lc := [(0, 65535), (3, 22439), (4, 22439), (6, 22439)], task := some { kind := 3, joint := 3, rel := 0, dl := 0, clim := 5000, entry := 0, evt := none } })] }, by decide⟩,
   ⟨0, { id := .A, rst := { held := false }, engines := [(0, { task := some { kind := 1, joint := 0, rel := 0, dl := 0, clim := 5000, entry := 0, evt := some 1 } })] }, by decide⟩,
   ⟨0, { id := .A, rst := { held := false }, engines := [(0, { task := some { kind := 1, joint := 0, rel := 0, dl := 0, clim := 5000, entry := 0, evt := some 1 } })] }, by decide⟩,
   ⟨0, { id := .A, rst := { held := false }, engines := [(0, { task := some { kind := 1, joint := 0, rel := 0, dl := 0, clim := 5000, entry := 0, evt := some 1 } })] }, by decide⟩,
   ⟨0, 1, { id := .A, rst := { held := false }, engines := [(0, { task := some { kind := 2, joint := 47, rel := 0, dl := 0, clim := 5000, entry := 0, evt := none } })] }, by decide⟩,
   ⟨0, 1, { id := .A, rst := { held := false }, engines := [(0, { task := some { kind := 2, joint := 47, rel := 0, dl := 0, clim := 5000, entry := 0, evt := none } })] }, by decide⟩,
   ⟨0, 1, { id := .A, rst := { held := false }, engines := [(0, { task := some { kind := 2, joint := 47, rel := 0, dl := 0, clim := 5000, entry := 0, evt := none } })] }, by decide⟩⟩

set_option maxRecDepth 100000 in
theorem witness_TableReleases :
    (∃ (e : RelEnt) (ch : ChanState), (inA ch).runs .A ∧ (e.ofs < 4000) ∧ (e.b < 16) ∧ (e.ofs < e.dl) ∧ ((e.kind = 1 ∨ e.kind = 4)) ∧ ch.sch.table = [e] ∧ ch.sch.ptr = 0 ∧ ch.bit Reg.SCH_STS_STALL = false ∧ ch.releasing = true ∧ ch.paced ∧ (ch.queue (kindQueue e.kind)).length < 128 ∧ ch.now < dueCycle ch.sch.cyc e.b * 16000 + 4 * e.ofs ∧ dueCycle ch.sch.cyc e.b < 2 ^ 40) ∧
    (∃ (e : RelEnt) (ch : ChanState), (inA ch).runs .A ∧ (e.ofs < 4000) ∧ (e.b < 16) ∧ (e.ofs < e.dl) ∧ ((e.kind = 1 ∨ e.kind = 4)) ∧ ch.sch.table = [e] ∧ ch.sch.ptr = 0 ∧ ch.bit Reg.SCH_STS_STALL = false ∧ ch.releasing = true ∧ ch.paced ∧ 128 ≤ (ch.queue (kindQueue e.kind)).length ∧ dueCycle ch.sch.cyc e.b < 2 ^ 40) ∧
    (∃ (e : RelEnt) (ch : ChanState), (inA ch).runs .A ∧ (e.ofs < 4000) ∧ (e.b < 16) ∧ (e.ofs < e.dl) ∧ ((e.kind = 1 ∨ e.kind = 4)) ∧ ch.sch.table = [e] ∧ ch.sch.ptr = 0 ∧ ch.bit Reg.SCH_STS_STALL = true ∧ ch.releasing = true ∧ ch.paced ∧ (ch.queue (kindQueue e.kind)).length < 128 ∧ dueCycle ch.sch.cyc e.b * 16000 + 4 * e.ofs + 5 ≤ ch.now ∧ ch.now < dueCycle ch.sch.cyc e.b * 16000 + 4 * e.dl ∧ ch.now < ((dueCycle ch.sch.cyc e.b / 16 + 1) * 16 + e.b) * 16000 + 4 * e.ofs) ∧
    (∃ (e : RelEnt) (ch : ChanState), (inA ch).runs .A ∧ (e.ofs < 4000) ∧ (e.b < 16) ∧ (e.ofs < e.dl) ∧ ((e.kind = 1 ∨ e.kind = 4)) ∧ ch.sch.table = [e] ∧ ch.sch.ptr = 0 ∧ 128 ≤ (ch.queue (kindQueue e.kind)).length) :=
  ⟨⟨{ ofs := 0, b := 0, kind := 1, dl := 1, joint := 0, clim := 0 }, { id := .A, rst := { held := false }, sch := { table := [{ ofs := 0, b := 0, kind := 1, dl := 1, joint := 0, clim := 0 }], cyc := 1 }, regs := [(4, 5)] }, by decide⟩,
   ⟨{ ofs := 0, b := 0, kind := 1, dl := 1, joint := 0, clim := 0 }, { id := .A, rst := { held := false }, sch := { table := [{ ofs := 0, b := 0, kind := 1, dl := 1, joint := 0, clim := 0 }], queues := [(0, (List.replicate 128 { kind := 1, joint := 3, rel := 0, dl := 9, clim := 3, entry := 0, evt := none }))] }, regs := [(4, 5)] }, by decide⟩,
   ⟨{ ofs := 3436, b := 14, kind := 1, dl := 6147, joint := 36, clim := 150 }, { id := .A, rst := { held := false }, ct := 15631908864, sch := { table := [{ ofs := 3436, b := 14, kind := 1, dl := 6147, joint := 36, clim := 150 }] }, regs := [(4, 5), (20484, 1)] }, by decide⟩,
   ⟨{ ofs := 0, b := 0, kind := 1, dl := 1, joint := 0, clim := 0 }, { id := .A, rst := { held := false }, sch := { table := [{ ofs := 0, b := 0, kind := 1, dl := 1, joint := 0, clim := 0 }], queues := [(0, (List.replicate 128 { kind := 1, joint := 3, rel := 0, dl := 9, clim := 3, entry := 0, evt := none }))] } }, by decide⟩⟩

set_option maxRecDepth 100000 in
theorem witness_TaskDispatched :
    (∃ (n : Fin 8) (t : Task) (u : Task) (rest : List Task) (ch : ChanState), (inA ch).runs .A ∧ (t.kind = 1) ∧ (t.evt = none) ∧ (t.joint < 64) ∧ (u.joint ≠ t.joint) ∧ ch.get (Reg.LPE_STS_STATE n) = 1 ∧ (ch.engine n).task = none ∧ ch.blockQuiet (8 + n.val) = false ∧ (∀ m, m < n.val → ch.get (Reg.LPE_STS_STATE m) ≠ 1) ∧ ch.get (Reg.LPE_CFG_CMASK n) % 2 = 1 ∧ ch.queue 0 = t :: rest ∧ (∀ m, m < 8 → (ch.engine m).task.all (fun r => r.joint != t.joint) = true) ∧ tbit ch.red.seedC t.joint = false) ∧
    (∃ (n : Fin 8) (t : Task) (u : Task) (rest : List Task) (ch : ChanState), (inA ch).runs .A ∧ (t.kind = 1) ∧ (t.evt = none) ∧ (t.joint < 64) ∧ (u.joint ≠ t.joint) ∧ ch.get (Reg.LPE_STS_STATE n) = 1 ∧ (ch.engine n).task = none ∧ ch.blockQuiet (8 + n.val) = false ∧ (∀ m, m < n.val → ch.get (Reg.LPE_STS_STATE m) ≠ 1) ∧ ch.get (Reg.LPE_CFG_CMASK n) % 2 = 1 ∧ ch.queue 0 = u :: t :: rest ∧ (∀ m, m < 8 → (ch.engine m).task.all (fun r => r.joint != t.joint) = true) ∧ (∃ m, m < 8 ∧ (ch.engine m).task.any (fun r => r.joint == u.joint) = true) ∧ tbit ch.red.seedC t.joint = false) ∧
    (∃ (n : Fin 8) (ch : ChanState), (inA ch).runs .A ∧ ch.get (Reg.LPE_STS_STATE n) ≠ 1 ∨ (ch.engine n).task ≠ none ∨ ((ch.get (Reg.LPE_CFG_CMASK n) % 2 = 0 ∨ ch.queue 0 = []) ∧ (ch.get (Reg.LPE_CFG_CMASK n) / 2 % 2 = 0 ∨ ch.queue 1 = []) ∧ (ch.get (Reg.LPE_CFG_CMASK n) / 16 % 2 = 0 ∨ ch.queue 4 = []))) :=
  ⟨⟨0, { kind := 1, joint := 0, rel := 0, dl := 0, clim := 0, entry := 0, evt := none }, ⟨1, 1, 0, 0, 0, 0, none⟩, [], { id := .A, rst := { held := false }, sch := { queues := [(0, [{ kind := 1, joint := 0, rel := 0, dl := 0, clim := 0, entry := 0, evt := none }])] } }, by decide⟩,
   ⟨0, { kind := 1, joint := 0, rel := 0, dl := 0, clim := 0, entry := 0, evt := none }, { kind := 0, joint := 9670, rel := 3, dl := 14, clim := 4, entry := 52, evt := none }, [], { id := .A, rst := { held := false }, sch := { queues := [(0, [{ kind := 0, joint := 9670, rel := 3, dl := 14, clim := 4, entry := 52, evt := none }, { kind := 1, joint := 0, rel := 0, dl := 0, clim := 0, entry := 0, evt := none }])] }, engines := [(1, { task := some { kind := 0, joint := 9670, rel := 3, dl := 14, clim := 4, entry := 52, evt := none } })] }, by decide⟩,
   ⟨0, { id := .A, rst := { held := false } }, by decide⟩⟩

theorem witness_TasksEnd :
    (∃ (t : Task) (ch : ChanState), (inA ch).runs .A ∧ (t.joint < 64) ∧ t.kind = 1 ∧ t.evt = none ∧ ch.liveTasks = [t] ∧ ch.queue 0 = [t] ∧ ch.paced ∧ t.dl < 2 ^ 60 ∧ ch.get (Reg.JNT_STS_CCONS t.joint) = 0) ∧
    (∃ (t : Task) (ch : ChanState), (inA ch).runs .A ∧ (t.joint < 64) ∧ t.kind = 1 ∧ t.evt = none ∧ ch.liveTasks = [t] ∧ ch.queue 0 = [t] ∧ ch.paced ∧ t.dl < 2 ^ 60 ∧ 1 ≤ ch.get (Reg.JNT_STS_CCONS t.joint)) ∧
    (∃ (n : Fin 8) (t : Task) (ch : ChanState), (inA ch).runs .A ∧ (t.joint < 64) ∧ (ch.engine n).task = some t) ∧
    (∃ (n : Fin 8) (t : Task) (ch : ChanState), (inA ch).runs .A ∧ (t.joint < 64) ∧ (ch.engine n).task = some t ∧ ch.userTask t = true ∧ ch.past t.dl = false ∧ (ch.engine n).cyc + 1 ≤ 8 * t.clim) ∧
    (∃ (n : Fin 8) (t : Task) (ch : ChanState), (inA ch).runs .A ∧ (t.joint < 64) ∧ (ch.engine n).task = some t ∧ (ch.past t.dl = true ∨ ch.userTask t = true ∧ 8 * t.clim < (ch.engine n).cyc + 1)) ∧
    (∃ (n : Fin 8) (ch : ChanState), (inA ch).runs .A ∧ (ch.engine n).task = none) :=
  ⟨⟨{ kind := 1, joint := 0, rel := 0, dl := 0, clim := 0, entry := 0, evt := none }, { id := .A, rst := { held := false }, sch := { queues := [(0, [{ kind := 1, joint := 0, rel := 0, dl := 0, clim := 0, entry := 0, evt := none }])] } }, by decide⟩,
   ⟨{ kind := 1, joint := 0, rel := 0, dl := 0, clim := 0, entry := 0, evt := none }, { id := .A, rst := { held := false }, sch := { queues := [(0, [{ kind := 1, joint := 0, rel := 0, dl := 0, clim := 0, entry := 0, evt := none }])] }, regs := [(32896, 257)] }, by decide⟩,
   ⟨0, { kind := 1, joint := 0, rel := 0, dl := 0, clim := 0, entry := 0, evt := none }, { id := .A, rst := { held := false }, engines := [(0, { task := some { kind := 1, joint := 0, rel := 0, dl := 0, clim := 0, entry := 0, evt := none } })] }, by decide⟩,
   ⟨0, { kind := 4, joint := 41, rel := 171632961143, dl := 457227072249, clim := 56, entry := 442, evt := none }, { id := .A, rst := { held := false }, engines := [(0, { task := some { kind := 4, joint := 41, rel := 171632961143, dl := 457227072249, clim := 56, entry := 442, evt := none } })] }, by decide⟩,
   ⟨0, { kind := 1, joint := 0, rel := 0, dl := 0, clim := 0, entry := 0, evt := none }, { id := .A, rst := { held := false }, ct := 262148, engines := [(0, { task := some { kind := 1, joint := 0, rel := 0, dl := 0, clim := 0, entry := 0, evt := none } })] }, by decide⟩,
   ⟨0, { id := .A, rst := { held := false } }, by decide⟩⟩

theorem witness_EngineRegisters :
    (∃ (n : Fin 8) (ch : ChanState), (inA ch).runs .A ∧ ch.get (Reg.LPE_STS_STATE n) = 3) ∧
    (∃ (n : Fin 8) (ch : ChanState), (inA ch).runs .A ∧ ch.get (Reg.LPE_STS_STATE n) ≠ 3) ∧
    (∃ (v : Word) (ch : ChanState), (inA ch).runs .A ∧ (ch.get Reg.CHN_STATE_CODE = 2 ∨ ch.get Reg.CHN_STATE_CODE = 8) ∧ v.getLsbD 6 = false ∧ v.getLsbD 7 = false) ∧
    (∃ (v : Word) (ch : ChanState), (inA ch).runs .A ∧ (ch.get Reg.CHN_STATE_CODE = 2 ∨ ch.get Reg.CHN_STATE_CODE = 8) ∧ (v.getLsbD 6 = true ∨ v.getLsbD 7 = true)) ∧
    (∃ (ch : ChanState), (inA ch).runs .A ∧ ch.get Reg.CHN_STATE_CODE ≠ 2 ∧ ch.get Reg.CHN_STATE_CODE ≠ 8) :=
  ⟨⟨0, { id := .A, rst := { held := false }, regs := [(24584, 3)] }, by decide⟩,
   ⟨0, { id := .A, rst := { held := false } }, by decide⟩,
   ⟨0, { id := .A, rst := { held := false }, regs := [(4, 2)] }, by decide⟩,
   ⟨1552853156, { id := .A, rst := { held := false }, regs := [(4, 8)] }, by decide⟩,
   ⟨{ id := .A, rst := { held := false } }, by decide⟩⟩

theorem witness_PwmReloadsAndEdges :
    (∃ (u : Fin 16) (i : Fin 3) (ch : ChanState), (inA ch).runs .A ∧ ch.bit (Reg.PWM_CFG_MODE u) = false ∧ (ch.pwmU u).comCt = none ∧ (ch.pwmU u).lastB.all (fun b => decide (b ≤ ch.now)) = true ∧ ch.paced ∧ ∀ i, i < 3 → (ch.phase u i).hi = false) ∧
    (∃ (u : Fin 16) (ch : ChanState), (inA ch).runs .A ∧ ch.bit (Reg.PWM_CFG_MODE u) = true ∧ ch.bit (Reg.PWM_STS_PEND u) = false) ∧
    (∃ (u : Fin 16) (ch : ChanState), (inA ch).runs .A ∧ ch.bit (Reg.PWM_CFG_MODE u) = true ∧ ch.bit (Reg.PWM_STS_PEND u) = true ∧ (ch.pwmU u).ldCt = none ∧ 8000 * 2 ^ ch.get (Reg.PWM_PERSH_PER u) = ch.pwmHalf u) ∧
    (∃ (u : Fin 16) (ch : ChanState), (inA ch).runs .A ∧ ch.bit (Reg.PWM_CFG_EXP u) = false ∧ (ch.pwmU u).resume.isSome = true) ∧
    (∃ (u : Fin 16) (i : Fin 3) (ch : ChanState), (inA ch).runs .A ∧ (ch.phase u i).hi = true ∧ (ch.pwmU u).resume.isSome = true) :=
  ⟨⟨0, 0, { id := .A, rst := { held := false } }, by decide⟩,
   ⟨0, { id := .A, rst := { held := false }, regs := [(65536, 1)] }, by decide⟩,
   ⟨0, { id := .A, rst := { held := false }, regs := [(65536, 1), (65592, 128)] }, by decide⟩,
   ⟨0, { id := .A, rst := { held := false }, pwm := [(0, { resume := some 0 })] }, by decide⟩,
   ⟨0, 0, { id := .A, rst := { held := false }, pwm := [(0, { resume := some 0, ph := [(0, { hi := true })] })] }, by decide⟩⟩

theorem witness_PwmTrips :
    (∃ (u : Fin 16) (j : Fin 64) (ch : ChanState), (inA ch).runs .A ∧ ch.bit (Reg.PWM_TRIPSTS_TRIPIN u) = false ∧ ch.bit (Reg.PWM_CFG_TRPEN u) = true ∧ ch.bit (Reg.PWM_CFG_MODE u) = false ∧ ch.unitJoint 1 u = some j.val) ∧
    (∃ (u : Fin 16) (ch : ChanState), (inA ch).runs .A ∧ ch.bit (Reg.PWM_TRIPSTS_TRIPIN u) = false ∧ ch.bit (Reg.PWM_CFG_TRPEN u) = true ∧ (ch.bit (Reg.PWM_CFG_MODE u) = true ∨ ch.unitJoint 1 u = none)) ∧
    (∃ (u : Fin 16) (ch : ChanState), (inA ch).runs .A ∧ ch.bit (Reg.PWM_CFG_TRPEN u) = false) ∧
    (∃ (u : Fin 16) (ch : ChanState), (inA ch).runs .A ∧ ch.bit (Reg.PWM_TRIPSTS_TRIPIN u) = true) ∧
    (∃ (u : Fin 16) (ch : ChanState), (inA ch).runs .A ∧ ch.bit (Reg.PWM_TRIPSTS_TRIPIN u) = false) ∧
    (∃ (u : Fin 16) (j : Fin 64) (v : Word) (ch : ChanState), (inA ch).runs .A ∧ v.getLsbD 0 = false ∧ (ch.bit (Reg.PWM_CFG_MODE u) = true ∨ (ch.unitJoint 1 u).all (fun j => ch.bit (Reg.JNT_STS_TOFF j)) = true) ∧ ch.bit (Reg.PWM_STS_ON u) = true) ∧
    (∃ (u : Fin 16) (v : Word) (ch : ChanState), (inA ch).runs .A ∧ v.getLsbD 0 = true ∧ ch.bit (Reg.PWM_CFG_MODE u) = true ∧ ch.bit (Reg.PWM_TRIPSTS_TRIP u) = false ∧ ch.bit (Reg.SAF_STOSTS_ENG (u / 4)) = true) ∧
    (∃ (u : Fin 16) (j : Fin 64) (v : Word) (ch : ChanState), (inA ch).runs .A ∧ v.getLsbD 0 = false ∧ ch.bit (Reg.PWM_CFG_MODE u) = false ∧ ch.unitJoint 1 u = some j.val ∧ ch.bit (Reg.JNT_STS_TOFF j) = false) :=
  ⟨⟨0, 0, { id := .A, rst := { held := false }, regs := [(32768, 1), (65536, 64)] }, by decide⟩,
   ⟨0, { id := .A, rst := { held := false }, regs := [(65536, 64)] }, by decide⟩,
   ⟨0, { id := .A, rst := { held := false } }, by decide⟩,
   ⟨5, { id := .A, rst := { held := false }, regs := [(66864, 4294967295)] }, by decide⟩,
   ⟨0, { id := .A, rst := { held := false } }, by decide⟩,
   ⟨0, 0, 0, { id := .A, rst := { held := false }, regs := [(65592, 1024)] }, by decide⟩,
   ⟨0, 1470562605, { id := .A, rst := { held := false }, regs := [(65536, 1), (91144, 1)] }, by decide⟩,
   ⟨0, 0, 0, { id := .A, rst := { held := false }, regs := [(32768, 1), (32896, 0)] }, by decide⟩⟩

theorem witness_SigmaDeltaSamples :
    (∃ (u : Fin 16) (ch : ChanState), (inA ch).runs .A ∧ ch.bit (Reg.PWM_CFG_SDEN u) = true) ∧
    (∃ (u : Fin 16) (ch : ChanState), (inA ch).runs .A ∧ ch.bit (Reg.PWM_CFG_SDEN u) = false) :=
  ⟨⟨0, { id := .A, rst := { held := false }, regs := [(65536, 256)] }, by decide⟩,
   ⟨0, { id := .A, rst := { held := false } }, by decide⟩⟩

theorem witness_SteppersAndBricks :
    (∃ (n : Fin 8) (ch : ChanState), (inA ch).runs .A ∧ ch.stpOk n = true ∧ ch.geti64 (Reg.STP_CMD n) ≠ ch.geti64 (Reg.STP_EMIT n) ∧ (if (ch.stpU n).cyc = ch.cycle then (ch.stpU n).n else 0) < ch.get (Reg.STP_MAXR_MAXR n)) ∧
    (∃ (n : Fin 8) (ch : ChanState), (inA ch).runs .A ∧ ch.geti64 (Reg.STP_CMD n) = ch.geti64 (Reg.STP_EMIT n)) ∧
    (∃ (n : Fin 8) (k : Coil) (t : Nat) (ch : ChanState), (inA ch).runs .A ∧ (t < 2 ^ 60) ∧ (ch.stpU n).coil k = .drive t ∧ t + 128 * (ch.get (Reg.STP_CFG_BLANK n) + 1) ≤ ch.now) ∧
    (∃ (n : Fin 8) (k : Coil) (t : Nat) (ch : ChanState), (inA ch).runs .A ∧ (t < 2 ^ 60) ∧ (ch.stpU n).coil k = .drive t ∧ ch.now < t + 128 * (ch.get (Reg.STP_CFG_BLANK n) + 1)) ∧
    (∃ (n : Fin 8) (k : Coil) (t : Nat) (ch : ChanState), (inA ch).runs .A ∧ (t < 2 ^ 60) ∧ (ch.stpU n).coil k = .rest t ∧ ch.paced) ∧
    (∃ (n : Fin 8) (j : Fin 64) (k : Coil) (t : Nat) (ch : ChanState), (inA ch).runs .A ∧ (t < 2 ^ 60) ∧ (ch.stpU n).coil k = .drive t ∧ ch.unitJoint 2 n = some j.val ∧ ch.paced) ∧
    (∃ (n : Fin 8) (k : Coil) (t : Nat) (ch : ChanState), (inA ch).runs .A ∧ (t < 2 ^ 60) ∧ (ch.stpU n).coil k = .rest t ∧ ch.get (Reg.STP_CFG_DECAY n) = 2 ∧ ch.paced) ∧
    (∃ (n : Fin 8) (ch : ChanState), (inA ch).runs .A ∧ (ch.stpU n).last < 2 ^ 60 ∧ ch.paced) :=
  ⟨⟨0, { id := .A, rst := { held := false }, regs := [(36352, 2), (36480, 0), (69632, 34381076), (69652, 297324982), (91144, 1)] }, by decide⟩,
   ⟨0, { id := .A, rst := { held := false } }, by decide⟩,
   ⟨0, .A, 0, { id := .A, rst := { held := false }, ct := 54199099, stp := [(0, { a := Sys2Proof.Machine.CoilSt.drive 0 })] }, by decide⟩,
   ⟨0, .A, 0, { id := .A, rst := { held := false }, stp := [(0, { a := Sys2Proof.Machine.CoilSt.drive 0 })] }, by decide⟩,
   ⟨0, .A, 0, { id := .A, rst := { held := false }, stp := [(0, { a := Sys2Proof.Machine.CoilSt.rest 0 })] }, by decide⟩,
   ⟨0, 0, .A, 0, { id := .A, rst := { held := false }, stp := [(0, { a := Sys2Proof.Machine.CoilSt.drive 0 })], regs := [(32768, 2)] }, by decide⟩,
   ⟨0, .A, 0, { id := .A, rst := { held := false }, stp := [(0, { a := Sys2Proof.Machine.CoilSt.rest 0 })] }, by decide⟩,
   ⟨0, { id := .A, rst := { held := false } }, by decide⟩⟩

theorem witness_EncoderCounts :
    (∃ (p : Fin 24) (a : Bool) (b : Bool) (ch : ChanState), (inA ch).runs .A ∧ ch.encLive = true ∧ ch.get (Reg.ENC_CFG_MODE p) = 1 ∧ ((ch.encU p).a = a ↔ (ch.encU p).b ≠ b)) ∧
    (∃ (p : Fin 24) (a : Bool) (b : Bool) (ch : ChanState), (inA ch).runs .A ∧ ch.encLive = true ∧ ch.get (Reg.ENC_CFG_MODE p) = 1 ∧ (ch.encU p).a ≠ a ∧ (ch.encU p).b ≠ b) ∧
    (∃ (p : Fin 24) (ch : ChanState), (inA ch).runs .A ∧ ch.encLive = false ∨ ch.get (Reg.ENC_CFG_MODE p) ≠ 1) ∧
    (∃ (p : Fin 24) (ch : ChanState), (inA ch).runs .A ∧ ch.encLive = true ∧ ch.get (Reg.ENC_CFG_MODE p) = 1 ∧ ch.get (Reg.ENC_CPR p) ≠ 0 ∧ (ch.encU p).needRef = true ∧ (ch.bit (Reg.ENC_CFG_REFM p) = false ∨ ch.bit (Reg.ENC_STS_REF p) = true)) ∧
    (∃ (p : Fin 24) (ch : ChanState), (inA ch).runs .A ∧ ch.encLive = true ∧ ch.get (Reg.ENC_CFG_MODE p) = 1 ∧ ch.bit (Reg.ENC_CFG_REFM p) = true ∧ ch.bit (Reg.ENC_STS_REF p) = false) ∧
    (∃ (p : Fin 24) (ch : ChanState), (inA ch).runs .A ∧ ch.encLive = true ∧ ch.get (Reg.ENC_CFG_MODE p) = 1 ∧ ch.get (Reg.ENC_CPR p) ≠ 0 ∧ ch.get (Reg.ENC_CPR p) < 2 ^ 31 ∧ (ch.encU p).needRef = false ∧ (ch.bit (Reg.ENC_CFG_REFM p) = false ∨ ch.bit (Reg.ENC_STS_REF p) = true) ∧ ch.bit (Reg.ENC_CFG_RPH p) = false ∧ ch.get (Reg.ENC_CPR p) ≤ 2 * ch.get (Reg.ENC_IDXTOL_TOL p)) ∧
    (∃ (p : Fin 24) (ch : ChanState), (inA ch).runs .A ∧ (ch.encU p).idxAt ≠ some ch.ct) :=
  ⟨⟨0, false, true, { id := .A, rst := { held := false }, loaded := true, regs := [(73728, 17)] }, by decide⟩,
   ⟨0, false, false, { id := .A, rst := { held := false }, loaded := true, regs := [(73728, 17)] }, by decide⟩,
   ⟨0, { id := .A, rst := { held := false } }, by decide⟩,
   ⟨0, { id := .A, rst := { held := false }, loaded := true, regs := [(73728, 17), (73752, 1)] }, by decide⟩,
   ⟨0, { id := .A, rst := { held := false }, loaded := true, regs := [(73728, 1041)] }, by decide⟩,
   ⟨0, { id := .A, rst := { held := false }, loaded := true, enc := [(0, { needRef := false })], regs := [(73728, 17), (73752, 1)] }, by decide⟩,
   ⟨0, { id := .A, rst := { held := false } }, by decide⟩⟩

theorem witness_SerialSamples :
    (∃ (p : Fin 24) (ch : ChanState), (inA ch).runs .A ∧ ch.encLive = true ∧ ch.get (Reg.ENC_CFG_MODE p) = 2 ∧ ch.paced) ∧
    (∃ (p : Fin 24) (w : BitVec 64) (f : SerialFrame) (ch : ChanState), (inA ch).runs .A ∧ (f.tl < 2 ^ 60) ∧ (ch.encU p).frm = some f ∧ f.lineHigh = true ∧ f.crcOk w.toNat = true ∧ f.errBit w.toNat = false ∧ (ch.encU p).acq = true ∧ ch.get (Reg.ENC_SJMP p) = 0 ∧ 0 < f.posl) ∧
    (∃ (p : Fin 24) (w : BitVec 64) (f : SerialFrame) (ch : ChanState), (inA ch).runs .A ∧ (f.tl < 2 ^ 60) ∧ (ch.encU p).frm = some f ∧ f.lineHigh = true ∧ f.crcOk w.toNat = false ∧ (ch.encU p).acq = true ∧ ch.get (Reg.ENC_STS_SCONS p) = 0) ∧
    (∃ (p : Fin 24) (f : SerialFrame) (ch : ChanState), (inA ch).runs .A ∧ (f.tl < 2 ^ 60) ∧ (ch.encU p).frm = some f ∧ f.lineHigh = false ∧ (ch.encU p).acq = true ∧ ch.get (Reg.ENC_STS_SCONS p) = 1) ∧
    (∃ (p : Fin 24) (f : SerialFrame) (ch : ChanState), (inA ch).runs .A ∧ (f.tl < 2 ^ 60) ∧ (ch.encU p).frm = some f ∧ tbit f.scfg 29 = true ∧ ch.paced) ∧
    (∃ (p : Fin 24) (u : EncUndo) (ch : ChanState), (inA ch).runs .A ∧ (ch.encU p).frm = none ∧ (ch.encU p).undo = some u ∧ u.acq = true ∧ u.scons = 0) :=
  ⟨⟨0, { id := .A, rst := { held := false }, loaded := true, regs := [(73728, 18)] }, by decide⟩,
   ⟨0, 0, { tl := 490414328616, lineHigh := true, scfg := 1025919, slay := 4325898, scrc := 2062226775, stmo := 2158364 }, { id := .A, rst := { held := false }, enc := [(0, { acq := true, frm := some { tl := 490414328616, lineHigh := true, scfg := 1025919, slay := 4325898, scrc := 2062226775, stmo := 2158364 } })] }, by decide⟩,
   ⟨0, 0, { tl := 610338850172, lineHigh := true, scfg := 827353, slay := 4391937, scrc := 339545875, stmo := 2518763 }, { id := .A, rst := { held := false }, enc := [(0, { acq := true, frm := some { tl := 610338850172, lineHigh := true, scfg := 827353, slay := 4391937, scrc := 339545875, stmo := 2518763 } })] }, by decide⟩,
   ⟨0, { tl := 0, lineHigh := false, scfg := 0, slay := 0, scrc := 0, stmo := 0 }, { id := .A, rst := { held := false }, enc := [(0, { acq := true, frm := some { tl := 0, lineHigh := false, scfg := 0, slay := 0, scrc := 0, stmo := 0 } })], regs := [(73776, 4096)] }, by decide⟩,
   ⟨0, { tl := 110449830177, lineHigh := true, scfg := 537745819, slay := 853250, scrc := 316075968, stmo := 454134 }, { id := .A, rst := { held := false }, enc := [(0, { frm := some { tl := 110449830177, lineHigh := true, scfg := 537745819, slay := 853250, scrc := 316075968, stmo := 454134 } })] }, by decide⟩,
   ⟨0, { acq := true, uPrev := 2279, dAcc := -3, dPres := 36, scons := 0, d := 2, mod := 22 }, { id := .A, rst := { held := false }, enc := [(0, { undo := some { acq := true, uPrev := 2279, dAcc := -3, dPres := 36, scons := 0, d := 2, mod := 22 } })] }, by decide⟩⟩

theorem witness_DpoAndSafetyPositions :
    (∃ (m : Fin 4) (ch : ChanState), (inA ch).runs .A ∧ ch.bit (Reg.DPO_CFG_EN m) = true ∧ ch.geti64 (Reg.DPO_OUT m) ≠ ch.geti64 (Reg.DPO_EMIT m)) ∧
    (∃ (m : Fin 4) (ch : ChanState), (inA ch).runs .A ∧ ch.bit (Reg.DPO_CFG_EN m) = false ∨ ch.geti64 (Reg.DPO_OUT m) = ch.geti64 (Reg.DPO_EMIT m)) ∧
    (∃ (ch : ChanState), (inA ch).runs .A ∧ ch.get Reg.CHN_STATE_CODE = 2 ∨ ch.get Reg.CHN_STATE_CODE = 8) ∧
    (∃ (ch : ChanState), (inA ch).runs .A ∧ ch.get Reg.CHN_STATE_CODE = 2 ∨ ch.get Reg.CHN_STATE_CODE = 8) ∧
    (∃ (ch : ChanState), (inA ch).runs .A ∧ ch.get Reg.CHN_STATE_CODE ≠ 2 ∧ ch.get Reg.CHN_STATE_CODE ≠ 8) ∧
    (∃ (j : Fin 64) (p : Fin 24) (ch : ChanState), (inA ch).runs .A ∧ ch.logicOn = true ∧ ch.get Reg.CHN_STATE_CODE ≠ 1 ∧ ch.paced ∧ ch.bound j = true ∧ ch.get (Reg.JSP_CFG_SRC j) = 1 ∧ ch.get (Reg.JSP_CFG_IDX j) = p.val ∧ ch.get (Reg.ENC_CFG_MODE p) ≠ 2 ∧ ch.bit (Reg.ENC_STS_VALID p) = true ∧ ch.get (Reg.JSP_CFG_STOL j) < (ch.safetyPos j (ch.encU p).cnt0 - (ch.joint j).act / 65536).natAbs ∧ ch.get (Reg.JSP_CFG_STCNT j) ≤ min ((Tab.get ch.jsp {} j).mis + 1) 8) ∧
    (∃ (ch : ChanState), (inA ch).runs .A ∧ ch.logicOn = true ∧ ∀ i, i < 64 → ch.get (Reg.JSP_CFG_SRC i) = 0) :=
  ⟨⟨0, { id := .A, rst := { held := false }, regs := [(76800, 655361), (76824, 4)] }, by decide⟩,
   ⟨0, { id := .A, rst := { held := false } }, by decide⟩,
   ⟨{ id := .A, rst := { held := false }, regs := [(4, 2)] }, by decide⟩,
   ⟨{ id := .A, rst := { held := false }, regs := [(4, 2)] }, by decide⟩,
   ⟨{ id := .A, rst := { held := false } }, by decide⟩,
   ⟨0, 0, { id := .A, rst := { held := false }, loaded := true, enc := [(0, { cnt0 := -37 })], regs := [(4, 4), (32768, 1), (73776, 1), (77056, 16842753)] }, by decide⟩,
   ⟨{ id := .A, rst := { held := false }, loaded := true }, by decide⟩⟩

theorem witness_SolverSubmission :
    (∃ (v : Word) (ch : ChanState), (inA ch).runs .A ∧ ofInt 32 (ch.get Reg.SLV_HPROD - ch.get Reg.SLV_HCONS) ≤ ofInt 32 (v.toNat - ch.get Reg.SLV_HCONS) ∧ ofInt 32 (v.toNat - ch.get Reg.SLV_HCONS) ≤ ch.get Reg.SLV_HRSIZE_SIZE) ∧
    (∃ (v : Word) (ch : ChanState), (inA ch).runs .A ∧ ofInt 32 (v.toNat - ch.get Reg.SLV_HCONS) < ofInt 32 (ch.get Reg.SLV_HPROD - ch.get Reg.SLV_HCONS) ∨ ch.get Reg.SLV_HRSIZE_SIZE < ofInt 32 (v.toNat - ch.get Reg.SLV_HCONS)) ∧
    (∃ (ch : ChanState), (inA ch).runs .A ∧ ch.blockQuiet 3 = false ∧ ch.bit Reg.SLV_CFG_HEN = true ∧ hostWork (ch.get Reg.CHN_STATE_CODE) = true ∧ ch.slvOpen = false ∧ ch.get Reg.SLV_HCONS ≠ ch.get Reg.SLV_HPROD ∧ 0 < ch.get Reg.SLV_HRSIZE_SIZE ∧ ch.descReason (ch.sBytes (64 * ch.get Reg.SLV_HRBASE_BASE + 64 * (ch.get Reg.SLV_HCONS % ch.get Reg.SLV_HRSIZE_SIZE)) 64) = 0) ∧
    (∃ (ch : ChanState), (inA ch).runs .A ∧ ch.bit Reg.SLV_CFG_HEN = false ∨ hostWork (ch.get Reg.CHN_STATE_CODE) = false ∨ ch.get Reg.SLV_HCONS = ch.get Reg.SLV_HPROD) ∧
    (∃ (b : SBatch) (ch : ChanState), (inA ch).runs .A ∧ (b.n ≤ 256) ∧ (b.rel ≤ b.n) ∧ ch.blockQuiet 3 = false ∧ ch.slv.batches.getLast? = some b ∧ b.idx = ch.get Reg.SLV_HCONS ∧ b.rel < b.n ∧ (ch.queue 3).length ≤ 128 ∧ ch.slv.batches.all (fun e => e == b || e.idx != b.idx) = true) ∧
    (∃ (ch : ChanState), (inA ch).runs .A ∧ ofInt 32 (ch.get Reg.SLV_HPROD - ch.get Reg.SLV_HCONS) ≤ 4096 ∧ ch.slvOpen = false ∧ ch.evtQueues) :=
  ⟨⟨0, { id := .A, rst := { held := false } }, by decide⟩,
   ⟨1470562576, { id := .A, rst := { held := false } }, by decide⟩,
   ⟨{ id := .A, rst := { held := false }, smem := [(262592, 4), (262594, 2), (262595, 2), (262600, 1), (262618, 5), (262620, 16), (262634, 6), (262636, 64), (262642, 7)], regs := [(4, 5), (77824, 1), (77852, 7)] }, by decide⟩,
   ⟨{ id := .A, rst := { held := false } }, by decide⟩,
   ⟨{ idx := 6, desc := [], n := 110, rel := 11 }, { id := .A, rst := { held := false }, slv := { batches := [{ idx := 15, desc := [], n := 2, rel := 2 }, { idx := 6, desc := [], n := 110, rel := 11 }] }, regs := [(77852, 6)] }, by decide⟩,
   ⟨{ id := .A, rst := { held := false } }, by decide⟩⟩

theorem witness_SolverRuns :
    (∃ (t : Task) (rest : List Task) (ch : ChanState), (inA ch).runs .A ∧ ch.blockQuiet 3 = false ∧ ch.slv.run = none ∧ ch.queue 2 = t :: rest ∧ ch.evtQueues) ∧
    (∃ (t : Task) (rest : List Task) (b : SBatch) (ch : ChanState), (inA ch).runs .A ∧ ch.blockQuiet 3 = false ∧ ch.slv.run = none ∧ ch.queue 2 = [] ∧ ch.slv.rest = none ∧ ch.queue 3 = t :: rest ∧ ch.slv.batches = [b] ∧ b.idx = t.entry ∧ dDeadline b.desc ≠ 0 ∧ dDeadline b.desc ≤ ch.now ∧ statusArea b.desc = true) ∧
    (∃ (inp : List Nat) (d : List Byte) (idx : Nat) (p : Nat) (since : Nat) (ch : ChanState), (inA ch).runs .A ∧ (since < 2 ^ 60) ∧ ch.slv.run = some (.host idx p d inp since) ∧ dDeadline d ≠ 0 ∧ dDeadline d < 2 ^ 60 ∧ dOp d ≠ 9 ∧ statusArea d = true ∧ ch.paced) ∧
    (∃ (inp : List Nat) (d : List Byte) (idx : Nat) (p : Nat) (since : Nat) (ch : ChanState), (inA ch).runs .A ∧ (since < 2 ^ 60) ∧ ch.slv.run = some (.host idx p d inp since)) ∧
    (∃ (t : Task) (k : Fin 8) (inp : List Nat) (since : Nat) (ch : ChanState), (inA ch).runs .A ∧ (since < 2 ^ 60) ∧ t.joint = k.val ∧ ch.slv.run = some (.model t inp since) ∧ ch.paced ∧ ch.sByte (0x800 * k) ≤ 10 ∧ modelCost (ch.sByte (0x800 * k)) ≤ 8 * t.clim ∧ since + 2 * (modelCost (ch.sByte (0x800 * k)) + 20) ≤ t.dl ∧ ch.now ≤ t.dl) ∧
    (∃ (t : Task) (k : Fin 8) (inp : List Nat) (since : Nat) (ch : ChanState), (inA ch).runs .A ∧ (since < 2 ^ 60) ∧ t.joint = k.val ∧ ch.slv.run = some (.model t inp since) ∧ ch.past t.dl = true ∧ ch.paced) ∧
    (∃ (since : Nat) (ch : ChanState), (inA ch).runs .A ∧ (since < 2 ^ 60) ∧ ch.slv.rest = some since ∧ ch.paced) :=
  ⟨⟨{ kind := 1, joint := 0, rel := 0, dl := 0, clim := 0, entry := 0, evt := none }, [], { id := .A, rst := { held := false }, sch := { queues := [(2, [{ kind := 1, joint := 0, rel := 0, dl := 0, clim := 0, entry := 0, evt := none }])] } }, by decide⟩,
   ⟨{ kind := 0, joint := 0, rel := 291794218702, dl := 0, clim := 0, entry := 3, evt := none }, [], { idx := 3, desc := ([4, 0, 2, 2, 1, 3, 0, 0, 3] ++ List.replicate 7 0 ++ [151, 10] ++ List.replicate 8 0 ++ [5, 0, 16, 0, 0, 0, 0, 16, 5, 0, 64, 0, 0, 0, 0, 0, 6, 0, 64, 0, 0, 0, 0, 0, 7] ++ List.replicate 13 0), n := 3, rel := 3, fin := 1 }, { id := .A, rst := { held := false }, ct := 57816602953141306, sch := { queues := [(1, []), (3, [{ kind := 0, joint := 0, rel := 291794218702, dl := 0, clim := 0, entry := 3, evt := none }]), (4, [])] }, slv := { batches := [{ idx := 3, desc := ([4, 0, 2, 2, 1, 3, 0, 0, 3] ++ List.replicate 7 0 ++ [151, 10] ++ List.replicate 8 0 ++ [5, 0, 16, 0, 0, 0, 0, 16, 5, 0, 64, 0, 0, 0, 0, 0, 6, 0, 64, 0, 0, 0, 0, 0, 7] ++ List.replicate 13 0), n := 3, rel := 3, fin := 1 }] } }, by decide⟩,
   ⟨[], ([6, 0, 2, 2, 1, 3, 0, 0, 3] ++ List.replicate 7 0 ++ [169, 237, 38, 13, 4, 0, 0, 0, 0, 0, 5, 0, 16, 0, 0, 0, 0, 16, 5, 0, 64, 0, 0, 0, 0, 0, 6, 0, 64, 0, 0, 0, 0, 0, 7] ++ List.replicate 13 0), 0, 0, 0, { id := .A, rst := { held := false }, slv := { run := some (Sys2Proof.Machine.SRun.host 0 0 [6, 0, 2, 2, 1, 3, 0, 0, 3, 0, 0, 0, 0, 0, 0, 0, 169, 237, 38, 13, 4, 0, 0, 0, 0, 0, 5, 0, 16, 0, 0, 0, 0, 16, 5, 0, 64, 0, 0, 0, 0, 0, 6, 0, 64, 0, 0, 0, 0, 0, 7, 0, 0, 0, 0, 0, 0, 0, 0, 0, 0, 0, 0, 0] [] 0) } }, by decide⟩,
   ⟨[], [], 0, 0, 0, { id := .A, rst := { held := false }, slv := { run := some (Sys2Proof.Machine.SRun.host 0 0 [] [] 0) } }, by decide⟩,
   ⟨{ kind := 3, joint := 0, rel := 468221026602, dl := 21590215105280, clim := 243, entry := 0, evt := none }, 0, [], 0, { id := .A, rst := { held := false }, slv := { run := some (Sys2Proof.Machine.SRun.model { kind := 3, joint := 0, rel := 468221026602, dl := 21590215105280, clim := 243, entry := 0, evt := none } [] 0) } }, by decide⟩,
   ⟨{ kind := 1, joint := 0, rel := 0, dl := 0, clim := 0, entry := 0, evt := none }, 0, [], 0, { id := .A, rst := { held := false }, ct := 262144, slv := { run := some (Sys2Proof.Machine.SRun.model { kind := 1, joint := 0, rel := 0, dl := 0, clim := 0, entry := 0, evt := none } [] 0) } }, by decide⟩,
   ⟨0, { id := .A, rst := { held := false }, slv := { rest := some 0 } }, by decide⟩⟩

theorem witness_SeparationPipeline :
    (∃ (ch : ChanState), (inA ch).runs .A ∧ ch.sepOn = true ∧ ch.paced) ∧
    (∃ (ch : ChanState), (inA ch).runs .A ∧ ch.sepOn = false) ∧
    (∃ (k : Fin 8) (r : Par) (ch : ChanState), (inA ch).runs .A ∧ ch.sep.staged = some [r] ∧ r.arm = k.val ∧ r.m.isSome = true ∧ r.pviol = false ∧ r.aaviol = false ∧ r.zviol = false ∧ ch.sep.lastK.any (fun n => decide (n < 2 ^ 40)) = true ∧ ch.paced) ∧
    (∃ (k : Fin 8) (r : Par) (ch : ChanState), (inA ch).runs .A ∧ ch.sep.staged = some [r] ∧ r.arm = k.val ∧ r.pviol = true ∧ ch.sep.lastK.isSome = true ∧ ch.get Reg.CHN_STATE_CODE ≠ 9 ∧ ch.get Reg.CHN_STATE_CODE ≠ 0xA) ∧
    (∃ (ch : ChanState), (inA ch).runs .A ∧ ch.sep.staged.isSome = true ∧ ch.sep.lastK.isSome = true ∧ ch.get Reg.CHN_STATE_CODE ≠ 9 ∧ ch.get Reg.CHN_STATE_CODE ≠ 0xA) ∧
    (∃ (ch : ChanState), (inA ch).runs .A ∧ ch.sepOn = true ∧ ch.get Reg.CHN_STATE_CODE ≠ 9 ∧ ch.get Reg.CHN_STATE_CODE ≠ 0xA) :=
  ⟨⟨{ id := .A, rst := { held := false }, loaded := true, regs := [(4, 3), (81920, 327705601)] }, by decide⟩,
   ⟨{ id := .A, rst := { held := false } }, by decide⟩,
   ⟨3, { arm := 3, m := some 356448854308, kind := 4, idx := 16, pviol := false, aaviol := false, zviol := false, yield := true, ts := 358035138724, bnd := 616245734550, fact := 1384, inside := 430452067838, near := 896299181510, seen := [14, 8609], body := [] }, { id := .A, rst := { held := false }, sep := { lastK := some 0, staged := some [{ arm := 3, m := some 356448854308, kind := 4, idx := 16, pviol := false, aaviol := false, zviol := false, yield := true, ts := 358035138724, bnd := 616245734550, fact := 1384, inside := 430452067838, near := 896299181510, seen := [14, 8609], body := [] }] } }, by decide⟩,
   ⟨3, { arm := 3, m := some 356448854308, kind := 4, idx := 16, pviol := true, aaviol := true, zviol := false, yield := true, ts := 616245734550, bnd := 872867575384, fact := 4838, inside := 896299181510, near := 206893493074, seen := [14, 4, 52], body := [31, 164] }, { id := .A, rst := { held := false }, sep := { lastK := some 0, staged := some [{ arm := 3, m := some 356448854308, kind := 4, idx := 16, pviol := true, aaviol := true, zviol := false, yield := true, ts := 616245734550, bnd := 872867575384, fact := 4838, inside := 896299181510, near := 206893493074, seen := [14, 4, 52], body := [31, 164] }] } }, by decide⟩,
   ⟨{ id := .A, rst := { held := false }, sep := { lastK := some 0, staged := some [{ arm := 0, m := none, kind := 0, idx := 0, pviol := false, aaviol := false, zviol := false, yield := false, ts := 0, bnd := 0, fact := 0, inside := 0, near := 0, seen := [], body := [] }] } }, by decide⟩,
   ⟨{ id := .A, rst := { held := false }, loaded := true, regs := [(4, 3), (81920, 327705601)] }, by decide⟩⟩

theorem witness_ZoneTokens :
    (∃ (k : Fin 8) (z : Fin 64) (ch : ChanState), (inA ch).runs .A ∧ ch.tokenZone z = true ∧ ch.tokenLive = true ∧ ch.monitored k = true ∧ ch.get (Reg.ZTK_ZSTS_HCCH z) ≠ ch.get Reg.ZTK_CFG_CCH) ∧
    (∃ (k : Fin 8) (z : Fin 64) (ch : ChanState), (inA ch).runs .A ∧ ch.tokenZone z = false ∨ ch.tokenLive = false ∨ ch.holds k z = true ∨ ch.monitored k = false) ∧
    (∃ (z : Fin 64) (ch : ChanState), (inA ch).runs .A ∧ ch.get (Reg.ZTK_ZSTS_STATE z) ≠ 2 ∧ ch.get (Reg.ZTK_ZSTS_STATE z) ≠ 3) ∧
    (∃ (k : Fin 8) (z : Fin 64) (ch : ChanState), (inA ch).runs .A ∧ ch.get (Reg.ZTK_ZSTS_STATE z) = 2 ∧ ch.get (Reg.ZTK_ZSTS_TCCH z) = ch.get Reg.ZTK_CFG_CCH ∧ ch.get (Reg.ZTK_ZSTS_TARM z) = k.val) ∧
    (∃ (z : Fin 64) (ch : ChanState), (inA ch).runs .A ∧ ch.tokenLive = true ∧ ch.tokenZone z = true ∧ ch.get (Reg.ZTK_ZSTS_STATE z) = 2 ∧ (ch.tok z).accepted = true) ∧
    (∃ (z : Fin 64) (ch : ChanState), (inA ch).runs .A ∧ ch.get (Reg.ZTK_ZSTS_STATE z) = 2 ∧ ch.paced ∧ (ch.tok z).since < 2 ^ 60 ∧ ch.get Reg.CHN_STATE_CODE ≠ 9 ∧ ch.get Reg.CHN_STATE_CODE ≠ 0xA) ∧
    (∃ (z : Fin 64) (ch : ChanState), (inA ch).runs .A ∧ ch.get (Reg.ZTK_ZSTS_STATE z) ≠ 2) ∧
    (∃ (z : Fin 64) (ch : ChanState), (inA ch).runs .A ∧ ch.get (Reg.ZTK_ZSTS_STATE z) = 1 ∧ ch.get (Reg.ZTK_ZSTS_HCCH z) ≠ ch.get Reg.ZTK_CFG_CCH ∧ ch.paced ∧ (ch.tok z).heard < 2 ^ 60) ∧
    (∃ (z : Fin 64) (ch : ChanState), (inA ch).runs .A ∧ ch.get (Reg.ZTK_ZSTS_STATE z) ≠ 1 ∨ ch.get (Reg.ZTK_ZSTS_HCCH z) = ch.get Reg.ZTK_CFG_CCH) ∧
    (∃ (z : Fin 64) (ch : ChanState), (inA ch).runs .A ∧ ch.tokenLive = true ∧ ch.tokenZone z = true ∧ ch.get (Reg.ZTK_ZSTS_STATE z) = 1 ∧ ch.get (Reg.ZTK_ZSTS_HCCH z) = ch.get Reg.ZTK_CFG_CCH) ∧
    (∃ (t : Nat) (ch : ChanState), (inA ch).runs .A ∧ (t < 2 ^ 60) ∧ ch.sep.prov = some t ∧ ch.paced) ∧
    (∃ (z : Fin 64) (v : Word) (ch : ChanState), (inA ch).runs .A ∧ v.toNat % 64 = z.val ∧ ch.recoverCode z (v.toNat / 65536) = 1) ∧
    (∃ (z : Fin 64) (v : Word) (ch : ChanState), (inA ch).runs .A ∧ v.toNat % 64 = z.val ∧ (ch.tokenZone z = false ∨ ch.get Reg.CHN_STATE_CODE ∉ [3, 4] ∨ ch.bit Reg.SAF_STS_RSTQ = false ∨ v.toNat / 65536 ≠ ch.get Reg.CHN_ID_BCODE ∨ ch.zoneFull z = true)) ∧
    (∃ (body : List Byte) (ch : ChanState), (inA ch).runs .A ∧ ch.sep.recov = some ⟨body, 2⟩ ∧ ch.tokenLive = true ∧ ch.paced) ∧
    (∃ (body : List Byte) (ch : ChanState), (inA ch).runs .A ∧ ch.sep.recov = some ⟨body, 1⟩ ∧ ch.tokenLive = true ∧ ch.paced) :=
  ⟨⟨0, 0, { id := .A, rst := { held := false }, loaded := true, regs := [(4, 3), (49152, 768), (81920, 327705601), (82944, 1), (86016, 1074266371), (86272, 16711683), (106500, 5)] }, by decide⟩,
   ⟨0, 0, { id := .A, rst := { held := false } }, by decide⟩,
   ⟨0, { id := .A, rst := { held := false } }, by decide⟩,
   ⟨0, 0, { id := .A, rst := { held := false }, regs := [(86280, 2)] }, by decide⟩,
   ⟨0, { id := .A, rst := { held := false }, loaded := true, sep := { tok := [(0, { accepted := true })] }, regs := [(4, 3), (86016, 1074266368), (86272, 16711683), (86280, 2), (106500, 5)] }, by decide⟩,
   ⟨0, { id := .A, rst := { held := false }, regs := [(86280, 2)] }, by decide⟩,
   ⟨0, { id := .A, rst := { held := false } }, by decide⟩,
   ⟨0, { id := .A, rst := { held := false }, regs := [(86280, 1281)] }, by decide⟩,
   ⟨0, { id := .A, rst := { held := false } }, by decide⟩,
   ⟨0, { id := .A, rst := { held := false }, loaded := true, regs := [(4, 3), (86016, 1074266368), (86272, 16711683), (86280, 1), (106500, 5)] }, by decide⟩,
   ⟨0, { id := .A, rst := { held := false }, sep := { prov := some 0 } }, by decide⟩,
   ⟨0, 0, { id := .A, rst := { held := false }, loaded := true, regs := [(4, 3), (86016, 1074266368), (86272, 16711683), (86280, 4), (90116, 1), (106500, 5)] }, by decide⟩,
   ⟨0, 0, { id := .A, rst := { held := false } }, by decide⟩,
   ⟨[], { id := .A, rst := { held := false }, loaded := true, sep := { recov := some { body := [], left := 2 } }, regs := [(4, 3), (86016, 1074266368), (106500, 5)] }, by decide⟩,
   ⟨[], { id := .A, rst := { held := false }, loaded := true, sep := { recov := some { body := [], left := 1 } }, regs := [(4, 3), (86016, 1074266368), (106500, 5)] }, by decide⟩⟩

theorem witness_SafetyInputs :
    (∃ (ch : ChanState), (inA ch).runs .A ∧ ch.logicOn = false) ∧
    (∃ (i : Fin 20) (f : Fin 16) (w : Nat) (ch : ChanState), (inA ch).runs .A ∧ ch.logicOn = true ∧ ch.get (Reg.SAF_FBCFG_TYPE f) = 5 ∧ ch.get (Reg.SAF_FBIN_IN0 f) = i.val ∧ ch.get Reg.SAF_CFG_RSTFB = f.val ∧ (ch.fb f).last = true ∧ (ch.fb f).press = some w ∧ w + ch.get (Reg.SAF_FBTIM_T0 f) * 1000000 ≤ ch.mono ∧ ch.mono ≤ w + ch.get (Reg.SAF_FBTIM_T1 f) * 1000000) ∧
    (∃ (w : Nat) (ch : ChanState), (inA ch).runs .A ∧ ch.saf.window = some w) ∧
    (∃ (t : Fin 4) (ch : ChanState), (inA ch).runs .A ∧ ch.tpOn t = true ∧ tbit ch.saf.tpLow t = false ∧ ch.paced) ∧
    (∃ (t : Fin 4) (ch : ChanState), (inA ch).runs .A ∧ tbit ch.saf.tpLow t = true) ∧
    (∃ (i : Fin 20) (t : Fin 4) (ch : ChanState), (inA ch).runs .A ∧ ch.tpOn t = true ∧ tbit ch.saf.tpLow t = true ∧ ch.bit (Reg.SAF_SIFLT_EN i) = true ∧ ch.get (Reg.SAF_SIFLT_TP i) = t.val + 1 ∧ tbit (ch.get Reg.SAF_SIN_SIN) i = true) :=
  ⟨⟨{ id := .A, rst := { held := false } }, by decide⟩,
   ⟨0, 0, 0, { id := .A, rst := { held := false }, loaded := true, saf := { fb := [(0, { press := some 0, last := true })] }, regs := [(90624, 5), (90628, 505290240)] }, by decide⟩,
   ⟨0, { id := .A, rst := { held := false }, saf := { window := some 0 } }, by decide⟩,
   ⟨0, { id := .A, rst := { held := false }, loaded := true, regs := [(90148, 985601)] }, by decide⟩,
   ⟨0, { id := .A, rst := { held := false }, saf := { tpLow := 15 } }, by decide⟩,
   ⟨0, 0, { id := .A, rst := { held := false }, loaded := true, saf := { tpLow := 15 }, regs := [(90120, 1048575), (90148, 985601), (90368, 36964)] }, by decide⟩⟩

theorem witness_SafetyLogic :
    (∃ (ch : ChanState), (inA ch).runs .A ∧ ch.logicOn = false) ∧
    (∃ (ch : ChanState), (inA ch).runs .A ∧ ch.logicOn = true) ∧
    (∃ (ch : ChanState), (inA ch).runs .A ∧ ch.logicOn = true ∧ ch.saf.differ = true) ∧
    (∃ (g : Fin 4) (f : Fin 16) (ch : ChanState), (inA ch).runs .A ∧ ch.logicOn = true ∧ ch.bit (Reg.SAF_STOSTS_PERM g) = true ∧ ch.bit (Reg.SAF_STOSTS_ENG g) = true ∧ ch.bit (Reg.SAF_STOSTS_SS1 g) = false ∧ ch.bit (Reg.SAF_STOCFG_CAT g) = false ∧ ch.get (Reg.SAF_STOCFG_SIG g) = 0x1E ∧ ch.groupArms g ≠ [] ∧ ∀ f, f < 16 → ch.get (Reg.SAF_FBCFG_TYPE f) = 0) ∧
    (∃ (g : Fin 4) (w : Nat) (ch : ChanState), (inA ch).runs .A ∧ Tab.get ch.saf.ss1 none g = some w) ∧
    (∃ (f : Fin 16) (w : Nat) (ch : ChanState), (inA ch).runs .A ∧ (ch.fb f).since = some w ∧ ch.bit (Reg.SAF_FBSTS_DISC f) = false) ∧
    (∃ (f : Fin 16) (hand : Fin 2) (w : Nat) (ch : ChanState), (inA ch).runs .A ∧ (if hand = 0 then (ch.fb f).ns0 else (ch.fb f).ns1) = some w ∧ ch.bit (Reg.SAF_FBSTS_DISC f) = false) ∧
    (∃ (g : Fin 4) (levels : BitVec 12) (ch : ChanState), (inA ch).runs .A ∧ ch.logicOn = true ∧ ((∃ g, g < 4 ∧ levels.getLsbD g ≠ ch.bit (Reg.SAF_STOSTS_ENG g)) ∨ ∃ n, n < 8 ∧ levels.getLsbD (4 + n) ≠ tbit (ch.get Reg.SAF_SOSTS_ENG) n) ∧ ∀ a ∈ ch.flt.active, a.code ≠ 0x0A05) ∧
    (∃ (g : Fin 4) (levels : BitVec 12) (ch : ChanState), (inA ch).runs .A ∧ (∀ g, g < 4 → levels.getLsbD g = ch.bit (Reg.SAF_STOSTS_ENG g)) ∧ ∀ n, n < 8 → levels.getLsbD (4 + n) = tbit (ch.get Reg.SAF_SOSTS_ENG) n) :=
  ⟨⟨{ id := .A, rst := { held := false } }, by decide⟩,
   ⟨{ id := .A, rst := { held := false }, loaded := true }, by decide⟩,
   ⟨{ id := .A, rst := { held := false }, loaded := true, saf := { differ := true } }, by decide⟩,
   ⟨0, 0, { id := .A, rst := { held := false }, loaded := true, regs := [(32768, 3), (91144, 3)] }, by decide⟩,
   ⟨0, 0, { id := .A, rst := { held := false }, saf := { ss1 := [(0, some 0)] } }, by decide⟩,
   ⟨0, 0, { id := .A, rst := { held := false }, saf := { fb := [(0, { since := some 0 })] } }, by decide⟩,
   ⟨0, 0, 0, { id := .A, rst := { held := false }, saf := { fb := [(0, { ns0 := some 0, ns1 := some 0 })] } }, by decide⟩,
   ⟨0, 3731, { id := .A, rst := { held := false }, loaded := true }, by decide⟩,
   ⟨0, 0, { id := .A, rst := { held := false } }, by decide⟩⟩

set_option maxRecDepth 100000 in
theorem witness_SafetyConnections :
    (∃ (i : Fin 128) (bs : List Byte) (ch : ChanState), (inA ch).runs .A ∧ ch.logicOn = true ∧ ch.blockDown 2 = false ∧ 18 ≤ bs.length ∧ bs.length = 22 + leAt bs 16 1 ∧ bs.length ≤ 70 ∧ ch.bit (Reg.SCX_CFG_EN i) = true ∧ ch.bit (Reg.SCX_CFG_DIR i) = false ∧ ch.bit (Reg.SCX_CFG_PATH i) = true ∧ ch.get (Reg.SCX_CID_CID i) = leAt bs 0 2 ∧ (∀ h, h < 128 → h ≠ i.val → ch.get (Reg.SCX_CID_CID h) ≠ leAt bs 0 2) ∧ ch.get (Reg.SCX_STS_STATE i) = 1 ∧ ch.get (Reg.SCX_SEQ_LAST i) ≠ leAt bs 2 2 ∧ ch.scxCause i bs false = 0 ∧ ch.get (Reg.SCX_CFG_KIND i) ≠ 4) ∧
    (∃ (i : Fin 128) (bs : List Byte) (ch : ChanState), (inA ch).runs .A ∧ ch.logicOn = true ∧ ch.blockDown 2 = false ∧ 18 ≤ bs.length ∧ bs.length = 22 + leAt bs 16 1 ∧ bs.length ≤ 70 ∧ ch.bit (Reg.SCX_CFG_EN i) = true ∧ ch.bit (Reg.SCX_CFG_DIR i) = false ∧ ch.bit (Reg.SCX_CFG_PATH i) = true ∧ ch.get (Reg.SCX_CID_CID i) = leAt bs 0 2 ∧ (∀ h, h < 128 → h ≠ i.val → ch.get (Reg.SCX_CID_CID h) ≠ leAt bs 0 2) ∧ leAt bs 16 1 = ch.get (Reg.SCX_CFG_LEN i) ∧ leAt bs 17 1 = 0 ∧ leAt bs (18 + leAt bs 16 1) 4 ≠ containerCrc (ch.get (Reg.SCX_CID_CID i)) (ch.get64 (Reg.SCX_PID i)) (bs.take (18 + leAt bs 16 1))) ∧
    (∃ (bs : List Byte) (ch : ChanState), (inA ch).runs .A ∧ leAt bs 0 1 ≠ 1 ∨ leAt bs 1 1 = 0 ∨ 16 < leAt bs 1 1 ∨ leAt bs 2 2 ≠ 0) ∧
    (∃ (i : Fin 128) (w : Nat) (ch : ChanState), (inA ch).runs .A ∧ (ch.conn i).wd = some w ∧ ch.logicOn = false ∧ ch.get (Reg.SCX_CFG_KIND i) ≠ 4) ∧
    (∃ (i : Fin 128) (w : Nat) (ch : ChanState), (inA ch).runs .A ∧ (ch.conn i).wd = some w) :=
  ⟨⟨0, ([78, 229, 16, 5, 85, 229] ++ List.replicate 6 0 ++ [208, 52, 185, 96, 30, 0, 164, 150, 88, 254, 198, 82, 147, 14, 94, 161, 132, 121, 52, 234, 127, 22, 43, 31, 200, 87, 97, 229, 164, 18, 47, 10, 70, 29, 61, 98, 93, 46, 173, 132]), { id := .A, rst := { held := false }, loaded := true, regs := [(98304, 2686320641), (98308, 320846), (98312, 58709), (98328, 1), (98332, 1295)] }, by decide⟩,
   ⟨0, ([78, 229, 16, 5, 85, 229] ++ List.replicate 6 0 ++ [208, 52, 185, 96, 30, 0, 164, 150, 88, 254, 198, 82, 147, 14, 94, 161, 132, 121, 52, 234, 127, 22, 43, 31, 200, 87, 97, 229, 164, 18, 47, 10, 70, 29, 61, 98, 94, 46, 173, 132]), { id := .A, rst := { held := false }, loaded := true, regs := [(98304, 2686320641), (98308, 320846)] }, by decide⟩,
   ⟨[], { id := .A, rst := { held := false } }, by decide⟩,
   ⟨0, 0, { id := .A, rst := { held := false }, scx := [(0, { wd := some 0 })] }, by decide⟩,
   ⟨0, 0, { id := .A, rst := { held := false }, scx := [(0, { wd := some 0 })] }, by decide⟩⟩

theorem witness_OwnSlots :
    (∃ (i : Fin 256) (sl : Slot) (t : Nat) (ch : ChanState), (inA ch).runs .A ∧ (t < 2 ^ 60) ∧ (sl.sidx = i.val) ∧ ch.nextSlot i = some (t, sl) ∧ sl.sync = true ∧ ch.transmits = true ∧ ch.paced) ∧
    (∃ (i : Fin 256) (sl : Slot) (t : Nat) (ch : ChanState), (inA ch).runs .A ∧ (t < 2 ^ 60) ∧ (sl.sidx = i.val) ∧ ch.nextSlot i = some (t, sl) ∧ sl.sync = true ∧ ch.transmits = true ∧ ch.paced) ∧
    (∃ (i : Fin 256) (sl : Slot) (t : Nat) (ch : ChanState), (inA ch).runs .A ∧ (t < 2 ^ 60) ∧ (sl.sidx = i.val) ∧ ch.nextSlot i = some (t, sl) ∧ sl.sync = false ∧ ch.transmits = true ∧ ch.quiet = false ∧ ((ch.advanceTo t).slotRecords sl).1 = []) ∧
    (∃ (i : Fin 256) (sl : Slot) (t : Nat) (ch : ChanState), (inA ch).runs .A ∧ (t < 2 ^ 60) ∧ (sl.sidx = i.val) ∧ ch.nextSlot i = some (t, sl) ∧ ch.quiet = true ∧ sl.sync = false ∧ sl.status = false) ∧
    (∃ (w : List Byte) (ch : ChanState), (inA ch).runs .A ∧ ch.cb.wait = some w) ∧
    (∃ (w : List Byte) (ch : ChanState), (inA ch).runs .A ∧ ch.cb.wait = some w) ∧
    (∃ (ch : ChanState), (inA ch).runs .A ∧ ch.cbState = 5 ∧ ch.paced ∧ ∀ p ∈ ch.cb.pairs, p.snap = none) ∧
    (∃ (ch : ChanState), (inA ch).runs .A ∧ ch.cbUp = true ∧ ch.cbState ≠ 0) :=
  ⟨⟨0, { start := 273, len := 15, node := 7, row := 7, sidx := 0, flg := 7, tdst := 9 }, 23140984736, { id := .A, rst := { held := false }, ct := 1516554443358208, cb := { nodes := [{ id := 7, kind := 1, rank := 2, fwd := 100, cdly := 50 }, { id := 9, kind := 1, rank := 1, fwd := 100, cdly := 50 }, { id := 11, kind := 2, rank := 0, fwd := 100, cdly := 50 }], slots := [{ start := 3, len := 9, node := 9, row := 2, sidx := 0, flg := 0, tdst := 0 }, { start := 273, len := 15, node := 7, row := 7, sidx := 0, flg := 7, tdst := 9 }] }, regs := [(106496, 263), (106500, 5)] }, by decide⟩,
   ⟨0, { start := 273, len := 15, node := 7, row := 7, sidx := 0, flg := 7, tdst := 9 }, 23140984736, { id := .A, rst := { held := false }, ct := 1516554443358208, cb := { nodes := [{ id := 7, kind := 1, rank := 2, fwd := 100, cdly := 50 }, { id := 9, kind := 1, rank := 1, fwd := 100, cdly := 50 }, { id := 11, kind := 2, rank := 0, fwd := 100, cdly := 50 }], slots := [{ start := 3, len := 9, node := 9, row := 2, sidx := 0, flg := 0, tdst := 0 }, { start := 273, len := 15, node := 7, row := 7, sidx := 0, flg := 7, tdst := 9 }] }, regs := [(106496, 263), (106500, 5)] }, by decide⟩,
   ⟨0, { start := 10, len := 14, node := 7, row := 0, sidx := 0, flg := 0, tdst := 9 }, 19554304320, { id := .A, rst := { held := false }, ct := 1281510871007232, cb := { nodes := [{ id := 7, kind := 1, rank := 2, fwd := 100, cdly := 50 }, { id := 9, kind := 1, rank := 1, fwd := 100, cdly := 50 }, { id := 11, kind := 2, rank := 0, fwd := 100, cdly := 50 }], slots := [{ start := 3, len := 9, node := 9, row := 2, sidx := 0, flg := 0, tdst := 0 }, { start := 10, len := 14, node := 7, row := 0, sidx := 0, flg := 0, tdst := 9 }] }, regs := [(106496, 263), (106500, 5)] }, by decide⟩,
   ⟨0, { start := 10, len := 14, node := 7, row := 0, sidx := 0, flg := 0, tdst := 9 }, 19554304320, { id := .A, rst := { held := false }, ct := 1281510871007232, cb := { slots := [{ start := 3, len := 9, node := 9, row := 2, sidx := 0, flg := 0, tdst := 0 }, { start := 10, len := 14, node := 7, row := 0, sidx := 0, flg := 0, tdst := 9 }] }, regs := [(4, 9), (106496, 263)] }, by decide⟩,
   ⟨[], { id := .A, rst := { held := false }, cb := { wait := some [] } }, by decide⟩,
   ⟨[], { id := .A, rst := { held := false }, cb := { wait := some [] } }, by decide⟩,
   ⟨{ id := .A, rst := { held := false }, regs := [(106500, 5)] }, by decide⟩,
   ⟨{ id := .A, rst := { held := false }, cb := { nodes := [{ id := 7, kind := 1, rank := 2, fwd := 100, cdly := 50 }, { id := 9, kind := 1, rank := 1, fwd := 100, cdly := 50 }, { id := 11, kind := 2, rank := 0, fwd := 100, cdly := 50 }] }, regs := [(106496, 263), (106500, 1)] }, by decide⟩⟩

theorem witness_ArbitratingWindow :
    (∃ (m : Fin 34) (b : List Byte) (ch : ChanState), (inA ch).runs .A ∧ ch.transmits = true ∧ ch.quiet = false ∧ ch.cb.minis[m.val]? = some ch.node ∧ ch.paced ∧ ch.sep.out = [b] ∧ leAt b 0 1 = 6 ∧ ch.cb.relay = none ∧ ∀ p ∈ ch.cb.pairs, p.due = false) ∧
    (∃ (m : Fin 34) (ch : ChanState), (inA ch).runs .A ∧ ch.transmits = true ∧ ch.quiet = false ∧ ch.cb.minis[m.val]? = some ch.node ∧ ch.paced) ∧
    (∃ (m : Fin 34) (ch : ChanState), (inA ch).runs .A ∧ ch.cb.minis[m.val]? ≠ some ch.node ∨ ch.quiet = true) ∧
    (∃ (ch : ChanState), (inA ch).runs .A ∧ ch.sep.out = [] ∧ ch.cb.relay = none ∧ ∀ p ∈ ch.cb.pairs, p.due = false) ∧
    (∃ (k : Nat) (ch : ChanState), (inA ch).runs .A ∧ ch.cb.arbWait = some k ∧ 15040 < ch.now % 16000) ∧
    (∃ (b : List Byte) (k : Nat) (ch : ChanState), (inA ch).runs .A ∧ ch.cb.arbWait = some k ∧ ch.now % 16000 ≤ 15040 ∧ ch.transmits = true ∧ ch.quiet = false ∧ ch.sep.out = [b] ∧ leAt b 0 1 = 6) ∧
    (∃ (v : Word) (ch : ChanState), (inA ch).runs .A ∧ v.toNat % 2 = 1 ∧ ch.bit Reg.CBUS_HRSTS_TXBUSY = false ∧ 0 < v.toNat / 2 ^ 16 % 256 ∧ v.toNat / 2 ^ 16 % 256 ≤ 224) ∧
    (∃ (v : Word) (ch : ChanState), (inA ch).runs .A ∧ v.toNat % 2 = 0 ∨ ch.bit Reg.CBUS_HRSTS_TXBUSY = true ∨ v.toNat / 2 ^ 16 % 256 = 0 ∨ 224 < v.toNat / 2 ^ 16 % 256) ∧
    (∃ (ch : ChanState), (inA ch).runs .A ∧ ch.bit Reg.CBUS_HRSTS_RXFULL = true ∧ ch.cb.rxq = []) ∧
    (∃ (r : Relay) (q : List Relay) (ch : ChanState), (inA ch).runs .A ∧ ch.bit Reg.CBUS_HRSTS_RXFULL = true ∧ ch.cb.rxq = r :: q ∧ r.data.length ≤ 224) ∧
    (∃ (ch : ChanState), (inA ch).runs .A ∧ ch.bit Reg.CBUS_HRSTS_RXFULL = false) :=
  ⟨⟨0, ([6, 16, 158, 10, 227, 242, 213] ++ List.replicate 9 0), { id := .A, rst := { held := false }, sep := { out := [([6, 16, 158, 10, 227, 242, 213] ++ List.replicate 9 0)] }, cb := { nodes := [{ id := 7, kind := 1, rank := 2, fwd := 100, cdly := 50 }, { id := 9, kind := 1, rank := 1, fwd := 100, cdly := 50 }, { id := 11, kind := 2, rank := 0, fwd := 100, cdly := 50 }], minis := [7, 9, 9, 7, 9, 9, 7, 9, 9, 7, 9, 9, 7, 9, 9, 7, 9, 9, 7, 9, 9, 7, 9, 9, 7, 9, 9, 7, 9, 9, 7, 9, 9, 7] }, regs := [(106496, 263), (106500, 5)] }, by decide⟩,
   ⟨0, { id := .A, rst := { held := false }, cb := { nodes := [{ id := 7, kind := 1, rank := 2, fwd := 100, cdly := 50 }, { id := 9, kind := 1, rank := 1, fwd := 100, cdly := 50 }, { id := 11, kind := 2, rank := 0, fwd := 100, cdly := 50 }], minis := [7, 9, 9, 7, 9, 9, 7, 9, 9, 7, 9, 9, 7, 9, 9, 7, 9, 9, 7, 9, 9, 7, 9, 9, 7, 9, 9, 7, 9, 9, 7, 9, 9, 7] }, regs := [(106496, 263), (106500, 5)] }, by decide⟩,
   ⟨0, { id := .A, rst := { held := false } }, by decide⟩,
   ⟨{ id := .A, rst := { held := false } }, by decide⟩,
   ⟨0, { id := .A, rst := { held := false }, ct := 985726976, cb := { arbWait := some 0 } }, by decide⟩,
   ⟨([6, 16, 158, 10, 227, 242, 213] ++ List.replicate 9 0), 0, { id := .A, rst := { held := false }, sep := { out := [([6, 16, 158, 10, 227, 242, 213] ++ List.replicate 9 0)] }, cb := { nodes := [{ id := 7, kind := 1, rank := 2, fwd := 100, cdly := 50 }, { id := 9, kind := 1, rank := 1, fwd := 100, cdly := 50 }, { id := 11, kind := 2, rank := 0, fwd := 100, cdly := 50 }], arbWait := some 0 }, regs := [(106496, 263), (106500, 5)] }, by decide⟩,
   ⟨3613697, { id := .A, rst := { held := false } }, by decide⟩,
   ⟨0, { id := .A, rst := { held := false } }, by decide⟩,
   ⟨{ id := .A, rst := { held := false }, regs := [(106696, 2306)] }, by decide⟩,
   ⟨{ node := 0, tag := 0, data := [] }, [], { id := .A, rst := { held := false }, cb := { rxq := [{ node := 0, tag := 0, data := [] }] }, regs := [(106696, 2306)] }, by decide⟩,
   ⟨{ id := .A, rst := { held := false } }, by decide⟩⟩

set_option maxRecDepth 100000 in
theorem witness_RingFrames :
    (∃ (p : Fin 2) (ch : ChanState), (inA ch).runs .A ∧ ch.cbState = 1 ∧ ch.cbUp = true ∧ ch.bit (if p = 0 then Reg.CBUS_STS_LINK1 else Reg.CBUS_STS_LINK0) = true) ∧
    (∃ (ch : ChanState), (inA ch).runs .A ∧ ch.cbState = 5) ∧
    (∃ (ch : ChanState), (inA ch).runs .A ∧ ch.cbState ≠ 5) ∧
    (∃ (sfd : Nat) (ch : ChanState), (inA ch).runs .A ∧ ch.cbUp = true ∧ sfd ≤ ch.ct) ∧
    (∃ (sfd : Nat) (bs : List Byte) (ch : ChanState), (inA ch).runs .A ∧ ch.cbUp = true ∧ sfd ≤ ch.ct ∧ ch.cbNode (leAt bs 1 1) = none) ∧
    (∃ (sfd : Nat) (bs : List Byte) (ch : ChanState), (inA ch).runs .A ∧ ch.cbUp = true ∧ sfd ≤ ch.ct ∧ 16 ≤ bs.length ∧ (ch.frameRecords bs).isSome = true ∧ leAt bs 1 1 = ch.node ∧ (ch.cb.seq + 2 ^ 16 - 1 - leAt bs 4 2) % 2 ^ 16 < min 256 ch.cb.sentN) ∧
    (∃ (sfd : Nat) (bs : List Byte) (ch : ChanState), (inA ch).runs .A ∧ ch.cbUp = true ∧ sfd ≤ ch.ct ∧ 16 ≤ bs.length ∧ (ch.frameRecords bs).isSome = true ∧ leAt bs 1 1 ≠ ch.node ∧ leAt bs 2 1 = 1 ∧ ch.cbState = 5 ∧ leAt bs 6 2 ≠ sfd / 2 ^ 16 / 256000 % 2 ^ 16) ∧
    (∃ (p : Fin 2) (sl : Slot) (sfd : Nat) (r : Src) (bs : List Byte) (ch : ChanState), (inA ch).runs .A ∧ ch.cbUp = true ∧ sfd ≤ ch.ct ∧ 16 ≤ bs.length ∧ ch.frameRecords bs = some [] ∧ leAt bs 1 1 = sl.node ∧ sl.node ≠ ch.node ∧ leAt bs 2 1 = 1 ∧ ch.cbState = 5 ∧ leAt bs 6 2 = sfd / 2 ^ 16 / 256000 % 2 ^ 16 ∧ leAt bs 8 2 = sl.sidx % 256 + 256 * sl.row ∧ sl.row = sfd / 2 ^ 16 / 16000 % 16 ∧ ch.cb.slots = [sl] ∧ sl.sidx < 256 ∧ Tab.get ch.cb.src none sl.node = some r ∧ ((sfd : Int) - ch.expected (sfd / 2 ^ 16 / 16000) sl p (leAt bs 12 4)).natAbs ≤ 128 * 2 ^ 16 ∧ ch.cycle ≤ r.last + 16 ∧ leAt bs 4 2 = (r.h + 1) % 2 ^ 16 ∧ ch.blockDown 1 = false ∧ 0 < leAt bs 3 1) ∧
    (∃ (p : Fin 2) (sl : Slot) (sfd : Nat) (bs : List Byte) (ch : ChanState), (inA ch).runs .A ∧ ch.cbUp = true ∧ sfd ≤ ch.ct ∧ 16 ≤ bs.length ∧ (ch.frameRecords bs).isSome = true ∧ leAt bs 1 1 = sl.node ∧ sl.node ≠ ch.node ∧ sl.node < 48 ∧ leAt bs 2 1 = 1 ∧ ch.cbState = 5 ∧ leAt bs 6 2 = sfd / 2 ^ 16 / 256000 % 2 ^ 16 ∧ leAt bs 8 2 = sl.sidx % 256 + 256 * sl.row ∧ sl.row = sfd / 2 ^ 16 / 16000 % 16 ∧ ch.cb.slots = [sl] ∧ sl.sidx < 256 ∧ 128 * 2 ^ 16 < ((sfd : Int) - ch.expected (sfd / 2 ^ 16 / 16000) sl p (leAt bs 12 4)).natAbs) ∧
    (∃ (sfd : Nat) (r : Src) (bs : List Byte) (ch : ChanState), (inA ch).runs .A ∧ ch.cbUp = true ∧ sfd ≤ ch.ct ∧ 16 ≤ bs.length ∧ (ch.frameRecords bs).isSome = true ∧ leAt bs 1 1 ≠ ch.node ∧ leAt bs 2 1 = 2 ∧ ch.cbState = 5 ∧ leAt bs 6 2 = sfd / 2 ^ 16 / 256000 % 2 ^ 16 ∧ Tab.get ch.cb.src none (leAt bs 1 1) = some r ∧ ch.cycle ≤ r.last + 16 ∧ (r.h + 2 ^ 16 - leAt bs 4 2) % 2 ^ 16 < 256 ∧ tbit r.seen ((r.h + 2 ^ 16 - leAt bs 4 2) % 2 ^ 16) = true) ∧
    (∃ (sfd : Nat) (b : List Byte) (bs : List Byte) (ch : ChanState), (inA ch).runs .A ∧ ch.cbUp = true ∧ sfd ≤ ch.ct ∧ 16 ≤ bs.length ∧ ch.frameRecords bs = some [(8, 0xFF, b)] ∧ leAt bs 1 1 ≠ ch.node ∧ leAt bs 1 1 < 48 ∧ leAt bs 2 1 = 2 ∧ ch.cbState = 5 ∧ leAt bs 6 2 = sfd / 2 ^ 16 / 256000 % 2 ^ 16 ∧ ch.dupCheck (leAt bs 1 1) (leAt bs 4 2) = 0 ∧ 32 ≤ b.length) ∧
    (∃ (sfd : Nat) (b : List Byte) (bs : List Byte) (ch : ChanState), (inA ch).runs .A ∧ ch.cbUp = true ∧ sfd ≤ ch.ct ∧ ch.ct < 2 ^ 79 ∧ 16 ≤ bs.length ∧ ch.frameRecords bs = some [(0x0C, 0xFF, b)] ∧ b.length = 12 ∧ leAt bs 1 1 ≠ ch.node ∧ leAt bs 2 1 = 3 ∧ (ch.cbState = 2 ∨ ch.cbState = 3) ∧ ch.dupCheck (64 + leAt bs 1 1) (leAt bs 4 2) = 0 ∧ ch.cb.rivalAt = none ∧ ch.cb.startSent = none ∧ leAt b 0 8 < 2 ^ 60) ∧
    (∃ (sfd : Nat) (bs : List Byte) (ch : ChanState), (inA ch).runs .A ∧ ch.cbUp = true ∧ sfd ≤ ch.ct ∧ 16 ≤ bs.length ∧ (ch.frameRecords bs).isSome = true ∧ leAt bs 1 1 ≠ ch.node ∧ leAt bs 2 1 = 4) ∧
    (∃ (p : Fin 2) (sfd : Nat) (t : Nat) (b : List Byte) (bs : List Byte) (ch : ChanState), (inA ch).runs .A ∧ ch.cbUp = true ∧ sfd ≤ ch.ct ∧ 16 ≤ bs.length ∧ ch.frameRecords bs = some [(0x0D, ch.node, b)] ∧ b.length = 24 ∧ leAt bs 1 1 ≠ ch.node ∧ leAt bs 2 1 = 5 ∧ Tab.get ch.cb.t1 none p = some t ∧ 0 ≤ ((sfd : Int) - t) - (((leAt b 12 8 * 2 ^ 16 + leAt b 20 2 : Nat) : Int) - (leAt b 0 8 * 2 ^ 16 + leAt b 8 2 : Nat)) ∧ ((sfd : Int) - t) - (((leAt b 12 8 * 2 ^ 16 + leAt b 20 2 : Nat) : Int) - (leAt b 0 8 * 2 ^ 16 + leAt b 8 2 : Nat)) < 2 ^ 24) ∧
    (∃ (sl : Slot) (i : Fin 256) (ch : ChanState), (inA ch).runs .A ∧ ch.cbState = 5 ∧ ch.cb.slots = [sl] ∧ sl.sidx = i.val ∧ sl.row = ch.bIdx ∧ sl.node ≠ ch.node ∧ sl.node < 48 ∧ ch.cb.got = [] ∧ ch.nodePresent sl.node = true ∧ tbit (ch.get (Reg.CBUS_NODEINF_SFLG sl.node)) 0 = false ∧ ∀ j, j < 64 → ch.get (Reg.JNT_BIND_NODE j) ≠ sl.node) ∧
    (∃ (sl : Slot) (i : Fin 256) (ch : ChanState), (inA ch).runs .A ∧ ch.cb.slots = [sl] ∧ sl.sidx = i.val ∧ ch.cb.got = [(ch.cycle * 256 + i, sl.node)]) :=
  ⟨⟨0, { id := .A, rst := { held := false }, cb := { nodes := [{ id := 7, kind := 1, rank := 2, fwd := 100, cdly := 50 }, { id := 9, kind := 1, rank := 1, fwd := 100, cdly := 50 }, { id := 11, kind := 2, rank := 0, fwd := 100, cdly := 50 }] }, regs := [(106496, 263), (106500, 3073)] }, by decide⟩,
   ⟨{ id := .A, rst := { held := false }, regs := [(106500, 5)] }, by decide⟩,
   ⟨{ id := .A, rst := { held := false } }, by decide⟩,
   ⟨0, { id := .A, rst := { held := false }, cb := { nodes := [{ id := 7, kind := 1, rank := 2, fwd := 100, cdly := 50 }, { id := 9, kind := 1, rank := 1, fwd := 100, cdly := 50 }, { id := 11, kind := 2, rank := 0, fwd := 100, cdly := 50 }] }, regs := [(106496, 263)] }, by decide⟩,
   ⟨0, [], { id := .A, rst := { held := false }, cb := { nodes := [{ id := 7, kind := 1, rank := 2, fwd := 100, cdly := 50 }, { id := 9, kind := 1, rank := 1, fwd := 100, cdly := 50 }, { id := 11, kind := 2, rank := 0, fwd := 100, cdly := 50 }] }, regs := [(106496, 263)] }, by decide⟩,
   ⟨0, ([1, 7, 1, 3, 100] ++ List.replicate 7 0 ++ [31, 208] ++ List.replicate 22 0), { id := .A, rst := { held := false }, cb := { nodes := [{ id := 7, kind := 1, rank := 2, fwd := 100, cdly := 50 }, { id := 9, kind := 1, rank := 1, fwd := 100, cdly := 50 }, { id := 11, kind := 2, rank := 0, fwd := 100, cdly := 50 }], seq := 106, sentN := 50 }, regs := [(106496, 263)] }, by decide⟩,
   ⟨0, ([1, 9, 1, 3, 100, 0, 3, 0, 0, 0, 0, 0, 31, 208] ++ List.replicate 22 0), { id := .A, rst := { held := false }, cb := { nodes := [{ id := 7, kind := 1, rank := 2, fwd := 100, cdly := 50 }, { id := 9, kind := 1, rank := 1, fwd := 100, cdly := 50 }, { id := 11, kind := 2, rank := 0, fwd := 100, cdly := 50 }] }, regs := [(106496, 263), (106500, 5)] }, by decide⟩,
   ⟨0, { start := 10, len := 14, node := 9, row := 0, sidx := 4, flg := 6, tdst := 7 }, 1281510913353158, { h := 99, seen := 413786986149, last := 1222139 }, ([1, 9, 1, 4, 100, 0, 96, 42, 4, 0, 0, 0, 31, 208] ++ List.replicate 22 0), { id := .A, rst := { held := false }, ct := 1281510947890630, cb := { nodes := [{ id := 7, kind := 1, rank := 2, fwd := 100, cdly := 50 }, { id := 9, kind := 1, rank := 1, fwd := 100, cdly := 50 }, { id := 11, kind := 2, rank := 0, fwd := 100, cdly := 50 }], slots := [{ start := 10, len := 14, node := 9, row := 0, sidx := 4, flg := 6, tdst := 7 }], src := [(9, some { h := 99, seen := 413786986149, last := 1222139 })] }, regs := [(106496, 263), (106500, 5), (106512, 31613)] }, by decide⟩,
   ⟨0, { start := 10, len := 14, node := 9, row := 0, sidx := 4, flg := 6, tdst := 7 }, 0, ([1, 9, 1, 3, 79, 0, 0, 0, 4, 0, 0, 0, 232, 175] ++ List.replicate 22 0), { id := .A, rst := { held := false }, cb := { nodes := [{ id := 7, kind := 1, rank := 2, fwd := 100, cdly := 50 }, { id := 9, kind := 1, rank := 1, fwd := 100, cdly := 50 }, { id := 11, kind := 2, rank := 0, fwd := 100, cdly := 50 }], slots := [{ start := 10, len := 14, node := 9, row := 0, sidx := 4, flg := 6, tdst := 7 }] }, regs := [(106496, 263), (106500, 5)] }, by decide⟩,
   ⟨0, { h := 99, seen := 413786986149, last := 0 }, ([1, 9, 2, 3, 69] ++ List.replicate 7 0 ++ [232, 175] ++ List.replicate 22 0), { id := .A, rst := { held := false }, cb := { nodes := [{ id := 7, kind := 1, rank := 2, fwd := 100, cdly := 50 }, { id := 9, kind := 1, rank := 1, fwd := 100, cdly := 50 }, { id := 11, kind := 2, rank := 0, fwd := 100, cdly := 50 }], src := [(9, some { h := 99, seen := 413786986149, last := 0 })] }, regs := [(106496, 263), (106500, 5)] }, by decide⟩,
   ⟨0, ([94, 203, 108, 97, 161, 33, 244, 123, 132, 170, 121, 52, 234, 222, 139, 228, 95, 0, 0, 1] ++ List.replicate 12 0), ([1, 9, 2, 2, 100] ++ List.replicate 6 0 ++ [1, 75, 188, 0, 0, 8, 255, 32, 0, 94, 203, 108, 97, 161, 33, 244, 123, 132, 170, 121, 52, 234, 222, 139, 228, 95, 0, 0, 1] ++ List.replicate 32 0), { id := .A, rst := { held := false }, cb := { nodes := [{ id := 7, kind := 1, rank := 2, fwd := 100, cdly := 50 }, { id := 9, kind := 1, rank := 1, fwd := 100, cdly := 50 }, { id := 11, kind := 2, rank := 0, fwd := 100, cdly := 50 }] }, regs := [(106496, 263), (106500, 5)] }, by decide⟩,
   ⟨0, [94, 203, 108, 97, 41, 0, 0, 0, 161, 33, 2, 0], ([1, 9, 3, 0, 100] ++ List.replicate 6 0 ++ [1, 217, 170, 0, 0, 12, 255, 12, 0, 94, 203, 108, 97, 41, 0, 0, 0, 161, 33, 2] ++ List.replicate 21 0), { id := .A, rst := { held := false }, cb := { nodes := [{ id := 7, kind := 1, rank := 2, fwd := 100, cdly := 50 }, { id := 9, kind := 1, rank := 1, fwd := 100, cdly := 50 }, { id := 11, kind := 2, rank := 0, fwd := 100, cdly := 50 }] }, regs := [(106496, 263), (106500, 3)] }, by decide⟩,
   ⟨0, ([1, 9, 4, 0, 100] ++ List.replicate 7 0 ++ [75, 188] ++ List.replicate 22 0), { id := .A, rst := { held := false }, cb := { nodes := [{ id := 7, kind := 1, rank := 2, fwd := 100, cdly := 50 }, { id := 9, kind := 1, rank := 1, fwd := 100, cdly := 50 }, { id := 11, kind := 2, rank := 0, fwd := 100, cdly := 50 }] }, regs := [(106496, 263)] }, by decide⟩,
   ⟨0, 639684197274302, 639684183321302, [212, 77, 134, 140, 151, 0, 0, 0, 36, 112, 0, 0, 11, 78, 134, 140, 151, 0, 0, 0, 19, 15, 0, 0], ([1, 9, 5, 0, 100, 0, 240, 148, 0, 0, 0, 1, 139, 85, 0, 0, 13, 7, 24, 0, 212, 77, 134, 140, 151, 0, 0, 0, 36, 112, 0, 0, 11, 78, 134, 140, 151, 0, 0, 0, 19, 15] ++ List.replicate 22 0), { id := .A, rst := { held := false }, ct := 639684222767806, cb := { nodes := [{ id := 7, kind := 1, rank := 2, fwd := 100, cdly := 50 }, { id := 9, kind := 1, rank := 1, fwd := 100, cdly := 50 }, { id := 11, kind := 2, rank := 0, fwd := 100, cdly := 50 }], t1 := [(0, some 639684183321302), (1, some 639684183321302)] }, regs := [(106496, 263)] }, by decide⟩,
   ⟨{ start := 180, len := 15, node := 9, row := 2, sidx := 0, flg := 7, tdst := 7 }, 0, { id := .A, rst := { held := false }, ct := 639684243673790, cb := { slots := [{ start := 180, len := 15, node := 9, row := 2, sidx := 0, flg := 7, tdst := 7 }], statT := [(9, some 9760806935)] }, regs := [(106500, 5)] }, by decide⟩,
   ⟨{ start := 0, len := 0, node := 0, row := 0, sidx := 0, flg := 0, tdst := 0 }, 0, { id := .A, rst := { held := false }, cb := { slots := [{ start := 0, len := 0, node := 0, row := 0, sidx := 0, flg := 0, tdst := 0 }], got := [(0, 0)] } }, by decide⟩⟩

theorem witness_RingStart :
    (∃ (t : Nat) (ch : ChanState), (inA ch).runs .A ∧ (t < 2 ^ 60) ∧ ch.cb.listen = some t ∧ ch.cbState = 2 ∧ 0 < ch.rankOf ch.node) ∧
    (∃ (t : Nat) (ch : ChanState), (inA ch).runs .A ∧ (t < 2 ^ 60) ∧ ch.cb.listen = some t ∧ ch.cbState = 2 ∧ ch.rankOf ch.node = 0) ∧
    (∃ (t : Nat) (ch : ChanState), (inA ch).runs .A ∧ (t < 2 ^ 60) ∧ ch.cb.startDue = some t ∧ ch.cbState = 3 ∧ ch.node < 64 ∧ ch.rankOf ch.node < 256) ∧
    (∃ (t : Nat) (ch : ChanState), (inA ch).runs .A ∧ (t < 2 ^ 60) ∧ ch.cb.startSent = some t ∧ ch.cbState = 3) ∧
    (∃ (t : Nat) (ch : ChanState), (inA ch).runs .A ∧ (t < 2 ^ 60) ∧ ch.cb.retry = some t ∧ ch.cbState = 3) ∧
    (∃ (o : Int) (ch : ChanState), (inA ch).runs .A ∧ ch.cbState = 5 ∧ ch.bit Reg.CBUS_STS_REF = false ∧ ch.paced ∧ ch.bIdx ≠ 15 ∧ ch.now % 16000 ≤ 15520 ∧ ch.cb.offs = [o] ∧ o.natAbs ≤ 64 * 2 ^ 16) ∧
    (∃ (o : Int) (ch : ChanState), (inA ch).runs .A ∧ ch.cbState = 5 ∧ ch.bit Reg.CBUS_STS_REF = false ∧ ch.paced ∧ ch.cb.offs = [o] ∧ 64 * 2 ^ 16 < o.natAbs ∧ ch.cb.refChg = none) ∧
    (∃ (ch : ChanState), (inA ch).runs .A ∧ ch.bit Reg.CBUS_STS_REF = true) ∧
    (∃ (ch : ChanState), (inA ch).runs .A ∧ 4 ≤ ch.cbState) ∧
    (∃ (ch : ChanState), (inA ch).runs .A ∧ ch.cbState < 4) ∧
    (∃ (ch : ChanState), (inA ch).runs .A ∧ ch.cbState = 5 ∧ ch.transmits = true ∧ ch.paced) ∧
    (∃ (t : Nat) (n : CbNode) (ch : ChanState), (inA ch).runs .A ∧ (t < 2 ^ 60) ∧ ch.cb.refAt = some t ∧ 4 ≤ ch.cbState ∧ ch.bit Reg.CBUS_STS_REF = false ∧ ch.paced ∧ lowestRank (ch.advanceTo ((t + 3) * 16000)).referees = some n ∧ n.id < 64) ∧
    (∃ (t : Nat) (ch : ChanState), (inA ch).runs .A ∧ (t < 2 ^ 60) ∧ ch.cb.coldAt = some t ∧ 4 ≤ ch.cbState ∧ ch.bit Reg.CBUS_STS_REF = false ∧ ch.paced) :=
  ⟨⟨0, { id := .A, rst := { held := false }, cb := { nodes := [{ id := 7, kind := 1, rank := 2, fwd := 100, cdly := 50 }, { id := 9, kind := 1, rank := 1, fwd := 100, cdly := 50 }, { id := 11, kind := 2, rank := 0, fwd := 100, cdly := 50 }], listen := some 0 }, regs := [(106496, 263), (106500, 2)] }, by decide⟩,
   ⟨0, { id := .A, rst := { held := false }, cb := { listen := some 0 }, regs := [(106500, 2)] }, by decide⟩,
   ⟨0, { id := .A, rst := { held := false }, cb := { startDue := some 0 }, regs := [(106500, 3)] }, by decide⟩,
   ⟨0, { id := .A, rst := { held := false }, cb := { startSent := some 0 }, regs := [(106500, 3)] }, by decide⟩,
   ⟨0, { id := .A, rst := { held := false }, cb := { retry := some 0 }, regs := [(106500, 3)] }, by decide⟩,
   ⟨0, { id := .A, rst := { held := false }, cb := { offs := [0] }, regs := [(106500, 5)] }, by decide⟩,
   ⟨6245221, { id := .A, rst := { held := false }, cb := { offs := [6245221] }, regs := [(106500, 5)] }, by decide⟩,
   ⟨{ id := .A, rst := { held := false }, regs := [(106500, 21)] }, by decide⟩,
   ⟨{ id := .A, rst := { held := false }, regs := [(106500, 4)] }, by decide⟩,
   ⟨{ id := .A, rst := { held := false } }, by decide⟩,
   ⟨{ id := .A, rst := { held := false }, cb := { nodes := [{ id := 7, kind := 1, rank := 2, fwd := 100, cdly := 50 }, { id := 9, kind := 1, rank := 1, fwd := 100, cdly := 50 }, { id := 11, kind := 2, rank := 0, fwd := 100, cdly := 50 }] }, regs := [(106496, 263), (106500, 5)] }, by decide⟩,
   ⟨0, { id := 7, kind := 1, rank := 2, fwd := 100, cdly := 50 }, { id := .A, rst := { held := false }, cb := { nodes := [{ id := 7, kind := 1, rank := 2, fwd := 100, cdly := 50 }], refAt := some 0 }, regs := [(106496, 263), (106500, 184549381)] }, by decide⟩,
   ⟨0, { id := .A, rst := { held := false }, cb := { coldAt := some 0 }, regs := [(106500, 117440516)] }, by decide⟩⟩

theorem witness_PlantTime :
    (∃ (n : Fin 2) (ch : ChanState), (inA ch).runs .A ∧ ch.ptpOn n = true) ∧
    (∃ (n : Fin 2) (fu : FollowUpMsg) (ch : ChanState), (inA ch).runs .A ∧ ch.ptpOn n = true ∧ (ch.ptpU n).haveSync = true ∧ (ch.ptpU n).syncSeq = fu.seq.toNat ∧ (ch.ptpU n).syncOrg = none) ∧
    (∃ (n : Fin 2) (fu : FollowUpMsg) (ch : ChanState), (inA ch).runs .A ∧ ch.ptpOn n = false ∨ (ch.ptpU n).haveSync = false ∨ (ch.ptpU n).syncSeq ≠ fu.seq.toNat ∨ (ch.ptpU n).syncOrg.isSome = true) ∧
    (∃ (n : Fin 2) (ch : ChanState), (inA ch).runs .A ∧ ch.ptpOn n = true ∧ (ch.ptpU n).gmSet = false) ∧
    (∃ (n : Fin 2) (an : AnnounceMsg) (ch : ChanState), (inA ch).runs .A ∧ ch.ptpOn n = true ∧ (ch.ptpU n).gmSet = true ∧ ch.get64 (Reg.TIM_PGM n) ≠ an.gm.toNat ∧ an.rank < (ch.ptpU n).rank) ∧
    (∃ (n : Fin 2) (an : AnnounceMsg) (ch : ChanState), (inA ch).runs .A ∧ ch.ptpOn n = true ∧ (ch.ptpU n).gmSet = true ∧ ch.get64 (Reg.TIM_PGM n) ≠ an.gm.toNat ∧ (ch.ptpU n).rank ≤ an.rank) ∧
    (∃ (n : Fin 2) (ch : ChanState), (inA ch).runs .A ∧ ch.ptpOn n = true) ∧
    (∃ (n : Fin 2) (r : DelayRespMsg) (t1 : Nat) (t3 : Nat) (ch : ChanState), (inA ch).runs .A ∧ ch.ptpOn n = true ∧ (ch.ptpU n).haveSync = true ∧ (ch.ptpU n).reqTx = some t3 ∧ (ch.ptpU n).syncOrg = some t1 ∧ r.seq.toNat = (ch.ptpU n).reqSeq ∧ ch.bit (Reg.TIM_PCFG_SERVO n) = false ∧ (ch.ptpU n).syncRx < 2 ^ 20 ∧ t1 < 2 ^ 20 ∧ t3 < 2 ^ 20 ∧ r.t4 < 2 ^ 20 ∧ r.corr.natAbs < 2 ^ 20 ∧ (ch.ptpU n).syncCorr.natAbs < 2 ^ 20) ∧
    (∃ (n : Fin 2) (r : DelayRespMsg) (ch : ChanState), (inA ch).runs .A ∧ (ch.ptpU n).reqTx = none ∨ r.seq.toNat ≠ (ch.ptpU n).reqSeq) ∧
    (∃ (n : Fin 2) (ch : ChanState), (inA ch).runs .A ∧ ch.ptpOn n = true) ∧
    (∃ (v : Word) (ch : ChanState), (inA ch).runs .A ∧ 0x03FF7CEE ≤ v.toNat ∧ v.toNat ≤ 0x04008312) ∧
    (∃ (v : Word) (ch : ChanState), (inA ch).runs .A ∧ v.toNat < 0x03FF7CEE ∨ 0x04008312 < v.toNat) ∧
    (∃ (ch : ChanState), (inA ch).runs .A ∧ ch.ct < 2 ^ 80 ∧ ch.pt1 < 2 ^ 88 ∧ ch.pt2 < 2 ^ 88 ∧ ch.mono < 2 ^ 64) :=
  ⟨⟨0, { id := .A, rst := { held := false }, regs := [(114944, 1678376965)] }, by decide⟩,
   ⟨0, { seq := 0, origin := 0, corr := 0 }, { id := .A, rst := { held := false }, ptp := [(0, { haveSync := true })], regs := [(114944, 1678376965)] }, by decide⟩,
   ⟨0, { seq := 0, origin := 0, corr := 0 }, { id := .A, rst := { held := false } }, by decide⟩,
   ⟨0, { id := .A, rst := { held := false }, regs := [(114944, 1678376965)] }, by decide⟩,
   ⟨0, { gm := 2, rank := 3 }, { id := .A, rst := { held := false }, ptp := [(0, { gmSet := true, rank := 6 })], regs := [(114944, 1678376965)] }, by decide⟩,
   ⟨0, { gm := 2, rank := 3 }, { id := .A, rst := { held := false }, ptp := [(0, { gmSet := true })], regs := [(114944, 1678376965)] }, by decide⟩,
   ⟨0, { id := .A, rst := { held := false }, regs := [(114944, 1678376965)] }, by decide⟩,
   ⟨0, { seq := 77, t4 := 785032, corr := -33 }, 0, 0, { id := .A, rst := { held := false }, ptp := [(0, { syncOrg := some 0, reqSeq := 77, reqTx := some 0, haveSync := true })], regs := [(114944, 1678376961)] }, by decide⟩,
   ⟨0, { seq := 0, t4 := 0, corr := 0 }, { id := .A, rst := { held := false } }, by decide⟩,
   ⟨0, { id := .A, rst := { held := false }, regs := [(114944, 1678376965)] }, by decide⟩,
   ⟨67111252, { id := .A, rst := { held := false } }, by decide⟩,
   ⟨0, { id := .A, rst := { held := false } }, by decide⟩,
   ⟨{ id := .A, rst := { held := false } }, by decide⟩⟩

theorem witness_TimeEvents :
    (∃ (n : Fin 8) (v : Word) (ch : ChanState), (inA ch).runs .A ∧ (ch.get (Reg.TIM_EVCFG_MODE n) = 1 ∨ ch.get (Reg.TIM_EVCFG_MODE n) = 2) ∧ ch.dom (ch.get (Reg.TIM_EVCFG_DOM n)) < v.toNat * 2 ^ 32 + ch.get (Reg.TIM_EVTGT_LO n) ∧ v.toNat * 2 ^ 32 + ch.get (Reg.TIM_EVTGT_LO n) ≤ ch.dom (ch.get (Reg.TIM_EVCFG_DOM n)) + 2147483647) ∧
    (∃ (n : Fin 8) (v : Word) (ch : ChanState), (inA ch).runs .A ∧ (ch.get (Reg.TIM_EVCFG_MODE n) = 1 ∨ ch.get (Reg.TIM_EVCFG_MODE n) = 2) ∧ ch.get (Reg.TIM_EVCFG_DOM n) = 3 ∧ ch.mono < 2 ^ 63 ∧ v.toNat * 2 ^ 32 + ch.get (Reg.TIM_EVTGT_LO n) ≤ ch.mono ∧ ch.mono ≤ v.toNat * 2 ^ 32 + ch.get (Reg.TIM_EVTGT_LO n) + 2147483647) ∧
    (∃ (n : Fin 8) (v : Word) (ch : ChanState), (inA ch).runs .A ∧ (ch.get (Reg.TIM_EVCFG_MODE n) = 1 ∨ ch.get (Reg.TIM_EVCFG_MODE n) = 2) ∧ (v.toNat * 2 ^ 32 + ch.get (Reg.TIM_EVTGT_LO n) + 2147483647 < ch.dom (ch.get (Reg.TIM_EVCFG_DOM n)) ∨ ch.dom (ch.get (Reg.TIM_EVCFG_DOM n)) + 2147483647 < v.toNat * 2 ^ 32 + ch.get (Reg.TIM_EVTGT_LO n))) ∧
    (∃ (n : Fin 8) (ch : ChanState), (inA ch).runs .A ∧ ch.get (Reg.TIM_EVCFG_MODE n) = 0 ∨ ch.get (Reg.TIM_EVCFG_MODE n) = 3) ∧
    (∃ (v : Word) (ch : ChanState), (inA ch).runs .A ∧ v.toNat ≤ 2147483647) ∧
    (∃ (v : Word) (ch : ChanState), (inA ch).runs .A ∧ 2147483647 < v.toNat) ∧
    (∃ (n : Fin 8) (t : Nat) (ch : ChanState), (inA ch).runs .A ∧ (t < 2 ^ 60) ∧ ch.bit (Reg.TIM_EVSTS_ARMED n) = true ∧ ch.get (Reg.TIM_EVCFG_DOM n) = 3 ∧ ch.mono < 2 ^ 60 ∧ (ch.tevU n).tgt = (ch.mono + t % 2147483648) % 2 ^ 32) ∧
    (∃ (n : Fin 8) (ch : ChanState), (inA ch).runs .A ∧ ch.bit (Reg.TIM_EVSTS_ARMED n) = false) ∧
    (∃ (n : Fin 8) (t : Nat) (ch : ChanState), (inA ch).runs .A ∧ (t < 2 ^ 60) ∧ (ch.tevU n).pinTill = some t ∧ ch.mono < 2 ^ 60) :=
  ⟨⟨0, 0, { id := .A, rst := { held := false }, regs := [(115712, 2), (115716, 7)] }, by decide⟩,
   ⟨0, 0, { id := .A, rst := { held := false }, regs := [(115712, 49)] }, by decide⟩,
   ⟨0, 1552853156, { id := .A, rst := { held := false }, regs := [(115712, 1)] }, by decide⟩,
   ⟨0, { id := .A, rst := { held := false } }, by decide⟩,
   ⟨0, { id := .A, rst := { held := false } }, by decide⟩,
   ⟨4294967295, { id := .A, rst := { held := false } }, by decide⟩,
   ⟨0, 0, { id := .A, rst := { held := false }, regs := [(115712, 49), (115732, 1)] }, by decide⟩,
   ⟨0, { id := .A, rst := { held := false } }, by decide⟩,
   ⟨0, 0, { id := .A, rst := { held := false }, tev := [(0, { pinTill := some 0 })] }, by decide⟩⟩

set_option maxRecDepth 100000 in
theorem witness_RedundantPairs :
    (∃ (ch : ChanState), (inA ch).runs .A ∧ ch.bit Reg.RED_STS_ACT = true ∧ ch.paced) ∧
    (∃ (ch : ChanState), (inA ch).runs .A ∧ ch.bit Reg.RED_STS_ACT = false) ∧
    (∃ (ch : ChanState), (inA ch).runs .A ∧ ch.get Reg.CHN_STATE_CODE = 9 ∧ ch.bit Reg.RED_CFG_EN = true ∧ ch.red.staged = [] ∧ ch.red.syncAt = none) ∧
    (∃ (k : Nat) (bs : List Byte) (ch : ChanState), (inA ch).runs .A ∧ ch.get Reg.CHN_STATE_CODE = 9 ∧ ch.bit Reg.RED_CFG_EN = true ∧ ch.red.staged = [bs] ∧ usable bs = true ∧ ch.red.syncAt = some k ∧ k + 2 ≤ ch.cycle ∧ leAt bs 0x24 1 % 16 ∈ [3, 4, 5, 6] ∧ ch.paced) ∧
    (∃ (k : Nat) (ch : ChanState), (inA ch).runs .A ∧ (k < 2 ^ 40) ∧ ch.get Reg.CHN_STATE_CODE ≠ 9 ∨ ch.bit Reg.RED_CFG_EN = false ∨ (ch.red.syncAt = some k ∧ ch.cycle ≤ k ∧ ch.paced)) ∧
    (∃ (key : BitVec 16) (ch : ChanState), (inA ch).runs .A ∧ key ≠ 0x57A7) ∧
    (∃ (ch : ChanState), (inA ch).runs .A ∧ ch.bit Reg.RED_STS_ACT = true ∧ ch.get Reg.CHN_STATE_CODE = 4 ∧ ch.allRest = true ∧ (ch.red.pstate = 9 ∨ ch.red.pstate = 10)) ∧
    (∃ (ch : ChanState), (inA ch).runs .A ∧ ch.bit Reg.RED_STS_ACT = false ∨ ch.get Reg.CHN_STATE_CODE ≠ 4 ∨ ch.allRest = false ∨ (ch.red.pstate ≠ 9 ∧ ch.red.pstate ≠ 10)) ∧
    (∃ (key : BitVec 16) (ch : ChanState), (inA ch).runs .A ∧ key ≠ 0x57A7) ∧
    (∃ (ch : ChanState), (inA ch).runs .A ∧ ch.bit Reg.RED_STS_ACT = true ∧ ch.get Reg.CHN_STATE_CODE = 4 ∧ ch.allRest = true ∧ (ch.red.pstate = 9 ∨ ch.red.pstate = 10)) ∧
    (∃ (ch : ChanState), (inA ch).runs .A ∧ ch.bit Reg.RED_STS_ACT = false ∨ ch.get Reg.CHN_STATE_CODE ≠ 4 ∨ ch.allRest = false ∨ (ch.red.pstate ≠ 9 ∧ ch.red.pstate ≠ 10)) ∧
    (∃ (k : Nat) (ch : ChanState), (inA ch).runs .A ∧ (k < 2 ^ 40) ∧ ch.red.yieldAt = some k) ∧
    (∃ (ch : ChanState), (inA ch).runs .A ∧ ch.red.yieldAt = none) ∧
    (∃ (bs : List Byte) (b2 : List Byte) (ch : ChanState), (inA ch).runs .A ∧ ch.get Reg.CHN_STATE_CODE = 0xA ∧ ch.red.staged = [bs, b2] ∧ usable bs = true ∧ leAt bs 0x18 4 = (leAt b2 0x18 4 + 1) % 2 ^ 32 ∧ ch.paced ∧ ch.bit Reg.RED_CFG_EN = true) ∧
    (∃ (ch : ChanState), (inA ch).runs .A ∧ ch.get Reg.CHN_STATE_CODE ≠ 0xA ∨ ch.red.staged.length < 2) ∧
    (∃ (ch : ChanState), (inA ch).runs .A ∧ ch.nvm.dage ≤ ch.get Reg.RED_DMAX_HRS) ∧
    (∃ (ch : ChanState), (inA ch).runs .A ∧ ch.get Reg.RED_DMAX_HRS < ch.nvm.dage) :=
  ⟨⟨{ id := .A, rst := { held := false }, regs := [(118788, 8)] }, by decide⟩,
   ⟨{ id := .A, rst := { held := false } }, by decide⟩,
   ⟨{ id := .A, rst := { held := false }, regs := [(4, 9), (118784, 3355443201)] }, by decide⟩,
   ⟨0, (List.replicate 36 0 ++ [3, 0, 0, 0, 0x4F, 0xA5, 0x9D, 0xA0]), { id := .A, rst := { held := false }, ct := 2 ^ 32, regs := [(4, 9), (0x1D000, 1)], red := { staged := [(List.replicate 36 0 ++ [3, 0, 0, 0, 0x4F, 0xA5, 0x9D, 0xA0])], syncAt := some 0 } }, by decide⟩,
   ⟨0, { id := .A, rst := { held := false } }, by decide⟩,
   ⟨0, { id := .A, rst := { held := false } }, by decide⟩,
   ⟨{ id := .A, rst := { held := false }, red := { pstate := 9 }, regs := [(4, 4), (118788, 8)] }, by decide⟩,
   ⟨{ id := .A, rst := { held := false } }, by decide⟩,
   ⟨0, { id := .A, rst := { held := false } }, by decide⟩,
   ⟨{ id := .A, rst := { held := false }, red := { pstate := 9 }, regs := [(4, 4), (118788, 8)] }, by decide⟩,
   ⟨{ id := .A, rst := { held := false } }, by decide⟩,
   ⟨0, { id := .A, rst := { held := false }, red := { yieldAt := some 0 } }, by decide⟩,
   ⟨{ id := .A, rst := { held := false } }, by decide⟩,
   ⟨(List.replicate 24 0 ++ [1] ++ List.replicate 11 0 ++ [3, 0, 0, 0, 177, 168, 145, 82]), [], { id := .A, rst := { held := false }, regs := [(4, 10), (0x1D000, 1)], red := { staged := [(List.replicate 24 0 ++ [1] ++ List.replicate 11 0 ++ [3, 0, 0, 0, 177, 168, 145, 82]), []] } }, by decide⟩,
   ⟨{ id := .A, rst := { held := false } }, by decide⟩,
   ⟨{ id := .A, rst := { held := false }, nvm := { dage := 0 } }, by decide⟩,
   ⟨{ id := .A, rst := { held := false } }, by decide⟩⟩

theorem witness_HostFunctions :
    (∃ (c : Chan) (s : State), s.present c = true) ∧
    (∃ (c : Chan) (s : State), s.present c = true) ∧
    (∃ (c : Chan) (s : State), s.present c = true) ∧
    (∃ (c : Chan) (s : State), s.present c = true) ∧
    (∃ (c : Chan) (s : State), s.present c = true) ∧
    (∃ (c : Chan) (s : State), s.present c = true) ∧
    (∃ (c : Chan) (s : State), s.present c = true) ∧
    (∃ (s : State), s.variant = .EV7208) ∧
    (∃ (s : State), s.variant = .EV7208) :=
  ⟨⟨.A, { State.reset with chA := { id := .A, rst := { held := false } }, chB := { id := .B, rst := { held := false } } }, by decide⟩,
   ⟨.A, { State.reset with chA := { id := .A, rst := { held := false } }, chB := { id := .B, rst := { held := false } } }, by decide⟩,
   ⟨.A, { State.reset with chA := { id := .A, rst := { held := false } }, chB := { id := .B, rst := { held := false } } }, by decide⟩,
   ⟨.A, { State.reset with chA := { id := .A, rst := { held := false } }, chB := { id := .B, rst := { held := false } } }, by decide⟩,
   ⟨.A, { State.reset with chA := { id := .A, rst := { held := false } }, chB := { id := .B, rst := { held := false } } }, by decide⟩,
   ⟨.A, { State.reset with chA := { id := .A, rst := { held := false } }, chB := { id := .B, rst := { held := false } } }, by decide⟩,
   ⟨.A, { State.reset with chA := { id := .A, rst := { held := false } }, chB := { id := .B, rst := { held := false } } }, by decide⟩,
   ⟨{ State.reset with chA := { id := .A, rst := { held := false } }, chB := { id := .B, rst := { held := false } }, variant := .EV7208 }, by decide⟩,
   ⟨{ State.reset with chA := { id := .A, rst := { held := false } }, chB := { id := .B, rst := { held := false } }, variant := .EV7208 }, by decide⟩⟩

theorem witness_HostAccesses :
    (∃ (c : Chan) (p : Path) (o : BitVec 20) (v : Word) (be : BitVec 4) (r : Row) (s : State), s.answers c o.toNat = true ∧ (p = .spi ∨ (s.chan c).fn.open_ = true ∧ be = 15) ∧ plainReg o.toNat v.toNat ∧ rowAt o.toNat = some r ∧ r.rw = 0xFFFFFFFF) ∧
    (∃ (c : Chan) (p : Path) (o : BitVec 20) (v : Word) (be : BitVec 4) (r : Row) (s : State), s.answers c o.toNat = true ∧ (s.chan c).unlocked = false ∧ (p = .spi ∨ (s.chan c).fn.open_ = true ∧ be = 15) ∧ plainReg o.toNat v.toNat ∧ rowAt o.toNat = some r ∧ r.rw = 0 ∧ r.w1c = 0 ∧ r.rwl ≠ 0) ∧
    (∃ (c : Chan) (be : BitVec 4) (s : State), s.present c = true ∧ (s.chan c).fn.open_ = true ∧ be ≠ 15) ∧
    (∃ (c : Chan) (s : State), s.present c = true ∧ (s.chan c).fn.open_ = false) ∧
    (∃ (c : Chan) (o : BitVec 20) (s : State), s.present c = true ∧ (s.chan c).rst.held = true ∧ (o.toNat < 0x1F000 ∨ 0x20000 ≤ o.toNat)) ∧
    (∃ (c : Chan) (p : Path) (w : BitVec 26) (bs : List Byte) (s : State), s.answers c 0 = true ∧ (p = .spi ∨ (s.chan c).fn.open_ = true) ∧ w.toNat + bs.length ≤ 0x100000) ∧
    (∃ (c : Chan) (p : Path) (w : BitVec 26) (bs : List Byte) (s : State), s.answers c 0 = true ∧ (p = .spi ∨ (s.chan c).fn.open_ = true) ∧ bs ≠ [] ∧ 0x3000000 ≤ w.toNat ∧ w.toNat + bs.length ≤ 0x3200000) ∧
    (∃ (c : Chan) (o : BitVec 20) (s : State), s.answers c o.toNat = true ∧ (s.chan c).fn.open_ = true ∧ isLow o.toNat = true) ∧
    (∃ (c : Chan) (o : BitVec 20) (v : Word) (s : State), s.answers c o.toNat = true ∧ (s.chan c).fn.open_ = true ∧ 4 ≤ o.toNat ∧ isLow (o.toNat - 4) = true ∧ isLow o.toNat = false ∧ o.toNat ≠ 0x4000 ∧ o.toNat ≠ 0x1600C ∧ (s.chan c).fn.pcie = some (o.toNat - 4, v)) ∧
    (∃ (c : Chan) (o : BitVec 20) (s : State), s.answers c o.toNat = true ∧ (s.chan c).fn.open_ = true ∧ isLow o.toNat = false ∧ o.toNat ≠ 0x4000 ∧ o.toNat ≠ 0x1600C ∧ ((s.chan c).fn.pcie = none ∨ ∃ l, (s.chan c).fn.pcie = some l ∧ l.1 + 4 ≠ o.toNat)) ∧
    (∃ (c : Chan) (o : BitVec 20) (s : State), s.present c = true ∧ s.answers c o.toNat = false ∧ (s.chan c).fn.open_ = true) ∧
    (∃ (c : Chan) (a : BitVec 24) (s : State), spiOk a.toNat = true ∧ tbit a.toNat 22 = false ∧ spiChan a.toNat = c ∧ s.answers c (a.toNat % 2 ^ 22) = true ∧ isLow (a.toNat % 2 ^ 22) = true ∧ a.toNat % 2 ^ 22 < 0x20000) ∧
    (∃ (c : Chan) (a : BitVec 24) (s : State), spiOk a.toNat = true ∧ tbit a.toNat 22 = true ∧ spiChan a.toNat = c ∧ s.answers c 0 = true ∧ tbit (a.toNat + 4) 22 = true ∧ spiChan (a.toNat + 4) = c) ∧
    (∃ (c : Chan) (a : BitVec 24) (s : State), spiOk a.toNat = false ∧ spiChan a.toNat = c ∧ s.present c = true) ∧
    (∃ (c : Chan) (v : Word) (a : BitVec 24) (r : Row) (s : State), spiOk a.toNat = true ∧ tbit a.toNat 22 = false ∧ spiChan a.toNat = c ∧ s.answers c (a.toNat % 2 ^ 22) = true ∧ plainReg (a.toNat % 2 ^ 22) v.toNat ∧ rowAt (a.toNat % 2 ^ 22) = some r ∧ r.rw = 0xFFFFFFFF) ∧
    (∃ (c : Chan) (a : BitVec 24) (s : State), spiOk a.toNat = true ∧ tbit a.toNat 22 = true ∧ spiChan a.toNat = c ∧ s.answers c 0 = true ∧ s.spiWin a.toNat + 4 ≤ 0x100000) ∧
    (∃ (c : Chan) (s : State), s.dev.spiSel = some c ∧ s.present c = true) ∧
    (∃ (c : Chan) (k : TrcWord) (rest : List TrcWord) (s : State), s.answers c 0x4000 = true ∧ (s.chan c).fn.open_ = true ∧ (s.chan c).trc.store = k :: rest ∧ k.bytes.length ≤ 8) ∧
    (∃ (c : Chan) (s : State), s.answers c 0x4000 = true ∧ (s.chan c).fn.open_ = true ∧ (s.chan c).trc.store = []) :=
  ⟨⟨.A, .pcie, 58120, 0, 15, { base := 57352, s1 := 128, n1 := 64, s2 := 4, n2 := 1, rst := 0, rw := 4294967295, rwl := 0, w1c := 0, wo := 0 }, { State.reset with chA := { id := .A, rst := { held := false }, fn := { mse := true } }, chB := { id := .B, rst := { held := false } } }, by decide⟩,
   ⟨.A, .pcie, 34144, 0, 15, { base := 32864, s1 := 256, n1 := 64, s2 := 4, n2 := 1, rst := 0, rw := 0, rwl := 536813567, w1c := 0, wo := 0 }, { State.reset with chA := { id := .A, rst := { held := false }, fn := { mse := true } }, chB := { id := .B, rst := { held := false } } }, by decide⟩,
   ⟨.A, 0, { State.reset with chA := { id := .A, rst := { held := false }, fn := { mse := true } }, chB := { id := .B, rst := { held := false } } }, by decide⟩,
   ⟨.A, { State.reset with chA := { id := .A, rst := { held := false } }, chB := { id := .B, rst := { held := false } } }, by decide⟩,
   ⟨.A, 0, { State.reset with chA := { id := .A, rst := {} }, chB := { id := .B, rst := { held := false } } }, by decide⟩,
   ⟨.A, .pcie, 0, [], { State.reset with chA := { id := .A, rst := { held := false }, fn := { mse := true } }, chB := { id := .B, rst := { held := false } } }, by decide⟩,
   ⟨.A, .pcie, 51202239, [255, 0, 13], { State.reset with chA := { id := .A, rst := { held := false }, fn := { mse := true } }, chB := { id := .B, rst := { held := false } } }, by decide⟩,
   ⟨.A, 59840, { State.reset with chA := { id := .A, rst := { held := false }, fn := { mse := true } }, chB := { id := .B, rst := { held := false } } }, by decide⟩,
   ⟨.A, 59844, 0, { State.reset with chA := { id := .A, rst := { held := false }, fn := { mse := true, pcie := some (59840, 0) } }, chB := { id := .B, rst := { held := false } } }, by decide⟩,
   ⟨.A, 0, { State.reset with chA := { id := .A, rst := { held := false }, fn := { mse := true } }, chB := { id := .B, rst := { held := false } } }, by decide⟩,
   ⟨.A, 0, { State.reset with chA := { id := .A, rst := {}, fn := { mse := true } }, chB := { id := .B, rst := { held := false } } }, by decide⟩,
   ⟨.A, 73788, { State.reset with chA := { id := .A, rst := { held := false } }, chB := { id := .B, rst := { held := false } } }, by decide⟩,
   ⟨.A, 4351604, { State.reset with chA := { id := .A, rst := { held := false } }, chB := { id := .B, rst := { held := false } } }, by decide⟩,
   ⟨.A, 2989690, { State.reset with chA := { id := .A, rst := { held := false } }, chB := { id := .B, rst := { held := false } } }, by decide⟩,
   ⟨.A, 0, 65168, { base := 57360, s1 := 128, n1 := 64, s2 := 4, n2 := 1, rst := 0, rw := 4294967295, rwl := 0, w1c := 0, wo := 0 }, { State.reset with chA := { id := .A, rst := { held := false } }, chB := { id := .B, rst := { held := false } } }, by decide⟩,
   ⟨.A, 4351604, { State.reset with chA := { id := .A, rst := { held := false } }, chB := { id := .B, rst := { held := false } } }, by decide⟩,
   ⟨.A, { State.reset with chA := { id := .A, rst := { held := false } }, chB := { id := .B, rst := { held := false } }, dev := { spiSel := some (.A) } }, by decide⟩,
   ⟨.A, { bytes := [] }, [], { State.reset with chA := { id := .A, rst := { held := false }, trc := { store := [{ bytes := [] }] }, fn := { mse := true } }, chB := { id := .B, rst := { held := false } } }, by decide⟩,
   ⟨.A, { State.reset with chA := { id := .A, rst := { held := false }, fn := { mse := true } }, chB := { id := .B, rst := { held := false } } }, by decide⟩⟩

theorem witness_TraceAndEvents :
    (∃ (ch : ChanState), (inA ch).runs .A ∧ ch.trc.staging ≠ []) ∧
    (∃ (ir : Bool) (ch : ChanState), (inA ch).runs .A ∧ ir = false ∧ ch.trc.staging = []) ∧
    (∃ (ch : ChanState), (inA ch).runs .A ∧ ch.bit Reg.TRC_STS_FLPEND = true ∧ ch.trc.staging ≠ []) ∧
    (∃ (ch : ChanState), (inA ch).runs .A ∧ ch.bit Reg.TRC_STS_FLPEND = false) ∧
    (∃ (r : TrcRec) (rest : List TrcRec) (ch : ChanState), (inA ch).runs .A ∧ ch.trc.waiting = r :: rest ∧ r.bytes.length ≤ ch.trcFree) ∧
    (∃ (r : TrcRec) (rest : List TrcRec) (ch : ChanState), (inA ch).runs .A ∧ ch.trc.waiting = [] ∨ ch.trc.waiting = r :: rest ∧ ch.trcFree < r.bytes.length) ∧
    (∃ (c : Chan) (s : State), s.runs c ∧ tbit ((s.chan c).get Reg.TRC_SRCEN) 5 = true ∧ (s.chan c).trc.waiting = [] ∧ 4232 ≤ (s.chan c).trcFree ∧ (s.chan c).trc.staging.length < 8) ∧
    (∃ (c : Chan) (s : State), s.runs c ∧ tbit ((s.chan c).get Reg.TRC_SRCEN) 5 = false) ∧
    (∃ (ch : ChanState), (inA ch).runs .A ∧ ch.paced) ∧
    (∃ (c : Chan) (s : State), s.present c = true) :=
  ⟨⟨{ id := .A, rst := { held := false }, trc := { staging := [1, 2, 3] } }, by decide⟩,
   ⟨false, { id := .A, rst := { held := false } }, by decide⟩,
   ⟨{ id := .A, rst := { held := false }, trc := { staging := [1, 2, 3] }, regs := [(16408, 16)] }, by decide⟩,
   ⟨{ id := .A, rst := { held := false } }, by decide⟩,
   ⟨{ src := 0, bytes := [] }, [], { id := .A, rst := { held := false }, trc := { waiting := [{ src := 0, bytes := [] }] } }, by decide⟩,
   ⟨{ src := 0, bytes := [] }, [], { id := .A, rst := { held := false } }, by decide⟩,
   ⟨.A, { State.reset with chA := { id := .A, rst := { held := false } }, chB := { id := .B, rst := { held := false } } }, by decide⟩,
   ⟨.A, { State.reset with chA := { id := .A, rst := { held := false }, regs := [(16432, 1024)] }, chB := { id := .B, rst := { held := false } } }, by decide⟩,
   ⟨{ id := .A, rst := { held := false } }, by decide⟩,
   ⟨.A, { State.reset with chA := { id := .A, rst := { held := false } }, chB := { id := .B, rst := { held := false } } }, by decide⟩⟩

set_option maxRecDepth 100000 in
theorem witness_ConfigurationSlots :
    (∃ (key : BitVec 16) (ch : ChanState), (inA ch).runs .A ∧ key ≠ 0x57A7) ∧
    (∃ (key : BitVec 16) (ch : ChanState), (inA ch).runs .A ∧ key ≠ 0x57A7) ∧
    (∃ (bs : List Byte) (ch : ChanState), (inA ch).runs .A ∧ ch.slotReady = true ∧ ch.nvm.sfdp ≠ 0 ∧ ch.stagedImage = some bs ∧ (ch.chosenSeq.all fun q => decide (0 < wrapS 32 ((imgSeq bs : Int) - q))) = true) ∧
    (∃ (ch : ChanState), (inA ch).runs .A ∧ ch.slotReady = false ∨ ch.nvm.sfdp = 0) ∧
    (∃ (ch : ChanState), (inA ch).runs .A ∧ ch.slotReady = true ∧ ch.nvm.sfdp ≠ 0 ∧ ch.stagedImage = none) ∧
    (∃ (bs : List Byte) (ch : ChanState), (inA ch).runs .A ∧ ch.slotReady = true ∧ ch.nvm.sfdp ≠ 0 ∧ ch.stagedImage = some bs ∧ (ch.chosenSeq.any fun q => decide (wrapS 32 ((imgSeq bs : Int) - q) ≤ 0)) = true) ∧
    (∃ (bs : List Byte) (n : Nat) (ch : ChanState), (inA ch).runs .A ∧ ch.cfg.job = some ⟨true, n, bs⟩) ∧
    (∃ (bs : List Byte) (n : Nat) (ch : ChanState), (inA ch).runs .A ∧ ch.cfg.job = some ⟨true, n, bs⟩) ∧
    (∃ (ch : ChanState), (inA ch).runs .A ∧ ch.slotReady = true ∧ slotValid (ch.slot ch.targetSlot) = true) ∧
    (∃ (ch : ChanState), (inA ch).runs .A ∧ ch.slotReady = true ∧ slotValid (ch.slot ch.targetSlot) = false) ∧
    (∃ (bs : List Byte) (n : Nat) (ch : ChanState), (inA ch).runs .A ∧ ch.cfg.job = some ⟨false, n, bs⟩) ∧
    (∃ (v : Word) (ch : ChanState), (inA ch).runs .A ∧ ch.get Reg.CHN_STATE_CODE = 2 ∧ ch.get Reg.CFG_STS_RES = 5 ∧ ch.slotReady = true ∧ ch.nvm.sfdp ≠ 0 ∧ v.toNat = ch.get Reg.CHN_ID_BCODE ∧ ch.cfg.barm = none) ∧
    (∃ (v : Word) (t : Nat) (ch : ChanState), (inA ch).runs .A ∧ (t < 2 ^ 63) ∧ ch.get Reg.CHN_STATE_CODE = 2 ∧ ch.get Reg.CFG_STS_RES = 5 ∧ ch.slotReady = true ∧ ch.nvm.sfdp ≠ 0 ∧ v.toNat = ch.get Reg.CHN_ID_BCODE ∧ ch.cfg.barm = some t ∧ ch.bit Reg.SAF_STS_RSTQ = true ∧ 128 ≤ imgLen (ch.slot (ch.get Reg.CFG_STS_ACT)) ∧ imgLen (ch.slot (ch.get Reg.CFG_STS_ACT)) ≤ (ch.slot (ch.get Reg.CFG_STS_ACT)).length) ∧
    (∃ (v : Word) (t : Nat) (ch : ChanState), (inA ch).runs .A ∧ (t < 2 ^ 63) ∧ ch.get Reg.CHN_STATE_CODE ≠ 2 ∨ ch.get Reg.CFG_STS_RES ≠ 5 ∨ v.toNat ≠ ch.get Reg.CHN_ID_BCODE ∨ ch.cfg.barm = some t ∧ ch.bit Reg.SAF_STS_RSTQ = false) ∧
    (∃ (t : Nat) (ch : ChanState), (inA ch).runs .A ∧ (t < 2 ^ 63) ∧ ch.cfg.barm = some t) :=
  ⟨⟨0, { id := .A, rst := { held := false } }, by decide⟩,
   ⟨0, { id := .A, rst := { held := false } }, by decide⟩,
   ⟨([69, 86, 67, 73, 1, 0, 128, 0, 122, 0, 0, 0, 132, 0, 0, 0, 16, 5, 65, 184, 226] ++ List.replicate 7 0 ++ [3] ++ List.replicate 35 0 ++ [209, 21, 185, 63, 192, 135, 178, 254, 15, 166, 50, 98, 210, 30, 124, 63, 163, 191, 178, 227, 52, 25, 255, 26, 211, 92, 211, 203, 125, 214, 60, 219] ++ List.replicate 28 0 ++ [158, 10, 227, 242, 213, 0, 0, 0]), { id := .A, rst := { held := false }, cfg := { stage := [(0, 69), (1, 86), (2, 67), (3, 73), (4, 1), (6, 128), (8, 122), (12, 132), (16, 16), (17, 5), (18, 65), (19, 184), (20, 226), (28, 3), (64, 209), (65, 21), (66, 185), (67, 63), (68, 192), (69, 135), (70, 178), (71, 254), (72, 15), (73, 166), (74, 50), (75, 98), (76, 210), (77, 30), (78, 124), (79, 63), (80, 163), (81, 191), (82, 178), (83, 227), (84, 52), (85, 25), (86, 255), (87, 26), (88, 211), (89, 92), (90, 211), (91, 203), (92, 125), (93, 214), (94, 60), (95, 219), (124, 158), (125, 10), (126, 227), (127, 242), (128, 213)] }, regs := [(4, 2)] }, by decide⟩,
   ⟨{ id := .A, rst := { held := false } }, by decide⟩,
   ⟨{ id := .A, rst := { held := false }, regs := [(4, 2)] }, by decide⟩,
   ⟨([69, 86, 67, 73, 1, 0, 128, 0, 122, 0, 0, 0, 132, 0, 0, 0, 16, 5, 65, 184, 226] ++ List.replicate 7 0 ++ [3] ++ List.replicate 35 0 ++ [209, 21, 185, 63, 192, 135, 178, 254, 15, 166, 50, 98, 210, 30, 124, 63, 163, 191, 178, 227, 52, 25, 255, 26, 211, 92, 211, 203, 125, 214, 60, 219] ++ List.replicate 28 0 ++ [158, 10, 227, 242, 213, 0, 0, 0]), { id := .A, rst := { held := false }, cfg := { stage := [(0, 69), (1, 86), (2, 67), (3, 73), (4, 1), (6, 128), (8, 122), (12, 132), (16, 16), (17, 5), (18, 65), (19, 184), (20, 226), (28, 3), (64, 209), (65, 21), (66, 185), (67, 63), (68, 192), (69, 135), (70, 178), (71, 254), (72, 15), (73, 166), (74, 50), (75, 98), (76, 210), (77, 30), (78, 124), (79, 63), (80, 163), (81, 191), (82, 178), (83, 227), (84, 52), (85, 25), (86, 255), (87, 26), (88, 211), (89, 92), (90, 211), (91, 203), (92, 125), (93, 214), (94, 60), (95, 219), (124, 158), (125, 10), (126, 227), (127, 242), (128, 213)] }, regs := [(4, 2), (8448, 4), (8512, 136)] }, by decide⟩,
   ⟨[], 0, { id := .A, rst := { held := false }, cfg := { job := some { write := true, slot := 0, bytes := [] } } }, by decide⟩,
   ⟨[], 0, { id := .A, rst := { held := false }, cfg := { job := some { write := true, slot := 0, bytes := [] } } }, by decide⟩,
   ⟨{ id := .A, rst := { held := false }, nvm := { slots := [(0, ([69, 86, 67, 73, 1, 0, 128, 0, 122, 0, 0, 0, 132, 0, 0, 0, 16, 5, 65, 184, 226] ++ List.replicate 7 0 ++ [3] ++ List.replicate 35 0 ++ [209, 21, 185, 63, 192, 135, 178, 254, 15, 166, 50, 98, 210, 30, 124, 63, 163, 191, 178, 227, 52, 25, 255, 26, 211, 92, 211, 203, 125, 214, 60, 219] ++ List.replicate 28 0 ++ [158, 10, 227, 242, 213, 0, 0, 0])), (1, ([69, 86, 67, 73, 1, 0, 128, 0, 122, 0, 0, 0, 132, 0, 0, 0, 16, 5, 65, 184, 226] ++ List.replicate 7 0 ++ [3] ++ List.replicate 35 0 ++ [209, 21, 185, 63, 192, 135, 178, 254, 15, 166, 50, 98, 210, 30, 124, 63, 163, 191, 178, 227, 52, 25, 255, 26, 211, 92, 211, 203, 125, 214, 60, 219] ++ List.replicate 28 0 ++ [158, 10, 227, 242, 213, 0, 0, 0]))], dage := 65535 }, regs := [(4, 2)] }, by decide⟩,
   ⟨{ id := .A, rst := { held := false }, regs := [(4, 2)] }, by decide⟩,
   ⟨[], 0, { id := .A, rst := { held := false }, cfg := { job := some { write := false, slot := 0, bytes := [] } } }, by decide⟩,
   ⟨0, { id := .A, rst := { held := false }, regs := [(4, 2), (8448, 1280)] }, by decide⟩,
   ⟨0, 0, { id := .A, rst := { held := false }, nvm := { slots := [(0, ([69, 86, 67, 73, 1, 0, 128, 0, 122, 0, 0, 0, 132, 0, 0, 0, 16, 5, 65, 184, 226] ++ List.replicate 7 0 ++ [3] ++ List.replicate 35 0 ++ [209, 21, 185, 63, 192, 135, 178, 254, 15, 166, 50, 98, 210, 30, 124, 63, 163, 191, 178, 227, 52, 25, 255, 26, 211, 92, 211, 203, 125, 214, 60, 219] ++ List.replicate 28 0 ++ [158, 10, 227, 242, 213, 0, 0, 0])), (1, ([69, 86, 67, 73, 1, 0, 128, 0, 122, 0, 0, 0, 132, 0, 0, 0, 16, 5, 65, 184, 226] ++ List.replicate 7 0 ++ [3] ++ List.replicate 35 0 ++ [209, 21, 185, 63, 192, 135, 178, 254, 15, 166, 50, 98, 210, 30, 124, 63, 163, 191, 178, 227, 52, 25, 255, 26, 211, 92, 211, 203, 125, 214, 60, 219] ++ List.replicate 28 0 ++ [158, 10, 227, 242, 213, 0, 0, 0]))], dage := 65535 }, cfg := { barm := some 0 }, regs := [(4, 2), (8448, 1280), (90116, 1)] }, by decide⟩,
   ⟨0, 0, { id := .A, rst := { held := false } }, by decide⟩,
   ⟨0, { id := .A, rst := { held := false }, cfg := { barm := some 0 } }, by decide⟩⟩

set_option maxRecDepth 100000 in
theorem witness_FirmwareAndFuses :
    (∃ (ch : ChanState), (inA ch).runs .A ∧ ch.updGate = 0) ∧
    (∃ (ch : ChanState), (inA ch).runs .A ∧ ch.get Reg.CHN_STATE_CODE ≠ 8 ∧ ch.get Reg.CHN_STATE_CODE ≠ 0xB) ∧
    (∃ (ch : ChanState), (inA ch).runs .A ∧ ch.cfg.upd = some .start) ∧
    (∃ (p : Progress) (ch : ChanState), (inA ch).runs .A ∧ ch.updGate = 0 ∧ ch.nvm.prog = some p) ∧
    (∃ (ch : ChanState), (inA ch).runs .A ∧ ch.updGate = 0 ∧ ch.nvm.prog = none) ∧
    (∃ (ch : ChanState), (inA ch).runs .A ∧ ch.bit Reg.UPD_STS_ACTIVE = true ∧ ch.bit Reg.UPD_STS_BUSY = false ∧ ch.blockReason (ch.staged (ch.get Reg.UPD_BLEN_LEN)) = 0) ∧
    (∃ (ch : ChanState), (inA ch).runs .A ∧ ch.bit Reg.UPD_STS_ACTIVE = true ∧ ch.bit Reg.UPD_STS_BUSY = false ∧ ch.blockReason (ch.staged (ch.get Reg.UPD_BLEN_LEN)) ≠ 0) ∧
    (∃ (bs : List Byte) (n : Nat) (ch : ChanState), (inA ch).runs .A ∧ ch.cfg.upd = some (.block n bs)) ∧
    (∃ (bs : List Byte) (n : Nat) (ch : ChanState), (inA ch).runs .A ∧ ch.cfg.upd = some (.block n bs) ∧ n ≠ 0) ∧
    (∃ (ch : ChanState), (inA ch).runs .A ∧ ch.bit Reg.UPD_STS_ACTIVE = true ∧ ch.bit Reg.UPD_STS_BUSY = false ∧ ch.get Reg.UPD_NEXT_NEXT = ch.cfg.updLen) ∧
    (∃ (ch : ChanState), (inA ch).runs .A ∧ ch.bit Reg.UPD_STS_ACTIVE = false ∨ ch.bit Reg.UPD_STS_BUSY = true) ∧
    (∃ (sig : Bool) (ch : ChanState), (inA ch).runs .A ∧ ch.cfg.upd = some .finish ∧ (fwSha ((ch.cfg.head ++ ch.nvm.fwBody).take ch.cfg.updLen) ≠ (ch.cfg.head.drop 32).take 32 ∨ sig = false)) ∧
    (∃ (ch : ChanState), (inA ch).runs .A ∧ ch.cfg.upd = some .finish ∧ fwSha ((ch.cfg.head ++ ch.nvm.fwBody).take ch.cfg.updLen) = (ch.cfg.head.drop 32).take 32 ∧ ch.burnHot = false) ∧
    (∃ (ch : ChanState), (inA ch).runs .A ∧ ch.bit Reg.UPD_STS_ACTIVE = true ∧ ch.bit Reg.UPD_STS_BUSY = false) ∧
    (∃ (ch : ChanState), (inA ch).runs .A ∧ ch.bit Reg.RST_FSTS_BUSY = false ∧ ch.get Reg.CHN_STATE_CODE = 8 ∧ ch.rst.fuseProg = false ∧ ch.burnHot = false) ∧
    (∃ (ch : ChanState), (inA ch).runs .A ∧ ch.bit Reg.RST_FSTS_BUSY = false ∧ (ch.get Reg.CHN_STATE_CODE ≠ 8 ∨ ch.rst.fuseProg = true ∨ ch.burnHot = true)) ∧
    (∃ (ch : ChanState), (inA ch).runs .A ∧ ch.bit Reg.RST_FSTS_BUSY = true) :=
  ⟨⟨{ id := .A, rst := { held := false }, regs := [(4, 8)] }, by decide⟩,
   ⟨{ id := .A, rst := { held := false } }, by decide⟩,
   ⟨{ id := .A, rst := { held := false }, cfg := { upd := some (.start) } }, by decide⟩,
   ⟨{ len := 0, next := 0, head := [] }, { id := .A, rst := { held := false }, nvm := { prog := some { len := 0, next := 0, head := [] }, dage := 65535 }, regs := [(4, 8)] }, by decide⟩,
   ⟨{ id := .A, rst := { held := false }, regs := [(4, 8)] }, by decide⟩,
   ⟨{ id := .A, rst := { held := false }, cfg := { stage := [(0, 69), (1, 86), (2, 67), (3, 73), (4, 1), (6, 128), (8, 24), (12, 132), (16, 249), (17, 114), (18, 219), (19, 116), (20, 106), (28, 3), (64, 10), (65, 218), (66, 149), (67, 93), (68, 143), (69, 99), (70, 16), (71, 172), (72, 81), (73, 152), (74, 234), (75, 14), (76, 151), (77, 32), (78, 216), (79, 162), (80, 86), (81, 244), (82, 84), (83, 232), (84, 113), (85, 7), (86, 251), (87, 64), (88, 97), (89, 207), (90, 39), (91, 217), (92, 147), (93, 5), (94, 64), (95, 84), (124, 160), (125, 187), (126, 209), (127, 73), (128, 17)], updLen := 4228 }, regs := [(12292, 2), (12300, 4096), (12304, 132), (12308, 2551998098), (12312, 4096)] }, by decide⟩,
   ⟨{ id := .A, rst := { held := false }, regs := [(12292, 2)] }, by decide⟩,
   ⟨[], 0, { id := .A, rst := { held := false }, cfg := { upd := some (Sys2Proof.Machine.UpdJob.block 0 []) } }, by decide⟩,
   ⟨[], 8192, { id := .A, rst := { held := false }, cfg := { upd := some (Sys2Proof.Machine.UpdJob.block 8192 []) } }, by decide⟩,
   ⟨{ id := .A, rst := { held := false }, cfg := { updLen := 4100 }, regs := [(12292, 2), (12312, 4100)] }, by decide⟩,
   ⟨{ id := .A, rst := { held := false } }, by decide⟩,
   ⟨false, { id := .A, rst := { held := false }, cfg := { upd := some (.finish) } }, by decide⟩,
   ⟨{ id := .A, rst := { held := false }, cfg := { updLen := 256, head := ([1] ++ List.replicate 31 0 ++ [213, 119, 182, 223, 167, 54, 101, 127, 147, 195, 34, 59, 70, 108, 37, 108, 152, 141, 94, 181, 240, 44, 194, 122, 212, 127, 146, 193, 64, 111, 125, 210] ++ List.replicate 192 0), upd := some (.finish) } }, by decide⟩,
   ⟨{ id := .A, rst := { held := false }, regs := [(12292, 2)] }, by decide⟩,
   ⟨{ id := .A, rst := { held := false }, regs := [(4, 8)] }, by decide⟩,
   ⟨{ id := .A, rst := { held := false } }, by decide⟩,
   ⟨{ id := .A, rst := { held := false }, regs := [(4108, 4)] }, by decide⟩⟩

theorem witness_ResetSources :
    (∃ (c : Chan) (l : Nat) (s : State), (l = 1 ∨ l = 2) ∧ s.runs c ∧ (s.chan c).takes 4 l) ∧
    (∃ (c : Chan) (s : State), (s.chan c).rst.held = true) ∧
    (∃ (c : Chan) (l : Nat) (s : State), (l = 1 ∨ l = 2) ∧ s.runs c ∧ (s.chan c).takes 5 l) ∧
    (∃ (c : Chan) (l : Nat) (s : State), (l = 1 ∨ l = 2) ∧ s.runs c ∧ (s.chan c).takes 8 l) ∧
    (∃ (c : Chan) (l : Nat) (s : State), (l = 1 ∨ l = 2) ∧ s.runs c ∧ (s.chan c).takes 9 l) ∧
    (∃ (c : Chan) (key : BitVec 16) (s : State), s.runs c ∧ key ≠ 0x57A7) ∧
    (∃ (c : Chan) (l : Nat) (s : State), (l = 1 ∨ l = 2) ∧ s.present c = true ∧ (s.chan c).takes 3 l) ∧
    (∃ (c : Chan) (s : State), s.present c = true ∧ (s.chan c).sourceLevel 3 = 0) ∧
    (∃ (c : Chan) (key : BitVec 16) (s : State), s.present c = true ∧ key ≠ 0x57A7) ∧
    (∃ (c : Chan) (l : Nat) (s : State), (l = 1 ∨ l = 2) ∧ s.present c = true ∧ (s.chan c).takes 6 l) ∧
    (∃ (c : Chan) (l : Nat) (s : State), (l = 1 ∨ l = 2) ∧ s.present c = true ∧ (s.chan c).takes 7 l) ∧
    (∃ (c : Chan) (s : State), s.present c = true) ∧
    (∃ (c : Chan) (l : Nat) (s : State), (l = 1 ∨ l = 2) ∧ s.runs c ∧ (s.chan c).takes 10 l) ∧
    (∃ (c : Chan) (s : State), s.present c = true ∧ (s.chan c).takes 11 3 ∧ (s.present (other c) = true → (s.chan (other c)).rst.trim = .loaded)) ∧
    (∃ (c : Chan) (s : State), s.present c = true ∧ (s.chan c).takes 1 2) ∧
    (∃ (c : Chan) (s : State), s.present c = true) ∧
    (∃ (c : Chan) (s : State), s.present c = true) ∧
    (∃ (c : Chan) (s : State), s.present c = true) ∧
    (∃ (c : Chan) (s : State), s.present c = true ∧ (s.chan c).sourceLevel 2 = 0 ∧ (s.chan (other c)).sourceLevel 2 ≠ 3) :=
  ⟨⟨.A, 1, { State.reset with chA := { id := .A, rst := { held := false, trim := .loaded }, regs := [(4, 3)] }, chB := { id := .B, rst := { held := false } } }, by decide⟩,
   ⟨.A, { State.reset with chA := { id := .A, rst := {} }, chB := { id := .B, rst := { held := false } } }, by decide⟩,
   ⟨.A, 2, { State.reset with chA := { id := .A, rst := { held := false, trim := .loaded }, regs := [(4, 4)] }, chB := { id := .B, rst := { held := false } } }, by decide⟩,
   ⟨.A, 2, { State.reset with chA := { id := .A, rst := { held := false, trim := .loaded }, regs := [(4, 4)] }, chB := { id := .B, rst := { held := false } } }, by decide⟩,
   ⟨.A, 1, { State.reset with chA := { id := .A, rst := { held := false, trim := .loaded }, regs := [(4, 3)] }, chB := { id := .B, rst := { held := false } } }, by decide⟩,
   ⟨.A, 0, { State.reset with chA := { id := .A, rst := { held := false } }, chB := { id := .B, rst := { held := false } } }, by decide⟩,
   ⟨.A, 1, { State.reset with chA := { id := .A, rst := { held := false, trim := .loaded, fuseTab := 64, fuseProg := true }, regs := [(4, 3)] }, chB := { id := .B, rst := { held := false } } }, by decide⟩,
   ⟨.A, { State.reset with chA := { id := .A, rst := { held := false, trim := .held } }, chB := { id := .B, rst := { held := false } } }, by decide⟩,
   ⟨.A, 0, { State.reset with chA := { id := .A, rst := { held := false } }, chB := { id := .B, rst := { held := false } } }, by decide⟩,
   ⟨.A, 2, { State.reset with chA := { id := .A, rst := { held := false, trim := .loaded }, regs := [(4, 4)] }, chB := { id := .B, rst := { held := false } } }, by decide⟩,
   ⟨.A, 2, { State.reset with chA := { id := .A, rst := { held := false, trim := .loaded }, regs := [(4, 4)] }, chB := { id := .B, rst := { held := false } } }, by decide⟩,
   ⟨.A, { State.reset with chA := { id := .A, rst := { held := false } }, chB := { id := .B, rst := { held := false } } }, by decide⟩,
   ⟨.A, 2, { State.reset with chA := { id := .A, rst := { held := false, trim := .loaded }, regs := [(4, 4)] }, chB := { id := .B, rst := { held := false } } }, by decide⟩,
   ⟨.A, { State.reset with chA := { id := .A, rst := { held := false, trim := .loaded }, regs := [(4, 3)] }, chB := { id := .B, rst := { held := false, trim := .loaded } } }, by decide⟩,
   ⟨.A, { State.reset with chA := { id := .A, rst := { held := false, trim := .loaded, fuseTab := 8 }, regs := [(4, 3)] }, chB := { id := .B, rst := { held := false } } }, by decide⟩,
   ⟨.A, { State.reset with chA := { id := .A, rst := { held := false } }, chB := { id := .B, rst := { held := false } } }, by decide⟩,
   ⟨.A, { State.reset with chA := { id := .A, rst := { held := false } }, chB := { id := .B, rst := { held := false } } }, by decide⟩,
   ⟨.A, { State.reset with chA := { id := .A, rst := { held := false } }, chB := { id := .B, rst := { held := false } } }, by decide⟩,
   ⟨.A, { State.reset with chA := { id := .A, rst := { held := false } }, chB := { id := .B, rst := { held := false } } }, by decide⟩⟩

set_option maxRecDepth 100000 in
theorem witness_StartsAndBlocks :
    (∃ (c : Chan) (s : State), s.present c = true ∧ (s.chan c).rst.trim = .loading ∧ (s.chan c).rst.por = false) ∧
    (∃ (c : Chan) (a : Bool) (b : Bool) (s : State), s.present c = true ∧ (s.chan c).rst.trim = .loading ∧ (s.chan c).rst.por = false ∧ (a && b) = false) ∧
    (∃ (ch : ChanState), (inA ch).runs .A ∧ ch.rst.blk = none) ∧
    (∃ (c : Chan) (s : State), s.present c = true ∧ (s.chan c).canStart = false) ∧
    (∃ (c : Chan) (s : State), s.present c = true ∧ (s.chan c).canStart = true ∧ (s.chan c).rst.level = 2 ∧ (s.chan c).get Reg.CHN_STATE_CODE = 1) ∧
    (∃ (c : Chan) (s : State), s.present c = true ∧ (s.chan c).canStart = true ∧ (s.chan c).rst.level = 3 ∧ (s.chan c).fwValid = false ∧ (s.chan c).lockMark = false ∧ (s.chan c).get Reg.LEHR_OTRIP_TRIP = 0) ∧
    (∃ (c : Chan) (s : State), s.present c = true ∧ (s.chan c).canStart = true ∧ (s.chan c).rst.level = 3 ∧ (s.chan c).fwValid = true ∧ (s.chan c).chooseSlot = none ∧ (s.chan c).lockMark = false ∧ (s.chan c).get Reg.LEHR_OTRIP_TRIP = 0) ∧
    (∃ (c : Chan) (n : Nat) (s : State), (n < 16) ∧ s.present c = true ∧ (s.chan c).canStart = true ∧ (s.chan c).rst.level = 3 ∧ (s.chan c).fwValid = true ∧ (s.chan c).chooseSlot = some n ∧ leAt ((s.chan c).slot n) 30 1 = (s.chan c).get Reg.CHN_ID_CHAN ∧ leAt ((s.chan c).slot n) 40 4 ≤ leAt (s.chan c).nvm.fw 8 4) ∧
    (∃ (c : Chan) (s : State), s.present c = true ∧ (s.chan c).canStart = true ∧ (s.chan c).rst.level = 1 ∧ (s.chan c).rst.why = 0 ∧ (s.chan c).cps = []) ∧
    (∃ (c : Chan) (s : State), s.present c = true ∧ (s.chan c).canStart = true ∧ (s.chan c).rst.level = 1 ∧ (s.chan c).rst.why = 0 ∧ (s.chan c).fallback true = 0) ∧
    (∃ (c : Chan) (s : State), s.present c = true ∧ ((s.chan c).canStart = false ∨ (s.chan c).rst.level ≠ 1)) ∧
    (∃ (ch : ChanState), (inA ch).runs .A ∧ ch.rst.starting = true ∧ ch.rst.acquiring = true) ∧
    (∃ (n : Nat) (ch : ChanState), (inA ch).runs .A ∧ (n < 16) ∧ ch.rst.starting = true ∧ ch.get Reg.CHN_STATE_CODE = 1 ∧ (ch.rst.acquiring = false ∨ ch.acquired = true) ∧ ch.rst.endIn = n ∧ n ≠ 2 ∧ ch.lockMark = false ∧ ch.get Reg.LEHR_OTRIP_TRIP = 0) ∧
    (∃ (ch : ChanState), (inA ch).runs .A ∧ ch.rst.starting = false ∨ ch.get Reg.CHN_STATE_CODE ≠ 1 ∨ (ch.rst.acquiring = true ∧ ch.acquired = false)) ∧
    (∃ (blk : BitVec 8) (ch : ChanState), (inA ch).runs .A ∧ ch.rst.blk = none ∧ l0Block blk.toNat = true ∧ (blk.toNat = 4 → ch.bit Reg.CFG_STS_BUSY = false ∧ ch.bit Reg.UPD_STS_ACTIVE = false)) ∧
    (∃ (b : Bool) (blk : BitVec 8) (ch : ChanState), (inA ch).runs .A ∧ ch.rst.blk.all (fun b => b != blk.toNat) = true ∧ (ch.rst.blk.isSome = true ∨ l0Block blk.toNat = false)) ∧
    (∃ (ch : ChanState), (inA ch).runs .A ∧ ch.rst.blk = some 2 ∧ ch.rst.blkInRst = false) ∧
    (∃ (n : Nat) (ch : ChanState), (inA ch).runs .A ∧ (n < 16) ∧ ch.rst.blk = some (8 + n % 8) ∧ (ch.engine (n % 8)).task.isSome = true) ∧
    (∃ (ch : ChanState), (inA ch).runs .A ∧ ch.rst.blk = some 2 ∧ ch.rst.blkInRst = false ∧ ch.paced) ∧
    (∃ (blk : BitVec 8) (ch : ChanState), (inA ch).runs .A ∧ ch.rst.blk = some blk.toNat ∧ (ch.rst.blkInRst = false ∨ ch.rst.blkStable = false)) ∧
    (∃ (blk : BitVec 8) (ch : ChanState), (inA ch).runs .A ∧ ch.rst.blk = some blk.toNat ∧ ch.rst.blkInRst = true ∧ ch.rst.blkStable = true ∧ blk.toNat = 3) ∧
    (∃ (blk : BitVec 8) (ch : ChanState), (inA ch).runs .A ∧ ch.rst.blk ≠ some blk.toNat) :=
  ⟨⟨.A, { State.reset with chA := { id := .A, rst := { held := false } }, chB := { id := .B, rst := { held := false } } }, by decide⟩,
   ⟨.A, false, false, { State.reset with chA := { id := .A, rst := { held := false } }, chB := { id := .B, rst := { held := false } } }, by decide⟩,
   ⟨{ id := .A, rst := { held := false } }, by decide⟩,
   ⟨.A, { State.reset with chA := { id := .A, rst := { held := false } }, chB := { id := .B, rst := { held := false } } }, by decide⟩,
   ⟨.A, { State.reset with chA := { id := .A, rst := { trim := .loaded, level := 2 } }, chB := { id := .B, rst := { held := false } } }, by decide⟩,
   ⟨.A, { State.reset with chA := { id := .A, rst := { trim := .loaded } }, chB := { id := .B, rst := { held := false } } }, by decide⟩,
   ⟨.A, { State.reset with chA := { id := .A, rst := { trim := .loaded }, nvm := { fwHead := ([69, 70, 70, 87, 1, 0, 0, 1, 5, 0, 0, 0, 0, 1, 0, 0, 0, 0, 161] ++ List.replicate 13 0 ++ [34, 119, 251, 196, 33, 168, 158, 149, 76, 120, 192, 14, 225, 51, 223, 209, 161, 14, 146, 3, 41, 185, 80, 135, 78, 40, 230, 57, 245, 177, 185, 196] ++ List.replicate 192 0), dage := 65535 } }, chB := { id := .B, rst := { held := false } } }, by decide⟩,
   ⟨.A, 0, { State.reset with chA := { id := .A, rst := { trim := .loaded }, nvm := { fwHead := ([69, 70, 70, 87, 1, 0, 0, 1, 5, 0, 0, 0, 0, 1, 0, 0, 0, 0, 161] ++ List.replicate 13 0 ++ [34, 119, 251, 196, 33, 168, 158, 149, 76, 120, 192, 14, 225, 51, 223, 209, 161, 14, 146, 3, 41, 185, 80, 135, 78, 40, 230, 57, 245, 177, 185, 196] ++ List.replicate 192 0), slots := [(0, ([69, 86, 67, 73, 1, 0, 128, 0, 7, 0, 0, 0, 132] ++ List.replicate 15 0 ++ [3] ++ List.replicate 35 0 ++ [25, 11, 194, 95, 56, 209, 205, 136, 40, 83, 229, 165, 202, 121, 70, 46, 160, 226, 56, 135, 112, 78, 75, 113, 116, 68, 205, 129, 161, 42, 212, 56] ++ List.replicate 36 0))], dage := 65535 } }, chB := { id := .B, rst := { held := false } } }, by decide⟩,
   ⟨.A, { State.reset with chA := { id := .A, rst := { trim := .loaded, level := 1 } }, chB := { id := .B, rst := { held := false } } }, by decide⟩,
   ⟨.A, { State.reset with chA := { id := .A, rst := { trim := .loaded, level := 1 }, cfg := { image := ([69, 86, 67, 73, 1, 0, 128, 0, 7, 0, 0, 0, 132] ++ List.replicate 15 0 ++ [3] ++ List.replicate 35 0 ++ [25, 11, 194, 95, 56, 209, 205, 136, 40, 83, 229, 165, 202, 121, 70, 46, 160, 226, 56, 135, 112, 78, 75, 113, 116, 68, 205, 129, 161, 42, 212, 56] ++ List.replicate 36 0) }, cps := [{ mcc := 0, fwver := 0, sha := [25, 11, 194, 95, 56, 209, 205, 136, 40, 83, 229, 165, 202, 121, 70, 46, 160, 226, 56, 135, 112, 78, 75, 113, 116, 68, 205, 129, 161, 42, 212, 56], devid := 0, regs := [], enc := [], rem := [], dpo := [], tok := [], open_ := [] }] }, chB := { id := .B, rst := { held := false } } }, by decide⟩,
   ⟨.A, { State.reset with chA := { id := .A, rst := { held := false } }, chB := { id := .B, rst := { held := false } } }, by decide⟩,
   ⟨{ id := .A, rst := { held := false, starting := true, acquiring := true } }, by decide⟩,
   ⟨0, { id := .A, rst := { held := false, starting := true, endIn := 0 } }, by decide⟩,
   ⟨{ id := .A, rst := { held := false } }, by decide⟩,
   ⟨9, { id := .A, rst := { held := false } }, by decide⟩,
   ⟨false, 0, { id := .A, rst := { held := false } }, by decide⟩,
   ⟨{ id := .A, rst := { held := false, blk := some 2 } }, by decide⟩,
   ⟨0, { id := .A, engines := [(0, { task := some { kind := 577067473344, joint := 9, rel := 3340, dl := 59, clim := 2, entry := 3, evt := none } })], rst := { held := false, blk := some 8 } }, by decide⟩,
   ⟨{ id := .A, rst := { held := false, blk := some 2 } }, by decide⟩,
   ⟨0, { id := .A, rst := { held := false, blk := some 0 } }, by decide⟩,
   ⟨3, { id := .A, rst := { held := false, blk := some 3, blkInRst := true, blkStable := true } }, by decide⟩,
   ⟨0, { id := .A, rst := { held := false } }, by decide⟩⟩

theorem witness_FaultsAndSensors :
    (∃ (ch : ChanState), (inA ch).runs .A ∧ ch.paced) ∧
    (∃ (k : Fin 8) (t : Nat) (ch : ChanState), (inA ch).runs .A ∧ (t < 2 ^ 60) ∧ (ch.arm k).f2Since = some t ∧ ch.get (Reg.PRF_ASTS_ASTATE k) ≠ 5 ∧ ch.get (Reg.PRF_ACFG_NJ k) ≠ 0) ∧
    (∃ (k : Fin 8) (ch : ChanState), (inA ch).runs .A ∧ (ch.arm k).f2Since = none ∨ ch.get (Reg.PRF_ASTS_ASTATE k) = 5) ∧
    (∃ (v : Word) (ch : ChanState), (inA ch).runs .A ∧ v.toNat / 2 ^ 16 = 0x57A7 ∧ ch.flt.active.all (fun a => a.cls != 3) = true ∧ (∀ i ∈ ch.boundArms, tbit v.toNat 8 = true ∨ tbit v.toNat i = true → ch.get (Reg.PRF_ASTS_ASTATE i) = 5 ∧ ∀ j ∈ ch.armJoints i, ch.bit (Reg.JNT_STS_TOFF j) = true) ∧ ∀ a ∈ ch.flt.active, a.cls = 2 → (a.scope = none ∧ tbit v.toNat 8 = true ∨ ∃ i ∈ List.range 8, a.scope = some i ∧ tbit v.toNat i = true) → a.held = false ∧ a.lastMc + 2 ≤ ch.matrix) ∧
    (∃ (v : Word) (ch : ChanState), (inA ch).runs .A ∧ v.toNat / 2 ^ 16 ≠ 0x57A7) ∧
    (∃ (v : Word) (ch : ChanState), (inA ch).runs .A ∧ v.toNat / 2 ^ 16 = 0x57A7 ∧ ∃ a ∈ ch.flt.active, a.cls = 3) ∧
    (∃ (k : Fin 8) (v : Word) (ch : ChanState), (inA ch).runs .A ∧ v.toNat / 2 ^ 16 = 0x57A7 ∧ ch.flt.active.all (fun a => a.cls != 3) = true ∧ k.val ∈ ch.boundArms ∧ (tbit v.toNat 8 = true ∨ tbit v.toNat k.val = true) ∧ ch.get (Reg.PRF_ASTS_ASTATE k) ≠ 5) ∧
    (∃ (k : Fin 8) (v : Word) (ch : ChanState), (inA ch).runs .A ∧ v.toNat / 2 ^ 16 = 0x57A7 ∧ ch.flt.active.all (fun a => a.cls != 3) = true ∧ (∀ i ∈ ch.boundArms, ch.get (Reg.PRF_ASTS_ASTATE i) = 5 ∧ ∀ j ∈ ch.armJoints i, ch.bit (Reg.JNT_STS_TOFF j) = true) ∧ ∃ a ∈ ch.flt.active, a.cls = 2 ∧ (a.scope = some k.val ∧ tbit v.toNat k.val = true ∨ a.scope = none ∧ tbit v.toNat 8 = true) ∧ a.held = true) ∧
    (∃ (r : FaultRec) (rest : List FaultRec) (ch : ChanState), (inA ch).runs .A ∧ ch.flt.toRing = r :: rest ∧ ch.flashBusy = false) ∧
    (∃ (ch : ChanState), (inA ch).runs .A ∧ ch.flt.toRing = [] ∨ ch.flashBusy = true) ∧
    (∃ (r : FaultRec) (e : RingEnt) (ch : ChanState), (inA ch).runs .A ∧ ch.ring = [{ e with pend := some r }] ∧ ch.flashBusy = false) ∧
    (∃ (c : Chan) (n : Fin 4) (q : BitVec 12) (u : Int) (w : Int) (z : Int) (s : State), s.runs c ∧ Tab.get (s.chan c).lehr.conv [] n.val = [u, w, z] ∧ -8000 ≤ q.toInt + u + w + z ∧ q.toInt + u + w + z ≤ 4316) ∧
    (∃ (c : Chan) (n : Fin 4) (q : BitVec 12) (u : Int) (w : Int) (z : Int) (s : State), s.runs c ∧ (s.chan c).takes 10 2 ∧ Tab.get (s.chan c).lehr.conv [] n.val = [u, w, z] ∧ 4320 ≤ q.toInt + u + w + z ∧ q.toInt + u + w + z ≤ 8000) ∧
    (∃ (t : Nat) (ch : ChanState), (inA ch).runs .A ∧ (t < 2 ^ 60) ∧ ch.lehr.since = some t ∧ ch.slv.run = none) ∧
    (∃ (t : Nat) (ch : ChanState), (inA ch).runs .A ∧ (t < 2 ^ 60) ∧ ch.lehr.since = some t ∧ ch.slv.run ≠ none) ∧
    (∃ (t : Nat) (ch : ChanState), (inA ch).runs .A ∧ (t < 2 ^ 60) ∧ ch.lehr.rest = some t) :=
  ⟨⟨{ id := .A, rst := { held := false } }, by decide⟩,
   ⟨0, 0, { id := .A, rst := { held := false }, arms := [(0, { f2Since := some 0 })], regs := [(49152, 1490131427)] }, by decide⟩,
   ⟨0, { id := .A, rst := { held := false } }, by decide⟩,
   ⟨1470562510, { id := .A, rst := { held := false } }, by decide⟩,
   ⟨0, { id := .A, rst := { held := false } }, by decide⟩,
   ⟨1470562375, { id := .A, rst := { held := false }, flt := { active := [{ code := 52, cls := 3, scope := some 30, index := 40328, lastMc := 5, held := false }, { code := 1, cls := 1, scope := some 43, index := 3, lastMc := 48, held := true }] } }, by decide⟩,
   ⟨0, 1470562585, { id := .A, rst := { held := false }, regs := [(32768, 1)] }, by decide⟩,
   ⟨0, 1470562585, { id := .A, rst := { held := false }, flt := { active := [{ code := 5, cls := 2, scope := some 0, index := 3, lastMc := 606, held := true }] } }, by decide⟩,
   ⟨{ code := 0, cls := 0, pre := false, scope := none, count := 0, index := 0, first := 0, last := 0, info := 0, rseq := 0, st := 0 }, [], { id := .A, rst := { held := false }, flt := { toRing := [{ code := 0, cls := 0, pre := false, scope := none, count := 0, index := 0, first := 0, last := 0, info := 0, rseq := 0, st := 0 }] } }, by decide⟩,
   ⟨{ id := .A, rst := { held := false } }, by decide⟩,
   ⟨{ code := 0, cls := 0, pre := false, scope := none, count := 0, index := 0, first := 0, last := 0, info := 0, rseq := 0, st := 0 }, { body := { code := 0, cls := 0, pre := false, scope := none, count := 0, index := 0, first := 0, last := 0, info := 0, rseq := 0, st := 0 }, wtime := 0, pend := none }, { id := .A, rst := { held := false }, ring := [{ body := { code := 0, cls := 0, pre := false, scope := none, count := 0, index := 0, first := 0, last := 0, info := 0, rseq := 0, st := 0 }, wtime := 0, pend := some { code := 0, cls := 0, pre := false, scope := none, count := 0, index := 0, first := 0, last := 0, info := 0, rseq := 0, st := 0 } }] }, by decide⟩,
   ⟨.A, 0, 0, 0, 0, 0, { State.reset with chA := { id := .A, rst := { held := false }, lehr := { conv := [(0, [0, 0, 0])] } }, chB := { id := .B, rst := { held := false } } }, by decide⟩,
   ⟨.A, 0, 0, 1289, 1507, 1796, { State.reset with chA := { id := .A, rst := { held := false, trim := .loaded }, lehr := { conv := [(0, [1289, 1507, 1796]), (2, [-52, 932249543851]), (3, [-61, 1, -2]), (5, [-11]), (6, []), (7, [-14])] }, regs := [(4, 10)] }, chB := { id := .B, rst := { held := false } } }, by decide⟩,
   ⟨0, { id := .A, rst := { held := false }, lehr := { since := some 0 } }, by decide⟩,
   ⟨0, { id := .A, rst := { held := false }, lehr := { since := some 0 }, slv := { run := some (Sys2Proof.Machine.SRun.model { kind := 0, joint := 54, rel := 7, dl := 10, clim := 2, entry := 1, evt := none } [32, 0, 15] 46) } }, by decide⟩,
   ⟨0, { id := .A, rst := { held := false }, lehr := { rest := some 0 } }, by decide⟩⟩

end Sys2Proof.Tests
end

namespace Sys2Proof.Machine

open Sys2Proof

/-! ### One instruction of a loop engine that goes on (R118, R123) -/

/-- What an engine needs to run an instruction: a task, a fetch that is allowed, cycles left, no active repeat. -/
theorem ChanState.canRun_elim {ch : ChanState} {n cost : Nat} (h : ch.canRun n cost = true) :
    ∃ t, (ch.engine n).task = some t ∧ ¬(ch.userTask t ∧ 0x1FFF < ch.get (Reg.LPE_PC_PC n)) ∧
      (ch.engine n).cyc + cost < 8 * t.clim ∧ (ch.engine n).reps = [] := by
  unfold ChanState.canRun ChanState.canLoop at h
  cases ht : (ch.engine n).task with
  | none => simp [ht] at h
  | some t =>
    simp only [ht, Bool.and_eq_true, Bool.or_eq_true, Bool.not_eq_true', decide_eq_true_eq, List.isEmpty_iff] at h
    obtain ⟨⟨hfetch, hcyc⟩, hreps⟩ := h
    exact ⟨t, rfl, fun ⟨hu, hpc⟩ => hfetch.elim (fun h => by simp [hu] at h) (fun h => by omega), hcyc, hreps⟩

/-- With no repeat active the flow to the next address is just that. -/
theorem Engine.follow_fall {e : Engine} (pc : Nat) (h : e.reps = []) : e.follow pc .fall = some (e, pc + 1) := by
  cases e; cases h; rfl

/-- An instruction that its engine can run and that goes on: the engine takes its effect and its cycles, the program counter steps. -/
theorem ChanState.leRun_fall {ch : ChanState} {n : Nat} {cost : Nat → Engine → Nat} {f : Nat → Engine → Engine × Flow} {e : Engine}
    (hrun : ch.canRun n (cost (ch.get (Reg.LPE_PC_PC n)) (ch.engine n)) = true)
    (hf : f (ch.get (Reg.LPE_PC_PC n)) (ch.engine n) = (e, .fall)) (hreps : e.reps = (ch.engine n).reps) :
    ch.leRun n cost f = (ch.setEngine n
      { e with cyc := (ch.engine n).cyc + cost (ch.get (Reg.LPE_PC_PC n)) (ch.engine n) }).put (Reg.LPE_PC_PC n)
        (ch.get (Reg.LPE_PC_PC n) + 1) := by
  obtain ⟨t, ht, hfetch, hcyc, hnil⟩ := ChanState.canRun_elim hrun
  have hfollow : e.follow (ch.get (Reg.LPE_PC_PC n)) .fall = some (e, ch.get (Reg.LPE_PC_PC n) + 1) :=
    Engine.follow_fall _ (hreps.trans hnil)
  unfold ChanState.leRun
  simp only [ht, hf, hfollow, if_neg hfetch, if_neg (Nat.not_le_of_lt hcyc)]

theorem engineParts_pc (n : Fin 8) : engineParts.any (·.covers (Reg.LPE_PC_PC n).ofs) = true := by
  have hn := n.isLt
  simp only [engineParts, Reg.LPE_PC_PC, Part.covers, List.any_cons, List.any_nil, Bool.or_false, Bool.false_or, Bool.and_eq_true,
    decide_eq_true_eq]
  omega

/-- An engine written with its program counter stepped has gone on; nothing else differs but what the last command sent. -/
theorem wentOn_setEngine (ch : ChanState) (n : Fin 8) (cost : Nat) (e : Engine) (hcyc : e.cyc = (ch.engine n).cyc + cost) :
    wentOn n cost ch ((({ ch with sent := [] } : ChanState).setEngine n e).put (Reg.LPE_PC_PC n) (ch.get (Reg.LPE_PC_PC n) + 1)) := by
  refine ⟨by simpa using hcyc, ChanState.get_put_same _ _ _ (by show 0 + 16 ≤ 32; decide), fun m _ hm => ?_, ?_⟩
  · rw [ChanState.engine_put, ChanState.engine_setEngine_ne _ _ _ _ hm]; rfl
  · have hset : Only engineParts ch (({ ch with sent := [] } : ChanState).setEngine n e) := ⟨rfl, fun _ _ => rfl⟩
    exact hset.trans (only_put _ _ _ _ (engineParts_pc n))

/-- A command that runs one instruction which goes on with effect `g`: it is enough to know the engine after it. -/
theorem acts_instruction {i : Instr} {c : Chan} {n : Fin 8} {cost : Nat → Engine → Nat} {f : Nat → Engine → Engine × Flow}
    {g : Engine → Engine} {pre : ChanState → Prop} {post : ChanState → ChanState → Prop}
    (he : ∀ s, exec i s = live s c fun ch => ch.leRun n cost f)
    (hrun : ∀ ch, pre ch → ch.canRun n (cost (ch.get (Reg.LPE_PC_PC n)) (ch.engine n)) = true)
    (hf : ∀ ch, pre ch → f (ch.get (Reg.LPE_PC_PC n)) (ch.engine n) = (g (ch.engine n), .fall))
    (hreps : ∀ e, (g e).reps = e.reps)
    (hpost : ∀ ch t, pre ch →
      t.engine n = { g (ch.engine n) with cyc := (ch.engine n).cyc + cost (ch.get (Reg.LPE_PC_PC n)) (ch.engine n) } →
      wentOn n (cost (ch.get (Reg.LPE_PC_PC n)) (ch.engine n)) ch t → post ch t) :
    Acts i c pre post := by
  refine acts_live he fun ch _ hp => ?_
  have hstep := ChanState.leRun_fall (ch := { ch with sent := [] }) (hrun ch hp) (hf ch hp) (hreps _)
  rw [hstep]
  refine hpost ch _ hp ?_ (wentOn_setEngine ch n _ _ rfl)
  rw [ChanState.engine_put, ChanState.engine_setEngine]; rfl

/-! ### Data registers (R109, R119) -/

@[simp] theorem Engine.flags_reps (e : Engine) (z n v : Bool) (st : Half) : (e.flags z n v st).reps = e.reps := rfl

theorem Engine.dreg_setD_same (e : Engine) (z : Fin 8) (v : Half) : (e.setD z.val v).dreg z = v := by
  unfold Engine.dreg Engine.setD
  rw [Nat.mod_eq_of_lt z.isLt, Tab.get_set_same]

theorem Engine.dreg_setD_ne (e : Engine) {z i : Fin 8} (v : Half) (h : i ≠ z) : (e.setD z.val v).dreg i = e.dreg i := by
  unfold Engine.dreg Engine.setD
  rw [Nat.mod_eq_of_lt z.isLt]
  exact Tab.get_set_ne _ _ _ _ fun hv => h (Fin.ext hv)

/-- A register written with a value of 16 bits, under any flags and cycle count. -/
theorem dTook_setD {e x : Engine} {z : Fin 8} {v : Int} (hlo : -32768 ≤ v) (hhi : v ≤ 32767)
    (hx : x = { e.setD z.val (BitVec.ofInt 16 v) with fl := x.fl, cyc := x.cyc }) : dTook e x z v := by
  have hd : ∀ i, x.dreg i = (e.setD z.val (BitVec.ofInt 16 v)).dreg i := fun i => by rw [hx]; rfl
  refine ⟨?_, fun i hi => (hd i).trans (e.dreg_setD_ne _ hi), by rw [hx]; rfl⟩
  rw [hd, Engine.dreg_setD_same, BitVec.toInt_ofInt]
  exact Int.bmod_eq_of_le (by omega) (by omega)

/-! ### Flags (R115) -/

/-- FL as an instruction writes it: Z and N of the value `v`, V, and sticky bits of which none lies below bit 3. -/
theorem flagsTook_flags {e x : Engine} {v : Int} {exc : Bool} {st : Nat} {sticky : Half}
    (hfl : x.fl = (e.flags (v == 0) (decide (v < 0)) exc sticky).fl)
    (hlow : ∀ i, i < 3 → sticky.getLsbD i = false) (hhigh : ∀ i, i < 16 → 3 ≤ i → sticky.getLsbD i = (i == st && exc)) :
    flagsTook e x v exc st := by
  have hlowFl : ∀ z n o : Bool, (BitVec.ofNat 16 (b2n z + 2 * b2n n + 4 * b2n o)).getLsbD 0 = z ∧
      (BitVec.ofNat 16 (b2n z + 2 * b2n n + 4 * b2n o)).getLsbD 1 = n ∧
      (BitVec.ofNat 16 (b2n z + 2 * b2n n + 4 * b2n o)).getLsbD 2 = o ∧
      ∀ i, i < 16 → 3 ≤ i → (BitVec.ofNat 16 (b2n z + 2 * b2n n + 4 * b2n o)).getLsbD i = false := by decide
  have hmask : ∀ i, i < 16 → (0xFFF8#16).getLsbD i = decide (3 ≤ i) := by decide
  obtain ⟨h0, h1, h2, hrest⟩ := hlowFl (v == 0) (decide (v < 0)) exc
  have hbit : ∀ i, i < 16 → x.fl.getLsbD i = ((e.fl.getLsbD i && decide (3 ≤ i) ||
      (BitVec.ofNat 16 (b2n (v == 0) + 2 * b2n (decide (v < 0)) + 4 * b2n exc)).getLsbD i) || sticky.getLsbD i) := by
    intro i hi
    rw [hfl]
    simp only [Engine.flags, BitVec.getLsbD_or, BitVec.getLsbD_and, hmask i hi]
  refine ⟨?_, ?_, ?_, fun i hi h3 => ?_⟩
  · rw [Engine.fZ, hbit 0 (by decide), h0, hlow 0 (by decide)]; simp
  · rw [Engine.fN, hbit 1 (by decide), h1, hlow 1 (by decide)]; simp
  · rw [Engine.fV, hbit 2 (by decide), h2, hlow 2 (by decide)]; simp
  · rw [hbit i hi, hrest i hi h3, hhigh i hi h3]; simp [h3]

/-- Flags of an instruction that never overflows. -/
theorem flagsTook_plain {e x : Engine} {v : Int} {st : Nat} (hfl : x.fl = (e.flags (v == 0) (decide (v < 0)) false 0).fl) :
    flagsTook e x v false st :=
  flagsTook_flags hfl (fun _ _ => BitVec.getLsbD_zero) fun _ _ _ => by simp

/-! ### Results of a data register (R113) -/

theorem fits16 (r : Int) : fits 16 r = decide (-32768 ≤ r ∧ r ≤ 32767) := rfl

/-- The range rule at 16 bits. -/
theorem ranged_eq_ranged16 (sat : Bool) (r : Int) : ranged 16 sat r = ranged16 sat r := by
  unfold ranged ranged16
  simp only [fits16, decide_eq_true_eq]
  by_cases hr : -32768 ≤ r ∧ r ≤ 32767
  · rw [if_pos hr, if_pos hr]
  · rw [if_neg hr, if_neg hr]
    cases sat with
    | true => show max (-32768) (min r 32767) = if r < 0 then -32768 else 32767; split <;> omega
    | false =>
      show (if r % 65536 < 32768 then r % 65536 else r % 65536 - 65536) = _
      simp only [Bool.false_eq_true, if_false]; split <;> omega

theorem ranged16_bounds (sat : Bool) (r : Int) : -32768 ≤ ranged16 sat r ∧ ranged16 sat r ≤ 32767 := by
  unfold ranged16
  split
  · assumption
  · cases sat with
    | true => simp only [if_true]; split <;> omega
    | false => simp only [Bool.false_eq_true, if_false]; omega

@[simp] theorem Engine.dResult_reps (e : Engine) (sat : Bool) (z : Fin 8) (r : Int) : (e.dResult sat z r).reps = e.reps := rfl

/-- The sticky bit of an overflow in a data register. -/
theorem sticky_sd (fit : Bool) :
    (∀ i, i < 3 → (if fit then 0#16 else 0x400#16).getLsbD i = false) ∧
    ∀ i, i < 16 → 3 ≤ i → (if fit then 0#16 else 0x400#16).getLsbD i = (i == 10 && !fit) := by
  cases fit
  · exact ⟨by decide, by decide⟩
  · exact ⟨by decide, by decide⟩

/-- An instruction that has written its exact result to Dz by the range rule (R113, R115). -/
theorem gaveD_dResult {ch t : ChanState} {n : Fin 8} {cost : Nat} {sat : Bool} {z : Fin 8} {r : Engine → Int}
    (ht : t.engine n = { (ch.engine n).dResult sat z (r (ch.engine n)) with cyc := (ch.engine n).cyc + cost })
    (hon : wentOn n cost ch t) : gaveD n cost sat z r ch t := by
  obtain ⟨hlo, hhi⟩ := ranged16_bounds sat (r (ch.engine n))
  have hexc : decide (r (ch.engine n) < -32768 ∨ 32767 < r (ch.engine n)) = !fits 16 (r (ch.engine n)) := by
    rw [fits16, ← decide_not, decide_eq_decide]; omega
  obtain ⟨hlow, hhigh⟩ := sticky_sd (fits 16 (r (ch.engine n)))
  rw [← hexc] at hhigh
  refine ⟨dTook_setD hlo hhi ?_, flagsTook_flags ?_ hlow hhigh, hon⟩
  · rw [ht, ← ranged_eq_ranged16]; rfl
  · rw [ht, hexc, ← ranged_eq_ranged16]; rfl

/-! ### DIV and SQRT (R114, R122) -/

/-- Rounding a quotient to nearest, ties away from zero, in magnitudes. -/
theorem rdivAway_eq_natAbs (a : Int) (b : Nat) :
    rdivAway a b = (if a < 0 then (-1 : Int) else 1) * ((2 * a.natAbs + b) / (2 * b) : Nat) := by
  unfold rdivAway
  by_cases ha : a < 0
  · rw [if_neg (by omega), if_pos ha]
    have habs : (a.natAbs : Int) = -a := by omega
    rw [Int.neg_mul, Int.one_mul, Int.natCast_ediv, Int.natCast_add, Int.natCast_mul, Int.natCast_mul, habs]; rfl
  · rw [if_pos (by omega), if_neg ha]
    have habs : (a.natAbs : Int) = a := by omega
    rw [Int.one_mul, Int.natCast_ediv, Int.natCast_add, Int.natCast_mul, Int.natCast_mul, habs]; rfl

/-- The quotient of DIV: the magnitudes' quotient rounded to nearest, negative where the signs differ. -/
theorem quotient_eq (a d : Int) (hd : d ≠ 0) :
    (if 0 < d then rdivAway a d.toNat else rdivAway (-a) (-d).toNat) =
      (if (a < 0) = (d < 0) then (1 : Int) else -1) * ((2 * a.natAbs + d.natAbs) / (2 * d.natAbs) : Nat) := by
  rcases Int.lt_or_gt_of_ne hd with hneg | hpos
  · have hn : (-d).toNat = d.natAbs := by omega
    rw [if_neg (by omega), hn, rdivAway_eq_natAbs, Int.natAbs_neg]
    rcases Int.lt_trichotomy a 0 with ha | rfl | ha
    · rw [if_neg (by omega), if_pos (propext (by omega))]
    · have hzero : d.natAbs / (2 * d.natAbs) = 0 := Nat.div_eq_of_lt (by omega)
      simp [hzero]
    · rw [if_pos (by omega), if_neg (fun h => by have := h.mpr hneg; omega)]
  · have hn : d.toNat = d.natAbs := by omega
    rw [if_pos hpos, hn, rdivAway_eq_natAbs]
    by_cases ha : a < 0
    · rw [if_pos ha, if_neg (fun h => by have := h.mp ha; omega)]
    · rw [if_neg ha, if_pos (propext (by omega))]

@[simp] theorem Engine.divide_reps (e : Engine) (sat : Bool) (z : Fin 8) (a : AccSel) (y : Fin 8) :
    (e.divide sat z a y).reps = e.reps := by
  unfold Engine.divide; extract_lets d; split <;> rfl

theorem Engine.divide_of_ne {e : Engine} {y : Fin 8} (sat : Bool) (z : Fin 8) (a : AccSel) (h : e.dx y ≠ 0) :
    e.divide sat z a y = e.dResult sat z ((if (e.ax a < 0) = (e.dx y < 0) then (1 : Int) else -1) *
      ((2 * (e.ax a).natAbs + (e.dx y).natAbs) / (2 * (e.dx y).natAbs) : Nat)) := by
  unfold Engine.divide
  rw [if_neg h, quotient_eq _ _ h]

/-- By 0: the limit of the accumulator's sign, with V and SZ (R122). -/
theorem Engine.divide_zero {e : Engine} {y : Fin 8} (sat : Bool) (z : Fin 8) (a : AccSel) (h : e.dx y = 0) :
    e.divide sat z a y = (e.setD z.val (BitVec.ofInt 16 (if e.ax a < 0 then -32768 else 32767))).flags
      ((if e.ax a < 0 then (-1 : Int) else 1) == 0) (decide ((if e.ax a < 0 then (-1 : Int) else 1) < 0)) true 0x800 := by
  unfold Engine.divide
  rw [if_pos h]
  by_cases ha : e.ax a < 0
  · simp only [if_pos ha, if_neg (Int.not_le.mpr ha)]; rfl
  · simp only [if_neg ha, if_pos (Int.not_lt.mp ha)]; rfl

/-- The bits of a root are found from the top: below `r + 2^n`, at or above `r`. -/
theorem isqrtBits_spec (n v r : Nat) (hlo : r * r ≤ v) (hhi : v < (r + 2 ^ n) * (r + 2 ^ n)) :
    isqrtBits n v r * isqrtBits n v r ≤ v ∧ v < (isqrtBits n v r + 1) * (isqrtBits n v r + 1) := by
  induction n generalizing r with
  | zero => exact ⟨hlo, hhi⟩
  | succ n ih =>
    have htwice : r + 2 ^ (n + 1) = r + 2 ^ n + 2 ^ n := by rw [Nat.pow_succ]; omega
    rw [htwice] at hhi
    unfold isqrtBits
    by_cases hbit : (r + 2 ^ n) * (r + 2 ^ n) ≤ v
    · rw [if_pos hbit]; exact ih _ hbit hhi
    · rw [if_neg hbit]; exact ih _ hlo (Nat.lt_of_not_le hbit)

/-- The root is at most any number whose successor's square exceeds the value. -/
theorem root_le {s r v : Nat} (hs : s * s ≤ v) (hr : v < (r + 1) * (r + 1)) : s ≤ r :=
  Nat.le_of_not_lt fun hlt => Nat.not_lt_of_le (Nat.le_trans (Nat.mul_le_mul hlt hlt) hs) hr

/-- The root of a value the accumulators can hold. -/
theorem isqrt_eq {v r : Nat} (hv : v < 2 ^ 48) (hlo : r * r ≤ v) (hhi : v < (r + 1) * (r + 1)) : isqrt v = r := by
  unfold isqrt
  obtain ⟨hlo', hhi'⟩ := isqrtBits_spec 24 v 0 (Nat.zero_le _) (by rw [Nat.zero_add, ← Nat.pow_add]; exact hv)
  generalize isqrtBits 24 v 0 = s at hlo' hhi' ⊢
  exact Nat.le_antisymm (root_le hlo' hhi) (root_le hlo hhi')

@[simp] theorem Engine.root_reps (e : Engine) (sat : Bool) (z : Fin 8) (a : AccSel) : (e.root sat z a).reps = e.reps := by
  unfold Engine.root; split
  · exact Engine.flags_reps _ _ _ _ _
  · exact Engine.dResult_reps _ _ _ _

theorem Engine.root_of_sq {e : Engine} {a : AccSel} {r : Nat} (sat : Bool) (z : Fin 8) (hlo : (r * r : Nat) ≤ e.ax a)
    (hhi : e.ax a < ((r + 1) * (r + 1) : Nat)) : e.root sat z a = e.dResult sat z r := by
  have hbound : e.ax a < 2 ^ 39 := BitVec.toInt_lt
  unfold Engine.root
  rw [if_neg (by omega), isqrt_eq (r := r) (by omega) (by omega) (by omega)]

theorem Engine.root_of_neg {e : Engine} {a : AccSel} (sat : Bool) (z : Fin 8) (h : e.ax a < 0) :
    e.root sat z a = (e.setD z.val (BitVec.ofInt 16 0)).flags ((0 : Int) == 0) (decide ((0 : Int) < 0)) true 0x400 := by
  unfold Engine.root; rw [if_pos h]; rfl

/-- Settles O23: each clause is one instruction that goes on, with the quotient and the root as the statement gives them. -/
theorem leDivideAndRoot : Obligations.LeDivideAndRoot := by
  unfold Obligations.LeDivideAndRoot
  intro c n sat z y a r
  refine ⟨?_, ?_, ?_, ?_⟩
  · refine acts_instruction (fun _ => rfl) (fun _ h => h.1) (fun _ _ => rfl) (fun e => e.divide_reps sat z a y)
      fun ch t ⟨_, hy⟩ ht hon => ?_
    rw [Engine.divide_of_ne sat z a hy] at ht
    exact gaveD_dResult ht hon
  · refine acts_instruction (fun _ => rfl) (fun _ h => h.1) (fun _ _ => rfl) (fun e => e.divide_reps sat z a y)
      fun ch t ⟨_, hy⟩ ht hon => ?_
    rw [Engine.divide_zero sat z a hy] at ht
    refine ⟨dTook_setD (by split <;> decide) (by split <;> decide) (by rw [ht]; rfl), ?_, hon⟩
    exact flagsTook_flags (by rw [ht]; rfl) (by decide) (by decide)
  · refine acts_instruction (fun _ => rfl) (fun _ h => h.1) (fun _ _ => rfl) (fun e => e.root_reps sat z a)
      fun ch t ⟨_, hlo, hhi⟩ ht hon => ?_
    rw [Engine.root_of_sq sat z hlo hhi] at ht
    exact gaveD_dResult (r := fun _ => r) ht hon
  · refine acts_instruction (fun _ => rfl) (fun _ h => h.1) (fun _ _ => rfl) (fun e => e.root_reps sat z a)
      fun ch t ⟨_, hneg⟩ ht hon => ?_
    rw [Engine.root_of_neg sat z hneg] at ht
    refine ⟨dTook_setD (by decide) (by decide) (by rw [ht]; rfl), ?_, hon⟩
    exact flagsTook_flags (by rw [ht]; rfl) (by decide) (by decide)

end Sys2Proof.Machine

namespace Sys2Proof.Machine

open Sys2Proof

/-! ### Register pairs (R120, R121) -/

/-- Dz and Dz+1 as an instruction writes them. -/
def Engine.setPair (e : Engine) (z : Fin 8) (v w : Half) : Engine := (e.setD z.val v).setD (z.val + 1) w

/-- The data registers after a pair has been written. -/
theorem Engine.setPair_reads {e t : Engine} {z : Fin 8} {v w : Half} (hz : z.val % 2 = 0) (hd : t.d = (e.setPair z v w).d) :
    Tab.get t.d 0 z.val = v ∧ Tab.get t.d 0 (z.val + 1) = w ∧
      ∀ i, i < 8 → i ≠ z.val → i ≠ z.val + 1 → Tab.get t.d 0 i = Tab.get e.d 0 i := by
  have hlt := z.isLt
  have hpair : t.d = Tab.set (Tab.set e.d 0 z.val v) 0 (z.val + 1) w := by
    rw [hd]
    unfold Engine.setPair Engine.setD
    rw [Nat.mod_eq_of_lt hlt, Nat.mod_eq_of_lt (by omega)]
  refine ⟨?_, ?_, fun i _ h h' => ?_⟩
  · rw [hpair, Tab.get_set_ne _ _ _ _ (by omega), Tab.get_set_same]
  · rw [hpair, Tab.get_set_same]
  · rw [hpair, Tab.get_set_ne _ _ _ _ h', Tab.get_set_ne _ _ _ _ h]

theorem Engine.trig_eq_setPair (e : Engine) (z x : Fin 8) :
    e.trig z x = e.setPair z (BitVec.ofInt 16 (cosTurn (e.dreg x).toNat)) (BitVec.ofInt 16 (sinTurn (e.dreg x).toNat)) := rfl

/-! ### Reading through a pointer operand (R111, R112) -/

/-- `a` is `e` after `i` accesses through the operand `p`: the pointer has walked, nothing else differs. -/
structure Engine.Walked (e : Engine) (p : PtrOp) (i : Nat) (a : Engine) : Prop where
  here : a.ptr p.p = e.walk p i
  other : ∀ j : Fin 4, j ≠ p.p → a.ptr j = e.ptr j
  frame : a = { e with p := a.p }

theorem Engine.Walked.refl (e : Engine) (p : PtrOp) : e.Walked p 0 e := ⟨rfl, fun _ _ => rfl, rfl⟩

theorem Engine.Walked.modr_eq {e a : Engine} {p : PtrOp} {i : Nat} (h : e.Walked p i a) (j : Fin 4) : a.modr j = e.modr j := by
  rw [h.frame]; rfl

theorem Engine.Walked.at_eq {e a : Engine} {p : PtrOp} {i : Nat} (h : e.Walked p i a) : a.at p = e.load (e.walk p i) := by
  rw [← h.here, Engine.at]
  generalize a.ptr p.p = q
  rw [h.frame]; rfl

theorem Engine.Walked.advance {e a : Engine} {p : PtrOp} {i : Nat} (h : e.Walked p i a) : e.Walked p (i + 1) (a.advance p) := by
  refine ⟨?_, fun j hj => ?_, ?_⟩
  · have hstep : (a.advance p).ptr p.p = nextPtr (a.ptr p.p) (a.modr p.p) p.m := Tab.get_set_same _ _ _ _
    rw [hstep, h.here, h.modr_eq]; rfl
  · have hkept : (a.advance p).ptr j = a.ptr j := Tab.get_set_ne _ _ _ _ fun hv => hj (Fin.ext hv)
    exact hkept.trans (h.other j hj)
  · show ({ a with p := (a.advance p).p } : Engine) = _
    rw [h.frame]

/-! ### The scan of MINX and MAXX (R121) -/

/-- `b` is the lowest index below `k` at which `v` is extreme by `le`. -/
def LowestExtreme (le : Int → Int → Prop) (v : Nat → Int) (k b : Nat) : Prop :=
  b < k ∧ (∀ i, i < k → le (v b) (v i)) ∧ ∀ i, i < b → ¬ le (v i) (v b)

/-- A word that comes first or is better is kept with its index. -/
theorem Engine.scan_take {better : Int → Int → Bool} {p : PtrOp} {i : Nat} {b : Int} {a : Engine} (n bi : Nat)
    (h : i = 0 ∨ better (a.at p).toInt b = true) :
    Engine.scan better p (n + 1) i b bi a = Engine.scan better p n (i + 1) (a.at p).toInt i (a.advance p) := if_pos h

/-- Any other word is passed over. -/
theorem Engine.scan_pass {better : Int → Int → Bool} {p : PtrOp} {i : Nat} {b : Int} {a : Engine} (n bi : Nat)
    (h : ¬(i = 0 ∨ better (a.at p).toInt b = true)) :
    Engine.scan better p (n + 1) i b bi a = Engine.scan better p n (i + 1) b bi (a.advance p) := if_neg h

section
variable {le : Int → Int → Prop} (total : ∀ a b, le a b ∨ le b a) (trans : ∀ a b c, le a b → le b c → le a c)
  {v : Nat → Int}
include total

theorem LowestExtreme.first : LowestExtreme le v 1 0 :=
  ⟨Nat.one_pos, fun i hi => by rw [Nat.lt_one_iff.mp hi]; exact (total _ _).elim id id, fun i hi => absurd hi (Nat.not_lt_zero i)⟩

omit total in
/-- One more word that is not better. -/
theorem LowestExtreme.keep {i b : Nat} (h : LowestExtreme le v i b) (hle : le (v b) (v i)) : LowestExtreme le v (i + 1) b := by
  obtain ⟨hb, hext, hlow⟩ := h
  refine ⟨Nat.lt_succ_of_lt hb, fun j hj => ?_, hlow⟩
  rcases Nat.lt_succ_iff_lt_or_eq.mp hj with hj | rfl
  · exact hext j hj
  · exact hle

include trans

/-- One more word that is better than all before it. -/
theorem LowestExtreme.take {i b : Nat} (h : LowestExtreme le v i b) (hnot : ¬ le (v b) (v i)) : LowestExtreme le v (i + 1) i := by
  obtain ⟨hb, hext, hlow⟩ := h
  have hbetter : le (v i) (v b) := (total _ _).resolve_right hnot
  refine ⟨Nat.lt_succ_self i, fun j hj => ?_, fun j hj hle => hnot (trans _ _ _ (hext j hj) hle)⟩
  rcases Nat.lt_succ_iff_lt_or_eq.mp hj with hj | rfl
  · exact trans _ _ _ hbetter (hext j hj)
  · exact (total _ _).elim id id

/-- The scan from word `i` on: the pointer walks over the `n` words, and the best of all the words so far is kept with its lowest index. -/
theorem Engine.scan_spec {better : Int → Int → Bool} (hbetter : ∀ a b, better a b = true ↔ ¬ le b a) (e : Engine) (p : PtrOp)
    (hv : ∀ i, v i = (e.load (e.walk p i)).toInt) (n i : Nat) (b : Int) (bi : Nat) (a : Engine) (hw : e.Walked p i a)
    (hb : i = 0 ∨ b = v bi ∧ LowestExtreme le v i bi) :
    e.Walked p (i + n) (Engine.scan better p n i b bi a).2.2 ∧ (0 < i + n →
      (Engine.scan better p n i b bi a).1 = v (Engine.scan better p n i b bi a).2.1 ∧
        LowestExtreme le v (i + n) (Engine.scan better p n i b bi a).2.1) := by
  induction n generalizing i b bi a with
  | zero => exact ⟨hw, fun hpos => hb.resolve_left (by omega)⟩
  | succ n ih =>
    have hword : (a.at p).toInt = v i := by rw [hw.at_eq, hv]
    have hsum : i + (n + 1) = i + 1 + n := by omega
    rw [hsum]
    by_cases htake : i = 0 ∨ better (a.at p).toInt b = true
    · rw [Engine.scan_take n bi htake]
      refine ih (i + 1) _ i (a.advance p) hw.advance (.inr ⟨hword, ?_⟩)
      by_cases hi : i = 0
      · subst hi; exact LowestExtreme.first total
      · obtain ⟨rfl, hext⟩ := hb.resolve_left hi
        rw [hword, hbetter] at htake
        exact hext.take total trans (htake.resolve_left hi)
    · rw [Engine.scan_pass n bi htake]
      obtain ⟨hi, hworse⟩ := not_or.mp htake
      obtain ⟨rfl, hext⟩ := hb.resolve_left hi
      rw [hword, hbetter, Classical.not_not] at hworse
      exact ih (i + 1) _ bi (a.advance p) hw.advance (.inr ⟨rfl, hext.keep hworse⟩)

end

/-! ### MINX and MAXX (R121) -/

/-- With no word to read: the limit and the index 0xFFFF. -/
theorem Engine.extreme_empty {e : Engine} {x : Fin 8} (better : Int → Int → Bool) (empty : Int) (z : Fin 8) (p : PtrOp)
    (h : e.dreg x = 0) : e.extreme better empty z x p =
      (e.setPair z (BitVec.ofInt 16 empty) 0xFFFF).flags (empty == 0) (decide (empty < 0)) false 0 := by
  have hn : (e.dreg x).toNat = 0 := by rw [h]; rfl
  unfold Engine.extreme
  simp only [hn]
  rfl

/-- With words to read: what the scan found. -/
theorem Engine.extreme_scan {e : Engine} {x : Fin 8} (better : Int → Int → Bool) (empty : Int) (z : Fin 8) (p : PtrOp)
    (h : 0 < (e.dreg x).toNat) : e.extreme better empty z x p =
      let r := Engine.scan better p (e.dreg x).toNat 0 0 0 e
      (r.2.2.setPair z (BitVec.ofInt 16 r.1) (BitVec.ofNat 16 r.2.1)).flags (r.1 == 0) (decide (r.1 < 0)) false 0 := by
  unfold Engine.extreme
  simp only [if_neg (Nat.ne_of_gt h)]
  rfl

theorem Engine.scan_reps (better : Int → Int → Bool) (p : PtrOp) (n i : Nat) (b : Int) (bi : Nat) (a : Engine) :
    (Engine.scan better p n i b bi a).2.2.reps = a.reps := by
  induction n generalizing i b bi a with
  | zero => rfl
  | succ n ih =>
    by_cases htake : i = 0 ∨ better (a.at p).toInt b = true
    · rw [Engine.scan_take n bi htake]; exact ih _ _ _ _
    · rw [Engine.scan_pass n bi htake]; exact ih _ _ _ _

theorem Engine.extreme_reps (e : Engine) (better : Int → Int → Bool) (empty : Int) (z x : Fin 8) (p : PtrOp) :
    (e.extreme better empty z x p).reps = e.reps := Engine.scan_reps better p _ 0 0 0 e

theorem scanCost_zero {e : Engine} {x : Fin 8} (pc : Nat) (h : e.dreg x = 0) : scanCost x pc e = 2 := by
  unfold scanCost; rw [h]; rfl

/-- What MINX and MAXX leave when there is no word to read: the limit, the index 0xFFFF, flags of the limit, the pointer unchanged. -/
theorem Engine.extreme_empty_took {e t : Engine} {x z : Fin 8} {better : Int → Int → Bool} {empty : Int} {p : PtrOp} {cyc : Nat}
    (hz : z.val % 2 = 0) (hx : e.dreg x = 0) (ht : t = { e.extreme better empty z x p with cyc := cyc }) :
    Tab.get t.d 0 z.val = BitVec.ofInt 16 empty ∧ Tab.get t.d 0 (z.val + 1) = 0xFFFF ∧
      (∀ i, i < 8 → i ≠ z.val → i ≠ z.val + 1 → Tab.get t.d 0 i = Tab.get e.d 0 i) ∧ flagsTook e t empty false 0 ∧
      t = { e with d := t.d, fl := t.fl, cyc := t.cyc } := by
  rw [Engine.extreme_empty better empty z p hx] at ht
  obtain ⟨hlow, hhigh, hother⟩ := Engine.setPair_reads (e := e) (t := t) (v := BitVec.ofInt 16 empty) (w := 0xFFFF) hz (by rw [ht]; rfl)
  exact ⟨hlow, hhigh, hother, flagsTook_plain (by rw [ht]; rfl), by rw [ht]; rfl⟩

/-- MINX and MAXX over the words they read: `better` is the strict side of the total order `le`. -/
theorem gaveExtreme_scan {ch t : ChanState} {n : Fin 8} {z x : Fin 8} {p : PtrOp} {le : Int → Int → Prop} {better : Int → Int → Bool}
    {empty : Int} (total : ∀ a b, le a b ∨ le b a) (trans : ∀ a b c, le a b → le b c → le a c)
    (hbetter : ∀ a b, better a b = true ↔ ¬ le b a) (hz : z.val % 2 = 0) (hpos : 0 < ((ch.engine n).dreg x).toNat)
    (ht : t.engine n = { (ch.engine n).extreme better empty z x p with
      cyc := (ch.engine n).cyc + (2 + (((ch.engine n).dreg x).toNat + 1) / 2) })
    (hon : wentOn n (2 + (((ch.engine n).dreg x).toNat + 1) / 2) ch t) :
    gaveExtreme n le z p ((ch.engine n).dreg x).toNat ch t := by
  have hk := ((ch.engine n).dreg x).isLt
  rw [Engine.extreme_scan better empty z p hpos] at ht
  have hspec := Engine.scan_spec total trans hbetter (ch.engine n) p
    (v := fun i => ((ch.engine n).load ((ch.engine n).walk p i)).toInt) (fun _ => rfl) ((ch.engine n).dreg x).toNat 0 0 0 _
    (.refl _ _) (.inl rfl)
  generalize Engine.scan better p ((ch.engine n).dreg x).toNat 0 0 0 (ch.engine n) = r at ht hspec
  obtain ⟨v, b, a⟩ := r
  rw [Nat.zero_add] at hspec
  obtain ⟨⟨hhere, hother, hframe⟩, hfound⟩ := hspec
  obtain ⟨hv, hb, hext, hlow⟩ := hfound hpos
  simp only at hhere hother hframe hv hb hext hlow ht
  obtain ⟨hvalue, hhigh, hregs⟩ := Engine.setPair_reads (e := a) (t := t.engine n) (v := BitVec.ofInt 16 v) (w := BitVec.ofNat 16 b) hz
    (by rw [ht]; rfl)
  have hindex : (Tab.get (t.engine n).d 0 (z.val + 1)).toNat = b := by rw [hhigh, BitVec.toNat_ofNat]; omega
  unfold gaveExtreme
  rw [hindex]
  refine ⟨?_, hb, hext, hlow, ?_, fun j hj => ?_, fun i hi h h' => ?_, ?_, ?_, hon⟩
  · rw [hvalue, hv, BitVec.ofInt_toInt]
  · rw [← hhere, ht]; rfl
  · rw [← hother j hj, ht]; rfl
  · rw [hregs i hi h h', hframe]
  · show flagsTook _ _ ((ch.engine n).load ((ch.engine n).walk p b)).toInt false 0
    rw [← hv]
    exact flagsTook_plain (by rw [ht, hframe]; rfl)
  · rw [ht, hframe]; rfl

/-- Settles O24: TRIG by the register pair it writes, MINX and MAXX by the invariant of their scan, once for both orders. -/
theorem leTrigAndExtremes : Obligations.LeTrigAndExtremes := by
  unfold Obligations.LeTrigAndExtremes
  intro c n z x p hz
  have hlegal : (z.val % 2 == 0) = true := by rw [hz]; rfl
  refine ⟨?_, ?_, ?_, ?_, ?_⟩
  · refine acts_instruction (g := fun e => e.trig z x) (fun _ => rfl) (fun _ h => h) (fun _ _ => if_pos hlegal) (fun _ => rfl)
      fun ch t _ ht hon => ?_
    rw [Engine.trig_eq_setPair] at ht
    obtain ⟨hcos, hsin, hother⟩ := Engine.setPair_reads (e := ch.engine n) (t := t.engine n)
      (v := BitVec.ofInt 16 (cosTurn ((ch.engine n).dreg x).toNat))
      (w := BitVec.ofInt 16 (sinTurn ((ch.engine n).dreg x).toNat)) hz (by rw [ht])
    exact ⟨hcos, hsin, hother, by rw [ht]; rfl, hon⟩
  · refine acts_instruction (fun _ => rfl) (fun ch h => (scanCost_zero _ h.2).symm ▸ h.1) (fun _ _ => if_pos hz)
      (fun e => e.extreme_reps _ _ z x p) fun ch t h ht hon => ?_
    obtain ⟨hlow, hhigh, hother, hfl, hframe⟩ := Engine.extreme_empty_took hz h.2 ht
    exact ⟨hlow, hhigh, hother, hfl, hframe, scanCost_zero _ h.2 ▸ hon⟩
  · refine acts_instruction (fun _ => rfl) (fun ch h => (scanCost_zero _ h.2).symm ▸ h.1) (fun _ _ => if_pos hz)
      (fun e => e.extreme_reps _ _ z x p) fun ch t h ht hon => ?_
    obtain ⟨hlow, hhigh, hother, hfl, hframe⟩ := Engine.extreme_empty_took hz h.2 ht
    exact ⟨hlow, hhigh, hother, hfl, hframe, scanCost_zero _ h.2 ▸ hon⟩
  · refine acts_instruction (fun _ => rfl) (fun ch h => h.1) (fun _ _ => if_pos hz) (fun e => e.extreme_reps _ _ z x p)
      fun ch t h ht hon => gaveExtreme_scan ?_ ?_ ?_ hz h.2 ht hon
    · exact Int.le_total
    · exact fun _ _ _ => Int.le_trans
    · exact fun a b => by rw [decide_eq_true_eq, Int.not_le]
  · refine acts_instruction (fun _ => rfl) (fun ch h => h.1) (fun _ _ => if_pos hz) (fun e => e.extreme_reps _ _ z x p)
      fun ch t h ht hon => gaveExtreme_scan ?_ ?_ ?_ hz h.2 ht hon
    · exact fun a b => Int.le_total b a
    · exact fun _ _ _ hab hbc => Int.le_trans hbc hab
    · exact fun a b => by rw [decide_eq_true_eq, Int.not_le]

end Sys2Proof.Machine

namespace Sys2Proof.Machine

open Sys2Proof

/-! ### MOV with a reserved number: the frame of a halt (R92, R95, R126)

A halt aborts the engine's task, and an aborted current task marks its joint in JNT_STS. A task names its joint by a number without bound, and
every frame ends with the registers the part has, below 0x20000: the mark of a joint past them lies outside the frame that `halted` states. -/

/-- Whether the registers a part names lie below 0x20000. -/
def Part.inside : Part → Bool
  | .regs _ hi => decide (hi ≤ 0x20000)
  | .each _ hi _ _ => decide (hi ≤ 0x20000)
  | _ => true

theorem Part.covers_past {p : Part} {o : Nat} (hp : p.inside = true) (ho : 0x20000 ≤ o) : p.covers o = false := by
  cases p <;> simp only [Part.inside, Part.covers, decide_eq_true_eq, Bool.and_eq_false_iff, decide_eq_false_iff_not] at hp ⊢ <;> omega

/-- A field past the registers of the part is outside every frame. -/
theorem Only.get_past {T : List Part} {a b : ChanState} (h : Only T a b) (hT : T.all Part.inside = true) {f : RF}
    (hf : 0x20000 ≤ f.ofs) : b.get f = a.get f :=
  h.get f (List.any_eq_false.mpr fun p hp => by rw [Part.covers_past (List.all_eq_true.mp hT p hp) hf]; decide)

/-- The end of an engine's task, its miss aside, is told of the scheduler and the engines alone. -/
theorem dispatch_taskEnd (ch : ChanState) (n : Fin 8) (cyc : Nat) :
    Only dispatchParts ch (((ch.countCycles n cyc).engineIdle n).add Reg.SCH_ABRT 1).schPend := by
  have hn := n.isLt
  have hput : ∀ (x : ChanState) (f : RF) (v : Nat), 0x5000 ≤ f.ofs → f.ofs < 0x7000 → Only dispatchParts x (x.put f v) :=
    fun x f v h h' => only_put _ _ _ _ (by simp [dispatchParts, Part.covers, h, h'])
  have hcount : Only dispatchParts ch (ch.countCycles n cyc) := by
    unfold ChanState.countCycles
    extract_lets tot c1 c2
    have h1 : Only dispatchParts ch c1 := hput _ _ _ (by simp only [Reg.LPE_CYC_LAST]; omega) (by simp only [Reg.LPE_CYC_LAST]; omega)
    have h2 : Only dispatchParts c1 c2 :=
      Only.ite (hput _ _ _ (by simp only [Reg.LPE_CYC_MAX]; omega) (by simp only [Reg.LPE_CYC_MAX]; omega)) (Only.refl _ _)
    clear_value c1 c2
    exact (h1.trans h2).trans ⟨rfl, fun _ _ => rfl⟩
  have hidle : ∀ x : ChanState, Only dispatchParts x (x.engineIdle n) := by
    intro x
    unfold ChanState.engineIdle
    extract_lets e c1 c2
    have h1 : Only dispatchParts x c1 := ⟨rfl, fun _ _ => rfl⟩
    have h2 : Only dispatchParts c1 c2 :=
      ((hput _ _ _ (by simp only [Reg.LPE_STS_JOINT]; omega) (by simp only [Reg.LPE_STS_JOINT]; omega)).trans
        (hput _ _ _ (by simp only [Reg.LPE_STS_KIND]; omega) (by simp only [Reg.LPE_STS_KIND]; omega))).trans
        (hput _ _ _ (by simp only [Reg.LPE_PC_PC]; omega) (by simp only [Reg.LPE_PC_PC]; omega))
    clear_value c1 c2
    exact (h1.trans h2).trans (hput _ _ _ (by simp only [Reg.LPE_STS_STATE]; omega) (by simp only [Reg.LPE_STS_STATE]; omega))
  exact ((hcount.trans (hidle _)).trans (hput _ _ _ (by decide) (by decide))).trans (hput _ _ _ (by decide) (by decide))

/-- What every write of a field leaves alone, a saturating count of it does. -/
theorem ChanState.get_incSat_of {ch : ChanState} {f g : RF} (h : ∀ v, (ch.put f v).get g = ch.get g) : (ch.incSat f).get g = ch.get g := by
  unfold ChanState.incSat; split
  · exact h _
  · rfl

/-- A first aborted current task marks its joint, wherever the number of the joint puts it (R92). -/
theorem missCurrent_marks {ch : ChanState} {j : Nat} (hj : 384 ≤ j) (hfirst : ch.get (Reg.JNT_STS_CCONS j) = 0) :
    (ch.missCurrent j).get (Reg.JNT_STS_CMISS j) = 1 := by
  unfold ChanState.missCurrent
  extract_lets again c1 c2
  have hagain : again = false := by simp [again, hfirst]
  have hmarked : c1.get (Reg.JNT_STS_CMISS j) = 1 := by
    have hcons : ∀ x : ChanState, (x.incSat (Reg.JNT_STS_CCONS j)).get (Reg.JNT_STS_CMISS j) = x.get (Reg.JNT_STS_CMISS j) := fun x =>
      ChanState.get_incSat_of fun v => x.get_put_apart _ _ v rfl rfl (by show 8 + 2 ≤ 32; decide) (by show 5 + 1 ≤ 8 ∨ 8 + 2 ≤ 5; decide)
    have hmiss : ∀ x : ChanState, (x.incSat (Reg.JNT_MISS_CUR j)).get (Reg.JNT_STS_CMISS j) = x.get (Reg.JNT_STS_CMISS j) := fun x =>
      ChanState.get_incSat_of fun v => x.get_put_ne _ _ v (by simp only [Reg.JNT_STS_CMISS, Reg.JNT_MISS_CUR]; omega)
    unfold c1
    rw [hcons, hmiss, ChanState.get_put_same _ _ _ (by show 5 + 1 ≤ 32; decide)]
    rfl
  have hnoted : Noted c1 c2 := noted_fault c1 _ _ _ _ _ (by decide)
  clear_value again c1 c2
  rw [hagain, if_neg (by decide), hnoted.get_past (by decide) (by simp only [Reg.JNT_STS_CMISS]; omega), hmarked]

/-- A halt in a current task whose joint lies past the registers of the part marks that joint. -/
theorem engineHalt_marks {ch : ChanState} {n : Fin 8} {flt : Nat} {t : Task} (ht : (ch.engine n).task = some t) (hevt : t.evt = none)
    (hkind : t.kind = 1) (hj : 384 ≤ t.joint) (hfirst : ch.get (Reg.JNT_STS_CCONS t.joint) = 0) :
    (ch.engineHalt n flt).get (Reg.JNT_STS_CMISS t.joint) = 1 := by
  have hn := n.isLt
  have habort : (ch.abortRunning n).get (Reg.JNT_STS_CMISS t.joint) = 1 := by
    have hend := dispatch_taskEnd ch n (ch.engine n).cyc
    unfold ChanState.abortRunning
    simp only [ht, ChanState.taskAborted, hevt, hkind, Option.isSome_none, Bool.false_eq_true, if_false, if_true]
    refine missCurrent_marks hj ?_
    rw [hend.get_past (by decide) (by simp only [Reg.JNT_STS_CCONS]; omega), hfirst]
  unfold ChanState.engineHalt
  rw [(noted_fault _ 0x0405 1 none n 0 (by decide)).get_past (by decide) (by simp only [Reg.JNT_STS_CMISS]; omega)]
  rw [ChanState.get_put_ne, ChanState.get_put_ne, ChanState.get_put_ne, ChanState.get_put_ne, habort]
  all_goals simp only [Reg.JNT_STS_CMISS, Reg.LPE_PC_PC, Reg.LPE_STS_FLTS, Reg.LPE_STS_FLT, Reg.LPE_STS_STATE]; omega

/-- An illegal form halts the engine that runs a task, wherever its code lies. -/
theorem ChanState.leRun_halt {ch : ChanState} {n : Nat} {cost : Nat → Engine → Nat} {f : Nat → Engine → Engine × Flow} {t : Task}
    (ht : (ch.engine n).task = some t)
    (hf : (f (ch.get (Reg.LPE_PC_PC n)) (ch.engine n)).2 = .halt) : ch.leRun n cost f = ch.engineHalt n 1 := by
  unfold ChanState.leRun
  simp only [ht, hf, Engine.follow, ite_self]

theorem Engine.movSrc_reserved (e : Engine) {r : Nat} (h : 0x1A ≤ r) : e.movSrc r = none := by
  unfold Engine.movSrc
  repeat rw [if_neg (by omega)]

/-- MOV from a reserved number, in a current task whose joint lies past the registers of the part. -/
theorem leMov_reserved_marks {c : Chan} {n : Fin 8} {dst src : BitVec 5} (hsrc : 0x1A ≤ src.toNat) (t : Task) :
    Acts (.leMov c n dst src) c
      (fun ch => (ch.engine n).task = some t ∧ t.evt = none ∧ t.kind = 1 ∧ 384 ≤ t.joint ∧ ch.get (Reg.JNT_STS_CCONS t.joint) = 0)
      (fun _ x => x.get (Reg.JNT_STS_CMISS t.joint) = 1) := by
  refine acts_live (fun _ => rfl) fun ch _ ⟨ht, hevt, hkind, hj, hfirst⟩ => ?_
  rw [ChanState.leRun_halt (ch := { ch with sent := [] }) ht (by rw [Engine.movSrc_reserved _ hsrc])]
  exact engineHalt_marks ht hevt hkind hj hfirst

/-- A current task of joint 384, of which JNT_STS would stand at 0x20080, past every register of the part. -/
def strayTask : Task := { kind := 1, joint := 384, rel := 0, dl := 0, clim := 5000, entry := 0, evt := none }

/-- Channel A running, with the stray task on engine 0. -/
def strayState : State :=
  { State.reset with chA := { id := .A, rst := { held := false }, engines := [(0, { task := some strayTask })] } }

/-- Refutes O22: with the reserved source number 31 engine 0 halts, and the aborted task of joint 384 sets JNT_STS.CMISS at 0x20080, outside
the frame of `halted`. -/
theorem not_leMoves : ¬ Obligations.LeMoves := by
  unfold Obligations.LeMoves
  intro h
  obtain ⟨_, hhalts, _⟩ := h .A 0 0 0 0 31 0
  obtain ⟨x, hx, hhalted⟩ := hhalts strayState (by decide) (by decide)
  obtain ⟨_, _, _, _, _, _, hframe⟩ := hhalted
  obtain ⟨y, hy, hmarked⟩ := leMov_reserved_marks (c := .A) (n := 0) (dst := 0) (src := 31) (by decide) strayTask
    strayState (by decide) (by decide)
  have hxy : x = y := by
    rw [hx] at hy
    injection hy with hset
    rw [← strayState.chan_setChan .A x, hset, strayState.chan_setChan]
  have hkept : x.get (Reg.JNT_STS_CMISS 384) = 0 := (hframe.get_past (by decide) (by decide)).trans (by decide)
  rw [hxy] at hkept
  exact absurd (hkept.symm.trans hmarked) (by decide)

end Sys2Proof.Machine
